-- ==== Sys2Proof/Word.lean ====
section
/-! DEFINITION. The word types of the manual (R7, R8): bytes and the register, command and address words. -/
namespace Sys2Proof

/-- One byte (R8). -/
abbrev Byte := BitVec 8
/-- A 16-bit field. -/
abbrev W16 := BitVec 16
/-- A BAR0 register word (R488). -/
abbrev W32 := BitVec 32
/-- A 64-bit quantity of a command, an address or a scalar register of a tile. -/
abbrev W64 := BitVec 64
/-- A 64-byte line, vector register or accumulator tile, byte 0 in bits [7:0]. -/
abbrev W512 := BitVec 512

end Sys2Proof
end

