-- ==== Sys2Proof/Syntax.lean ====
section
/-! DEFINITION. The commands of the part: one constructor of `Instr` per row of spec/opcode_table.json, and the
operand types they carry. A row that the manual describes as the arrival of a command packet (R36) carries that packet;
a row that is an event of a unit names the unit; a row that is an instruction of a churn tile (R160) names the tile and
carries the fields of the instruction word (R158). -/
namespace Sys2Proof

/-- The two kinds of command channel (R36): ring [0, 1023], or the fabric channel of a requester rank. -/
inductive Chan where
  | ring (n : Nat)
  | rank (r : Nat)
deriving DecidableEq, Repr

/-- A command packet as it arrives (R39): the channel, the arrival port of a fabric packet (R114; 14 stands for PCIe), the
TXN of its packet (R333), the 64 bytes (byte `i` in bits `[8i+7 : 8i]`) and the bytes that follow the command in a CMD
packet (R57). -/
structure CmdIn where
  chan : Chan
  port : Nat
  txn  : Nat
  raw  : W512
  data : List Byte
deriving DecidableEq, Repr

/-- The fields of a churn instruction word other than OPC (R158). -/
structure TI where
  d   : BitVec 5
  a   : BitVec 5
  b   : BitVec 5
  c   : BitVec 5
  fmt : BitVec 4
  imm : W32
deriving DecidableEq, Repr

/-- The row NOP stands for the hardware opcode (R57) and for the tile instruction (R160). -/
inductive NopKind where
  | cmd (c : CmdIn)
  | tile (t : Nat) (i : TI)
deriving DecidableEq, Repr

/-- An operator ticket (R107), with the set-owner key hash that BINDSET_LOAD checks (R124). -/
structure Ticket where
  opKey        : List Byte
  adminKey     : List Byte
  tenantId     : W64
  deviceId     : W64
  claimCounter : Nat
  ownerHash    : List Byte
  sig          : List Byte
deriving DecidableEq, Repr

/-- A member of a binding set (R124): a device identity and a rank. -/
structure Member where
  devId : W64
  rank  : Nat
deriving DecidableEq, Repr

/-- A BINDSET_LOAD manifest (R124); `cpuHost` says that the CPU host itself is a listed member. -/
structure Manifest where
  setId      : Nat
  wrappedKey : List Byte
  members    : List Member
  cpuHost    : Bool
  ownerKey   : List Byte
  sig        : List Byte
deriving DecidableEq, Repr

/-- The two transports of SPDM (R127): DOE on the PCIe function, MCTP on the sideband. -/
inductive SpdmPath where
  | doe
  | mctp
deriving DecidableEq, Repr

/-- A TDISP message that moves a device interface between its states (R128). -/
inductive TdispMsg where
  | lock
  | start
  | stop
  | error
deriving DecidableEq, Repr

/-- A coherence message from an agent (R297): the source rank of its packet, and the fields it carries. -/
structure CohMsg where
  rank   : Nat
  win    : Nat
  agent  : Nat
  line   : Nat
  txn    : Nat
  token  : Nat
  data   : W512
  poison : Bool
deriving DecidableEq, Repr

/-- A Coleth message as it arrives (R457, R462): on the PCIe mailbox, or on the sideband. -/
inductive ColethPath where
  | mailbox
  | sideband (bytes : List Byte)
deriving DecidableEq, Repr

/-- What a training of a partition found (R360, R362, R387): the SPD of the channels, the stack report, and whether the
steps passed. -/
structure TrainResult where
  popOk    : Bool
  spdOk    : Bool
  skimPass : Bool
  ranks    : Nat
  rows     : Nat
  rateMax  : Nat
  x8       : Bool
  mrdimm   : Bool
  sids     : Nat
  crmRows  : Nat
  crmPass  : Bool
deriving DecidableEq, Repr

/-- How a register mark was received: whether it matches its column, and the RS symbols corrected on the lane since the last one
(R349, R352). -/
structure MarkCheck where
  matched   : Bool
  corrected : Nat := 0
deriving DecidableEq, Repr

/-- What the PRBS checker of a lane found: the bit errors since it was last asked (R358). -/
structure PrbsCheck where
  lane   : Nat
  errors : Nat := 0
deriving DecidableEq, Repr

/-- A failure a self-test found (R445). -/
structure BistRec where
  unit   : W32
  test   : Nat
  kind   : Nat
  bit    : Nat
  column : Nat
  addr   : W64
deriving DecidableEq, Repr

/-- A controller of a partition (R390): DDR5 channel `c` with its subchannel, or pseudo-channel `n` of the stack. -/
inductive MemUnit where
  | sub (d : Nat) (s : Nat)
  | pc (h : Nat) (n : Nat)
deriving DecidableEq, Repr

/-- The commands and events of the table, in the table's order. -/
inductive Instr where
  -- rings (R64, R74-R77)
  | doorbell (n : Nat) (value : W32)
  | ringFetch (n : Nat)
  | ringEnable (n : Nat) (cfg : W32)
  | ringDisable (n : Nat) (cfg : W32)
  | ringDisableComplete (n : Nat)
  | ringFlush (n : Nat)
  | ringResume (n : Nat)
  | ringStop (n : Nat)
  -- hardware memory opcodes and management (R57, R70, R72)
  | nop (k : NopKind)
  | memRead (c : CmdIn)
  | memWrite (c : CmdIn)
  | memAtomic (c : CmdIn)
  | memCas (c : CmdIn)
  | cancel (c : CmdIn)
  | capQuery (c : CmdIn)
  -- command store timers and progress
  | waitLimitExpiry (k : Nat)
  | retryTokenExpiry (token : W16)
  | yellowWithdrawal (k : Nat)
  | refusalDelayExpiry (k : Nat)
  | operationStart (k : Nat)
  | granuleComplete (k : Nat)
  | faultRecordWrite (fid : W32)
  | xltFaultEscalation (fid : W32)
  -- ranges and translation (R96)
  | rangeCreate (c : CmdIn)
  | rangeDestroy (c : CmdIn)
  | rangeQuery (c : CmdIn)
  | advise (c : CmdIn)
  | prefetch (c : CmdIn)
  | xltS1Root (c : CmdIn)
  | xltInvalidate (c : CmdIn)
  | xltFaultResume (c : CmdIn)
  | xltCommit (c : CmdIn)
  -- tenant requests (R112): `sess` is the SPDM session the request arrived in
  | tenantClaim (t : Ticket)
  | tenantRelease (sess : Option Nat) (t : Option Ticket)
  | tenantScrubComplete (p : Nat)
  | hostSet (sess : Option Nat) (hid : Nat) (entry : BitVec 256)
  | hostClear (sess : Option Nat) (hid : Nat)
  | grantSet (sess : Option Nat) (hid rid : Nat) (rights : BitVec 3)
  | isoCommit (sess : Option Nat)
  | bindsetLoad (sess : Option Nat) (m : Manifest)
  | weightUnwrap (sess : Option Nat) (src dst : W64) (hid : Nat)
  | weightClear (sess : Option Nat) (dst : W64)
  | logRead (sess : Option Nat) (first : W32) (count : Nat)
  -- SPDM (R127)
  | getVersion (p : SpdmPath)
  | getCapabilities (p : SpdmPath)
  | negotiateAlgorithms (p : SpdmPath)
  | getDigests (p : SpdmPath)
  | getCertificate (p : SpdmPath) (slot : Nat) (offset len : Nat)
  | challenge (p : SpdmPath) (nonce : List Byte)
  | getMeasurements (p : SpdmPath) (index : Nat)
  | keyExchange (p : SpdmPath) (exchange : List Byte)
  | finish (p : SpdmPath) (sess : Nat) (key : Option (List Byte)) (proof : List Byte)
  | endSession (sess : Nat)
  | heartbeat (sess : Nat)
  | keyUpdate (sess : Nat)
  -- QoS (R147) and traffic
  | qosMeterSet (c : CmdIn)
  | qosMeterQuery (c : CmdIn)
  | qosChannelSet (c : CmdIn)
  | qosTcWeights (c : CmdIn)
  | schedSelect (pt : Nat)
  | queueSample
  | histSnap (value : W32)
  | histSnapshotDone
  | histClearAll (value : W32)
  -- churn instructions (R160)
  | halt (t : Nat) (i : TI)
  | trap (t : Nat) (i : TI)
  | br (t : Nat) (i : TI)
  | bcc (t : Nat) (i : TI)
  | lseti (t : Nat) (i : TI)
  | lset (t : Nat) (i : TI)
  | loop (t : Nat) (i : TI)
  | gran (t : Nat) (i : TI)
  | sadd (t : Nat) (i : TI)
  | ssub (t : Nat) (i : TI)
  | smul (t : Nat) (i : TI)
  | sand (t : Nat) (i : TI)
  | sor (t : Nat) (i : TI)
  | sxor (t : Nat) (i : TI)
  | saddi (t : Nat) (i : TI)
  | sshl (t : Nat) (i : TI)
  | sshr (t : Nat) (i : TI)
  | ssra (t : Nat) (i : TI)
  | smovi (t : Nat) (i : TI)
  | smovhi (t : Nat) (i : TI)
  | gets (t : Nat) (i : TI)
  | vld (t : Nat) (i : TI)
  | vst (t : Nat) (i : TI)
  | ald (t : Nat) (i : TI)
  | ast (t : Nat) (i : TI)
  | sld (t : Nat) (i : TI)
  | sst (t : Nat) (i : TI)
  | mma (t : Nat) (i : TI)
  | macCheck (t : Nat) (shadow : Bool)
  | azero (t : Nat) (i : TI)
  | aadd (t : Nat) (i : TI)
  | amulv (t : Nat) (i : TI)
  | amovv (t : Nat) (i : TI)
  | vmova (t : Nat) (i : TI)
  | cvt (t : Nat) (i : TI)
  | vamax (t : Nat) (i : TI)
  | scale (t : Nat) (i : TI)
  | cvtq (t : Nat) (i : TI)
  | deq (t : Nat) (i : TI)
  | seed (t : Nat) (i : TI)
  | unpk (t : Nat) (i : TI)
  | pack (t : Nat) (i : TI)
  | vcmp (t : Nat) (i : TI)
  | vsel (t : Nat) (i : TI)
  | vadd (t : Nat) (i : TI)
  | vsub (t : Nat) (i : TI)
  | vmul (t : Nat) (i : TI)
  | vmax (t : Nat) (i : TI)
  | vmin (t : Nat) (i : TI)
  | vexp2 (t : Nat) (i : TI)
  | vbcast (t : Nat) (i : TI)
  | vred (t : Nat) (i : TI)
  | arow (t : Nat) (i : TI)
  | dld (t : Nat) (i : TI)
  | dst (t : Nat) (i : TI)
  | dwait (t : Nat) (i : TI)
  | swait (t : Nat) (i : TI)
  | ssig (t : Nat) (i : TI)
  | sread (t : Nat) (i : TI)
  -- tile engines and limits
  | dmaBurstIssue (t : Nat) (e : Bool)
  | dmaTransferComplete (t : Nat) (e : Bool)
  | tileWaitLimit (t : Nat)
  | maxCyclesExceeded (t : Nat)
  -- program commands (R181)
  | progLoad (c : CmdIn)
  | progRun (c : CmdIn)
  | runStart (k : Nat)
  | progUnload (c : CmdIn)
  | progQuery (c : CmdIn)
  -- sync objects (R232)
  | syncUpdateApply (idx : Nat)
  | syncConfig (c : CmdIn)
  | syncRelease (c : CmdIn)
  | syncSet (c : CmdIn)
  | syncAdd (c : CmdIn)
  | syncRead (c : CmdIn)
  -- bulk operations and the compressed all-reduce (R233)
  | fill (c : CmdIn)
  | copy (c : CmdIn)
  | compare (c : CmdIn)
  | reduce (c : CmdIn)
  | nmoRelease (c : CmdIn)
  | redSlotOpen (c : CmdIn)
  | redContribute (c : CmdIn)
  | contributionArrive (slot index : Nat)
  | reductionStepComplete (slot : Nat)
  | stepLimitExpiry (slot : Nat)
  | redSlotClose (c : CmdIn)
  | redSlotQuery (c : CmdIn)
  -- attention (R254)
  | attPoolOpen (c : CmdIn)
  | attPoolClose (c : CmdIn)
  | attAppend (c : CmdIn)
  | attScore (c : CmdIn)
  | attRedigest (c : CmdIn)
  -- galley (R278)
  | galOpen (c : CmdIn)
  | galClose (c : CmdIn)
  | galBegin (c : CmdIn)
  | galLockup (c : CmdIn)
  | lockupReady (g : Nat)
  | chunkHashComplete (g : Nat)
  | galExport (c : CmdIn)
  | galQuery (c : CmdIn)
  -- coherence (R297) and windows (R307)
  | rdS (m : CohMsg)
  | rdX (m : CohMsg)
  | upg (m : CohMsg)
  | wb (m : CohMsg)
  | rspNp (m : CohMsg)
  | rspAck (m : CohMsg)
  | rspData (m : CohMsg)
  | snoopTimeout (win line agent : Nat)
  | cohTokenExpiry (win token : Nat)
  | winOpen (c : CmdIn)
  | winClose (c : CmdIn)
  | winReopen (c : CmdIn)
  | winQuery (c : CmdIn)
  -- flits (R314) and the link layer
  | data (p : Nat) (flit : List Byte)
  | idle (p : Nat) (flit : List Byte)
  | replayMark (p : Nat) (flit : List Byte)
  | nak (p : Nat) (flit : List Byte)
  | init (p : Nat) (flit : List Byte)
  | linkReq (p : Nat) (flit : List Byte)
  | linkAck (p : Nat) (flit : List Byte)
  | flitTransmit (p : Nat)
  | replayTimerExpiry (p : Nat)
  | creditTimeout (p ty : Nat)
  | initTimer (p : Nat)
  | holdoffEnd (p : Nat)
  | rrdData (src txn : Nat) (bytes : List Byte)
  | rrdErr (src txn : Nat) (code : W32)
  | rrdTimeout (txn : Nat)
  | rankSet (sess : Option Nat) (rank : Nat) (entry : BitVec 192)
  | rankClear (sess : Option Nat) (rank : Nat)
  | cktSet (sess : Option Nat) (port id : Nat) (entry : BitVec 192)
  | cktClear (sess : Option Nat) (port id : Nat)
  | routeCommit (sess : Option Nat)
  | drainComplete
  | drainTimeout
  | rankMoveBackRetry (rank : Nat)
  | selfRank (sess : Option Nat) (rank : Nat)
  | rflCtrlRetrain (p : Nat)
  | rflCtrlDown (p : Nat)
  | rflCtrlUp (p : Nat)
  -- lanes (R347-R358): training messages are the 128 message bits
  | laneSignalDetect (p n : Nat)
  | cap (p n : Nat) (msg : BitVec 128)
  | eq (p n : Nat) (msg : BitVec 128)
  | step (p n : Nat) (msg : BitVec 128)
  | check (p n : Nat) (msg : BitVec 128)
  | align (p n : Nat) (msg : BitVec 128)
  | checkPeriodEnd (p : Nat) (errors : List Nat)
  | trainStateTimeout (p : Nat)
  | retrainTimeout (p : Nat)
  | registerMark (p n : Nat) (symbols : List (BitVec 10)) (check : MarkCheck)
  | laneFailure (p n cause : Nat)
  | loopbackNearSerial (p : Nat) (value : W32)
  | loopbackNearParallel (p : Nat) (value : W32)
  | loopbackFarRequest (p : Nat) (value : W32)
  | loopbackEnd (p : Nat) (value : W32)
  | farEndSignalLoss (p : Nat)
  -- memory controllers (R363-R390)
  | channelIssue (u : MemUnit)
  | rowIdleClose (u : MemUnit) (rank bank : Nat)
  | refreshDue (u : MemUnit) (rank : Nat)
  | scrubLine (u : MemUnit)
  | remapInstall (u : MemUnit) (e : Nat) (value : W32)
  | remapRemove (u : MemUnit) (e : Nat) (value : W32)
  | remapCopyComplete (u : MemUnit) (e : Nat)
  | park (p : Nat) (value : W32)
  | parkComplete (p : Nat)
  | unpark (p : Nat) (value : W32)
  | zeroFillComplete (p : Nat) (cream : Bool)
  | trainingRunStart (stack : Bool) (i : Nat) (value : W32)
  | trainingRunDone (stack : Bool) (i : Nat) (failLo failHi : W32)
  | injectArm (stack : Bool) (i : Nat) (value : W32)
  | partitionTrainingComplete (p : Nat) (r : TrainResult)
  -- the mirrored pair (R392, R403)
  | pairQuery (c : CmdIn)
  | pairForm (c : CmdIn)
  | pairSwitch (c : CmdIn)
  | pairBreak (c : CmdIn)
  | pairResync (c : CmdIn)
  | resyncCut
  | tokenRecord (r : BitVec 256)
  | eventRecord (r : BitVec 256)
  | digestRecord (r : BitVec 384)
  | heartbeatRecord (r : BitVec 192)
  | noticeRecord (r : BitVec 128)
  | replySentRecord (r : BitVec 128)
  | forwardedTenantRequest (code : Nat) (body : List Byte)
  | rangeDigestList (entries : List (Nat × W64))
  | resynchronisationData (ppa : W64) (bytes : List Byte)
  | mirrorHeartbeatTimer
  | intervalCut
  | intervalClose (n : Nat)
  | tokenMissingTimeout (seq : Nat)
  | orphanTimeout (k : Nat)
  | lagTimeout
  | digestLate (n : Nat)
  | mirSilentTimeout
  | peerSilentTimeout
  | peerAliveEdge
  -- faults and recovery (R419-R446)
  | faultReport (unit : W32) (prot detail : Byte) (info : W64)
  | brokenWire (unit : W32)
  | dumpComplete (p : Nat)
  | selfRefreshConfirm (p : Nat) (ctl : Nat)
  | partitionReturn (p : Nat)
  | deviceRecoveryComplete
  | quietEnd (unit : W32)
  | escalation (unit : W32)
  | recoveryWindowEnd (unit : W32)
  | watchdogExpiry (wd : Nat) (unit : W32)
  | aliveToggle
  | clockMonitorWindow (island : Nat) (count : Nat)
  | pllRelockComplete (island : Nat)
  | fltOffline (value : W32)
  | fltReturn (value : W32)
  | fltBist (value : W32)
  | fltClearCount (value : W32)
  | bistComplete (fails : List BistRec)
  | coreRestartComplete (unit : W32)
  -- firmware, energy and thermal (R447-R478)
  | fwStage (c : CmdIn)
  | fwCommit (c : CmdIn)
  | fwProgramComplete (flashOk : Bool)
  | fwStatus (c : CmdIn)
  | fwActivate (c : CmdIn)
  | fwConfirm (c : CmdIn)
  | pwrBudgetSet (c : CmdIn)
  | pwrQuery (c : CmdIn)
  | siteCapSet (watts : Nat)
  | hello (m : ColethPath)
  | versionQuery (m : ColethPath)
  | fwChunk (m : ColethPath)
  | fwRomCommit (m : ColethPath)
  | mbxF2hValidClear (value : W32)
  | energySample (mj : List Nat)
  | energyBucket
  | plannerEpoch (unres : Nat)
  | thermalSample (temps : List (BitVec 16))
  | thermalTrip (sensor : Nat) (temp : BitVec 16)
  | bootStageComplete (slotValid : List Bool)
  | bootStageTimeout
  | strapSample (sample : BitVec 5)
  -- registers (R488-R494)
  | msixRearm (value : W32)
  | synCountLoRead (fn i : Nat)
  | mirSeqLoRead (fn : Nat)
  | pwrELoRead (fn d : Nat)
  | glbDeviceIdLoRead (fn : Nat)
  | glbCapLoRead (fn : Nat)
  | glbTimeLoRead (fn : Nat)
  | fltDumpSkippedRead (fn : Nat) (event : Bool)
  | registerWrite (fn : Nat) (addr : W32) (value : W32) (be : BitVec 4)
  -- power, resets, pins, sideband (R501-R510)
  | powerUp
  | resetNAssert
  | resetNRelease
  | resetHeld
  | pwrgdFall
  | pwrgdRise
  | perstNAssert
  | perstNRelease
  | functionLevelReset
  | smbusReceiveByte
  | smbusSendByte (b : Byte)
  | frameLock (p n : Nat)
  | detectWindowEnd (p : Nat)
  | prbsCheckerLock (p : Nat) (found : PrbsCheck)
  | quiesceDeadline (p : Nat)
  | resetHoldEnd (p : Option Nat)
  | coreHeartbeat (unit : W32)
  | weightChunkComplete (rid chunk : Nat)
  | tdispRequest (iface : Nat) (m : TdispMsg)
  | ideKmRequest (sess : Option Nat) (stream : Option Nat) (on : Bool)
  | vddSafLoss
deriving DecidableEq, Repr

end Sys2Proof
end

