-- ==== Sys2Proof/Decode.lean ====
section
/-! DEFINITION. Words of the opcode table. The table gives no row any bits (every row's "fields" is empty), so no word spells a command of
the queue. The opcode of a command packet is read by `opcodeOf` (Machine/Replies.lean), the instruction word of a churn tile is that of `encodeTI`
(Machine/Operands.lean), a flit's header by `takeHeader` (Machine/Link.lean): each where the spec reads it. -/
namespace Sys2Proof

/-- The command that a word of the table's bits spells: none, as no row has bits. -/
def decodeTableWord (_nbits _w : Nat) : Option Instr := none

end Sys2Proof
end

