-- ==== Sys2Proof/Config.lean ====
section
/-! DEFINITION. What the manual leaves open or to an implementation, as constants without a body: no proof can see a value
of them, so a statement holds whatever they are. -/
namespace Sys2Proof

/-- A free value of `w` bits: the `n`-th value the manual leaves undefined in a run (log 5). -/
opaque Config.freeBits (w n : Nat) : BitVec w
/-- Bytes 48 to 63 of what PACK writes, by its source, FMT and IMM (R160, R209; log 43). -/
opaque Config.packHigh (src : BitVec 512) (fmt : BitVec 4) (imm : BitVec 32) : BitVec 128
/-- Does 2^−150, midway between +0 and the smallest subnormal, become the subnormal (R220; log 43)? -/
opaque Config.exp2Tie : Bool
/-- The code that VCMP writes into a T2 element for which its comparison holds (R160, R198; log 43). -/
opaque Config.t2True : Fin 3
/-- ECDSA P-384: does `sig` verify over `msg` under `key` (R107, R124)? The scheme is outside the manual (log 6). -/
opaque Config.sigOk (key msg sig : List Byte) : Bool
/-- SHA-384 (R107); the function is defined outside the manual (log 6). -/
opaque Config.sha384 (msg : List Byte) : List Byte
/-- The body of an SPDM response to a message of code `code` with body `req`, the `n`-th of a run (R127, log 6). -/
opaque Config.spdmBody (code : Nat) (req : List Byte) (n : Nat) : List Byte
/-- AES-256-GCM opening of a sealed unit (R129) under the key of a session, named by the session's serial number and key generation:
plaintext, or none where the tag fails (log 6). -/
opaque Config.unseal (key : Nat × Nat) (iv unit tag : List Byte) : Option (List Byte)
/-- AES-256-GCM sealing of a unit (R129): ciphertext and tag (log 6). -/
opaque Config.seal (key : Nat × Nat) (iv unit : List Byte) : List Byte × List Byte
/-- The host identity whose units an SPDM session seals (R129), by the session's serial number and the requester's key: the manual does
not say what binds the two (log 41). -/
opaque Config.sessionHost (serial : Nat) (key : Option (List Byte)) : Option Nat
/-- The content key of a weight image (R125): `wrapped` unwrapped by AES key wrap under a binding set's key, itself wrapped to this
device (R124); none where either unwrapping fails (log 6). -/
opaque Config.contentKey (setKey wrapped : List Byte) : Option (List Byte)
/-- AES-256-GCM opening of a chunk of a weight image (R125): plaintext, or none where the tag fails (log 6). -/
opaque Config.openChunk (key iv aad chunk tag : List Byte) : Option (List Byte)
/-- Does SPDM's FINISH verify the mutual-authentication proof under the requester key (R112, R127, log 6)? -/
opaque Config.finishOk (key proof : List Byte) (sess : Nat) : Bool

/-- Library tiles and DVFS level that a library operation of opcode `op` uses for its admitted rate (R468, R469): the
manual leaves their number to the part (log 15). -/
opaque Config.libTiles (op rAdm : Nat) : Nat × Nat
/-- Clusters whose tiles SCH chooses for a library operation (R234, R270): its opcode, admitted rate and place in the order of acceptance
(log 15). -/
opaque Config.libClusters (op rAdm seq : Nat) : List Nat
/-- Power estimate of an open galley in µW (R469): the manual gives no figure (log 15). -/
opaque Config.galPower : Nat

end Sys2Proof
end

