-- ==== Sys2Proof/Machine/Bits.lean ====
section
/-! DEFINITION. Bit-field, byte-order and counter helpers (R7, R8, R491). -/
namespace Sys2Proof.Machine

/-- The field `[hi : lo]` of a number, as a number (R7). -/
def field (x hi lo : Nat) : Nat := (x / 2 ^ lo) % 2 ^ (hi + 1 - lo)

/-- Bit `i` of a number. -/
def bitOf (x i : Nat) : Bool := x / 2 ^ i % 2 = 1

/-- A truth value as a bit in position `i`. -/
def flag (b : Bool) (i : Nat) : Nat := if b then 2 ^ i else 0

/-- The number whose bytes are `bs`, little-endian (R8). -/
def leNat : List Byte → Nat
  | [] => 0
  | b :: bs => b.toNat + 256 * leNat bs

/-- `n` little-endian bytes of a number (R8). -/
def leBytes : Nat → Nat → List Byte
  | 0, _ => []
  | n + 1, x => BitVec.ofNat 8 x :: leBytes n (x / 256)

/-- Bytes `[o, o + n)` of a byte string, as a little-endian number; missing bytes are 0. -/
def leAt (bs : List Byte) (o n : Nat) : Nat := leNat ((bs.drop o).take n)

/-- A saturating addition to a counter of `w` bits (R491). -/
def satAdd (w x y : Nat) : Nat := min (x + y) (2 ^ w - 1)

/-- Does an addition to a counter of `w` bits meet the overflow condition of R491? -/
def satOvf (w x y : Nat) : Bool := decide (0 < y) && decide (2 ^ w - 1 < x + y)

/-- Rounds up to a multiple of `m`. -/
def roundUp (x m : Nat) : Nat := (x + m - 1) / m * m

/-- Pads or cuts a byte string to `n` bytes. -/
def padTo (n : Nat) (bs : List Byte) : List Byte := bs.take n ++ List.replicate (n - bs.length) 0

/-- Replaces the element at index `i`. -/
def setAt {α : Type} (l : List α) (i : Nat) (v : α) : List α := l.set i v

/-- Are the half-open spans `[a, a + n)` and `[b, b + m)` disjoint? -/
def disjointSpans (a n b m : Nat) : Bool := decide (a + n ≤ b) || decide (b + m ≤ a)

/-- ⌊log₂ x⌋, and 0 for 0. -/
def log2 (x : Nat) : Nat := Nat.log2 x

end Sys2Proof.Machine
end

