-- ==== Sys2Proof/Machine/Fp.lean ====
section
/-! DEFINITION. Number formats and rounding of "Narrow Arithmetic and Its Safeguards" (R195-R208, R216, R219): exact values,
the grid of a format, conversion, and FP32 arithmetic on encodings. Encodings are `Nat`. -/
namespace Sys2Proof.Machine

/-! ## Formats (R195, R197) -/

/-- A floating-point format: exponent and mantissa bits, bias, largest finite magnitude code, and what its codes above that
mean: 0 none are special, 1 infinity then NaNs, 2 one NaN. -/
structure FpFmt where
  eb   : Nat
  mb   : Nat
  bias : Nat
  top  : Nat
  spec : Nat
deriving DecidableEq, Repr

/-- The floating-point format of a code of R159. -/
def fpFmt : Nat → Option FpFmt
  | 0 => some { eb := 8, mb := 23, bias := 127, top := 0x7F7FFFFF, spec := 1 }
  | 1 => some { eb := 8, mb := 7, bias := 127, top := 0x7F7F, spec := 1 }
  | 2 => some { eb := 5, mb := 10, bias := 15, top := 0x7BFF, spec := 1 }
  | 3 => some { eb := 4, mb := 3, bias := 7, top := 0x7E, spec := 2 }
  | 4 => some { eb := 5, mb := 2, bias := 15, top := 0x7B, spec := 1 }
  | 5 => some { eb := 3, mb := 2, bias := 3, top := 0x1F, spec := 0 }
  | 6 => some { eb := 2, mb := 3, bias := 1, top := 0x1F, spec := 0 }
  | 7 => some { eb := 2, mb := 1, bias := 1, top := 0x7, spec := 0 }
  | _ => none

def fp32 : FpFmt := { eb := 8, mb := 23, bias := 127, top := 0x7F7FFFFF, spec := 1 }
def e4m3 : FpFmt := { eb := 4, mb := 3, bias := 7, top := 0x7E, spec := 2 }

/-- The exponent of the smallest subnormal. -/
def FpFmt.qmin (F : FpFmt) : Int := 1 - (F.bias : Int) - F.mb
/-- The canonical NaN (R199): in the formats with infinities the top bit of the mantissa field, but both bits of E5M2. -/
def FpFmt.nan (F : FpFmt) : Nat := if F.spec = 1 then F.top + 1 + (if F.mb = 2 then 3 else 2 ^ (F.mb - 1)) else F.top + 1
def FpFmt.signBit (F : FpFmt) : Nat := 2 ^ (F.eb + F.mb)

/-- Bits of an integer format or T2, and its range (R197). -/
def intFmt : Nat → Option (Nat × Int × Int)
  | 8 => some (32, -(2 ^ 31), 2 ^ 31 - 1)
  | 9 => some (8, -128, 127)
  | 10 => some (4, -8, 7)
  | 11 => some (3, -4, 3)
  | 12 => some (2, -2, 1)
  | 13 => some (2, -1, 1)
  | _ => none

/-- Container width in bits (R159). -/
def container : Nat → Nat
  | 0 => 32 | 1 => 16 | 2 => 16 | 3 => 8 | 4 => 8 | 5 => 8 | 6 => 8 | 7 => 4
  | 8 => 32 | 9 => 8 | 10 => 4 | 11 => 4 | 12 => 2 | 13 => 2 | 14 => 8 | _ => 8

/-- K of an MMA (R159), and 0 where the format is not permitted (R163). -/
def mmaK : Nat → Nat
  | 1 => 8 | 2 => 8 | 3 => 16 | 4 => 16 | 5 => 16 | 6 => 16 | 7 => 32
  | 9 => 16 | 10 => 32 | 11 => 32 | 12 => 64 | 13 => 64 | _ => 0

/-! ## Exact values -/

/-- A value: a NaN, an infinity, or (−1)^neg × m × 2^e, with a signed zero for m = 0. -/
inductive FV where
  | nan
  | inf (neg : Bool)
  | fin (neg : Bool) (m : Nat) (e : Int)
deriving DecidableEq, Repr

/-- The value of a floating-point code (R196). -/
def FpFmt.value (F : FpFmt) (x : Nat) : FV :=
  let neg := decide (F.signBit ≤ x % (2 * F.signBit))
  let u := x % F.signBit
  if F.spec = 1 && u = F.top + 1 then .inf neg
  else if F.spec != 0 && decide (F.top < u) then .nan
  else
    let e := u / 2 ^ F.mb
    let m := u % 2 ^ F.mb
    if e = 0 then .fin neg m F.qmin else .fin neg (m + 2 ^ F.mb) (F.qmin + e - 1)

/-- The integer of a container (R197, R198). -/
def intOf (fmt x : Nat) : Int :=
  if fmt = 13 then (match x % 4 with
    | 1 => 1
    | 2 => -1
    | _ => 0)
  else match intFmt fmt with
    | some (w, _, _) => if x % 2 ^ w < 2 ^ (w - 1) then ((x % 2 ^ w : Nat) : Int) else ((x % 2 ^ w : Nat) : Int) - 2 ^ w
    | none => 0

/-- The container of an integer of the format (R197, R198): INT3 sign-extended to 4 bits. -/
def intCode (fmt : Nat) (i : Int) : Nat :=
  if fmt = 13 then (if i = 1 then 1 else if i = -1 then 2 else 0) else (i % (2 : Int) ^ container fmt).toNat

/-- The value of an integer, which has no negative zero. -/
def FV.ofInt (i : Int) : FV := .fin (decide (i < 0)) i.natAbs 0

/-- The value of an E8M0 code (R197). -/
def e8m0 (x : Nat) : FV := if x % 256 = 255 then .nan else .fin false 1 ((x % 256 : Nat) - 127)

/-- The value of an element in its container (R195-R198). -/
def elemValue (fmt x : Nat) : FV :=
  match fpFmt fmt with
  | some F => F.value x
  | none => if fmt = 14 then e8m0 x else FV.ofInt (intOf fmt x)

/-- A container as an instruction writes it (R198): FP6 without bits [7:6], INT3 with bit [3] = bit [2], no T2 code 0b11. -/
def fixContainer (fmt x : Nat) : Nat :=
  if fmt = 5 || fmt = 6 then x % 64
  else if fmt = 11 then x % 8 + (if 4 ≤ x % 8 then 8 else 0)
  else if fmt = 13 then (if x % 4 = 3 then 0 else x % 4)
  else x % 2 ^ container fmt

/-! ## Exact arithmetic -/

/-- n × 2^k for an exponent that may be negative, with 2^d in the denominator: numerator and denominator. -/
def scale2 (n : Nat) (e : Int) : Nat × Nat := if 0 ≤ e then (n * 2 ^ e.toNat, 1) else (n, 2 ^ (-e).toNat)

/-- A signed integer at the exponent `q`, which is at or below the value's. -/
def FV.at_ (q : Int) : FV → Int
  | .fin neg m e => let v : Int := (m * 2 ^ (e - q).toNat : Nat); if neg then -v else v
  | _ => 0

def FV.exp : FV → Int
  | .fin _ _ e => e
  | _ => 0

def FV.isNan : FV → Bool
  | .nan => true
  | _ => false
def FV.isInf : FV → Bool
  | .inf _ => true
  | _ => false
def FV.isZero : FV → Bool
  | .fin _ 0 _ => true
  | _ => false
def FV.neg : FV → Bool
  | .inf n => n
  | .fin n _ _ => n
  | .nan => false
def FV.flip : FV → FV
  | .inf n => .inf (!n)
  | .fin n m e => .fin (!n) m e
  | .nan => .nan
def FV.abs : FV → FV
  | .inf _ => .inf false
  | .fin _ m e => .fin false m e
  | .nan => .nan

/-- The exact product (R216): ∞ × 0 is a NaN. -/
def FV.mul : FV → FV → FV
  | .nan, _ => .nan
  | _, .nan => .nan
  | .inf a, y => if y.isZero then .nan else .inf (a != y.neg)
  | x, .inf b => if x.isZero then .nan else .inf (x.neg != b)
  | .fin a m e, .fin b n f => .fin (a != b) (m * n) (e + f)

/-- The smallest exponent of a list of values. -/
def minExp (l : List FV) : Int :=
  match l with
  | [] => 0
  | x :: t => t.foldl (fun q v => min q v.exp) x.exp

/-- The exact sum, with the specials and the sign of zero of R216. -/
def sumExact (l : List FV) : FV :=
  if l.any FV.isNan then .nan
  else if l.any (fun v => v.isInf && v.neg) && l.any (fun v => v.isInf && !v.neg) then .nan
  else match l.find? FV.isInf with
    | some v => v
    | none =>
      let q := minExp l
      let t : Int := l.foldl (fun (s : Int) v => s + v.at_ q) 0
      if t = 0 then .fin (l != [] && l.all (fun v => v.isZero && v.neg)) 0 q else .fin (decide (t < 0)) t.natAbs q

def FV.add (x y : FV) : FV := sumExact [x, y]

/-- Exact comparison of two values that are not NaNs: x < y. Zeros compare equal whatever their sign. -/
def FV.lt : FV → FV → Bool
  | .nan, _ => false
  | _, .nan => false
  | .inf a, .inf b => a && !b
  | .inf a, _ => a
  | _, .inf b => !b
  | x, y => let q := min x.exp y.exp; decide (x.at_ q < y.at_ q)
def FV.eqv : FV → FV → Bool
  | .nan, _ => false
  | _, .nan => false
  | x, y => !x.lt y && !y.lt x

/-! ## Rounding (R203, R208) -/

/-- The rounding modes of R166, with the stochastic draw of R208. -/
inductive Rnd where
  | rne
  | sr (r : Nat)
  | rtz
deriving DecidableEq, Repr

def rndOf (code r : Nat) : Rnd := if code = 0 then .rne else if code = 1 then .sr r else .rtz

/-- ⌊log₂ (n ÷ d)⌋ for n > 0. -/
def log2Ratio (n d : Nat) : Int :=
  let k : Int := (Nat.log2 n : Int) - Nat.log2 d
  let (a, b) := if 0 ≤ k then (n, d * 2 ^ k.toNat) else (n * 2 ^ (-k).toNat, d)
  if a < b then k - 1 else k

/-- Rounds the non-negative n ÷ d to an integer under a mode. -/
def roundQuot (m : Rnd) (n d : Nat) : Nat :=
  let lo := n / d
  let rem := n % d
  if rem = 0 then lo
  else match m with
    | .rtz => lo
    | .rne => if 2 * rem < d then lo else if d < 2 * rem then lo + 1 else lo + lo % 2
    | .sr r => if r < rem * 65536 / d then lo + 1 else lo

/-- Rounds n ÷ d × 2^e to the grid of a format: the magnitude code, which exceeds `top` where the grid element exceeds the
largest finite value (R203 steps 2 and 3). -/
def FpFmt.roundMag (F : FpFmt) (m : Rnd) (n d : Nat) (e : Int) : Nat :=
  if n = 0 then 0
  else
    let q := max (log2Ratio n d + e - F.mb) F.qmin
    let (a, b) := scale2 n (e - q)
    let g := roundQuot m a (d * b)
    (q - F.qmin).toNat * 2 ^ F.mb + g

/-- What a conversion gives (R203, R205): the code, and what it adds to SATC and FLC. -/
structure Conv where
  code  : Nat
  sat   : Bool := false
  flush : Bool := false
deriving DecidableEq, Repr

/-- Converts (−1)^neg × n ÷ d × 2^e into a floating-point format; `nonsat` selects the non-saturating results of R205. -/
def FpFmt.conv (F : FpFmt) (m : Rnd) (nonsat neg : Bool) (n d : Nat) (e : Int) : Conv :=
  let s := if neg then F.signBit else 0
  let g := F.roundMag m n d e
  if F.top < g then
    if nonsat then (if F.spec = 1 then { code := s + F.top + 1 } else { code := F.nan })
    else { code := s + F.top, sat := true }
  else { code := s + g, flush := n != 0 && g == 0 }

/-- The result of an infinity that is not widened (R205). -/
def FpFmt.convInf (F : FpFmt) (nonsat neg : Bool) : Conv :=
  let s := if neg then F.signBit else 0
  if nonsat then (if F.spec = 1 then { code := s + F.top + 1 } else { code := F.nan })
  else { code := s + F.top, sat := true }

/-- The result of a NaN that is not widened (R205): formats without one write 0 and count. -/
def FpFmt.convNan (F : FpFmt) : Conv := if F.spec = 0 then { code := 0, sat := true } else { code := F.nan }

/-- Converts (−1)^neg × n ÷ d × 2^e into an integer format or T2 (R203). -/
def convInt (fmt : Nat) (m : Rnd) (neg : Bool) (n d : Nat) (e : Int) : Conv :=
  match intFmt fmt with
  | none => { code := 0 }
  | some (_, lo, hi) =>
    let (a, b) := scale2 n e
    let g : Int := roundQuot m a (d * b)
    let v := if neg then -g else g
    if hi < v then { code := intCode fmt hi, sat := true }
    else if v < lo then { code := intCode fmt lo, sat := true }
    else { code := intCode fmt v, flush := n != 0 && v == 0 }

/-- Converts a value divided by `num2 × 2^e2` (positive) into a format by the rules for a conversion that is not widening. -/
def convertQ (fmt : Nat) (m : Rnd) (nonsat : Bool) (v : FV) (d : Nat) (e2 : Int) : Conv :=
  match fpFmt fmt, v with
  | some F, .nan => F.convNan
  | some F, .inf n => F.convInf nonsat n
  | some F, .fin neg k e => F.conv m nonsat neg k d (e - e2)
  | none, .nan => { code := 0, sat := true }
  | none, .inf n => match intFmt fmt with
    | some (_, lo, hi) => { code := intCode fmt (if n then lo else hi), sat := true }
    | none => { code := 0 }
  | none, .fin neg k e => convInt fmt m neg k d (e - e2)

/-- Is every value of `src` a value of `dst` (R204)? -/
def widening (src dst : Nat) : Bool :=
  match fpFmt src, fpFmt dst with
  | some S, some D =>
    let q := S.qmin + ((S.top / 2 ^ S.mb : Nat) : Int) - 1
    let qd := D.qmin + ((D.top / 2 ^ D.mb : Nat) : Int) - 1
    let top := FV.fin false (S.top % 2 ^ S.mb + 2 ^ S.mb) q
    let topD := FV.fin false (D.top % 2 ^ D.mb + 2 ^ D.mb) qd
    decide (S.mb ≤ D.mb) && decide (D.qmin ≤ S.qmin) && !topD.lt top
  | none, some D => match intFmt src with
    | some (_, lo, hi) =>
      decide (hi.natAbs < 2 ^ (D.mb + 1))
        && !(FV.fin false (D.top % 2 ^ D.mb + 2 ^ D.mb) (D.qmin + ((D.top / 2 ^ D.mb : Nat) : Int) - 1)).lt
            (.fin false lo.natAbs 0)
    | none => false
  | none, none => match intFmt src, intFmt dst with
    | some (_, lo, hi), some (_, lo2, hi2) => decide (lo2 ≤ lo) && decide (hi ≤ hi2)
    | _, _ => false
  | some _, none => false

/-- One element of CVT (R166, R203-R205). -/
def convert (src dst : Nat) (m : Rnd) (nonsat : Bool) (x : Nat) : Conv :=
  let v := elemValue src x
  if widening src dst then
    match v, fpFmt dst with
    | .nan, some D => { code := D.nan }
    | .inf n, some D => { code := (if n then D.signBit else 0) + D.top + 1 }
    | _, _ => { code := (convertQ dst .rne false v 1 0).code }
  else convertQ dst m nonsat v 1 0

/-! ## FP32 and IEEE results (R219) -/

/-- Rounds a value to a floating-point format by RNE with overflow to an infinity and nothing counted (R216, R219). -/
def FpFmt.ofFV (F : FpFmt) (v : FV) : Nat :=
  match v with
  | .nan => F.nan
  | .inf n => (if n then F.signBit else 0) + F.top + 1
  | .fin neg m e => (F.conv .rne true neg m 1 e).code

def f32 (x : Nat) : FV := fp32.value x
def toF32 (v : FV) : Nat := fp32.ofFV v
def f32Add (x y : Nat) : Nat := toF32 ((f32 x).add (f32 y))
def f32Sub (x y : Nat) : Nat := toF32 ((f32 x).add (f32 y).flip)
def f32Mul (x y : Nat) : Nat := toF32 ((f32 x).mul (f32 y))

/-- Maximum and minimum of two values (R219): a NaN where either is one; max(+0, −0) = +0, min(+0, −0) = −0. -/
def FV.maxv (x y : FV) : FV :=
  if x.isNan || y.isNan then .nan
  else if x.isZero && y.isZero then (if x.neg then y else x)
  else if x.lt y then y else x
def FV.minv (x y : FV) : FV :=
  if x.isNan || y.isNan then .nan
  else if x.isZero && y.isZero then (if x.neg then x else y)
  else if y.lt x then y else x

/-- Elementwise arithmetic of R168 and R219: 0 add, 1 subtract, 2 multiply, 3 maximum, 4 minimum. INT8 saturates. -/
def vecOp (fmt op x y : Nat) : Conv :=
  match fpFmt fmt with
  | some F =>
    let a := F.value x
    let b := F.value y
    { code := F.ofFV (match op with
        | 0 => a.add b
        | 1 => a.add b.flip
        | 2 => a.mul b
        | 3 => a.maxv b
        | _ => a.minv b) }
  | none =>
    let a := intOf fmt x
    let b := intOf fmt y
    let r := match op with
      | 0 => a + b
      | 1 => a - b
      | 2 => a * b
      | 3 => max a b
      | _ => min a b
    if fmt = 9 then
      if 127 < r then { code := intCode 9 127, sat := true }
      else if r < -128 then { code := intCode 9 (-128), sat := true }
      else { code := intCode 9 r }
    else { code := intCode fmt r }

/-- A comparison of R160 and R219: 0 EQ, 1 NE, 2 LT, 3 LE, 4 GT, 5 GE. -/
def vecCmp (fmt op x y : Nat) : Bool :=
  let a := elemValue fmt x
  let b := elemValue fmt y
  match op with
  | 0 => a.eqv b
  | 1 => !a.eqv b
  | 2 => a.lt b
  | 3 => a.lt b || a.eqv b
  | 4 => b.lt a
  | _ => b.lt a || a.eqv b

/-- One step of VRED or AROW on FP32 codes (R168, R219): 0 sum, 1 max, 2 min. -/
def redStep (op x y : Nat) : Nat :=
  match op with
  | 0 => f32Add x y
  | 1 => toF32 ((f32 x).maxv (f32 y))
  | _ => toF32 ((f32 x).minv (f32 y))
/-- A reduction in ascending order. -/
def reduceF32 (op : Nat) : List Nat → Nat
  | [] => 0
  | x :: t => t.foldl (redStep op) x

/-! ## Stochastic rounding (R206, R207) -/

def lfsrStep (s : Nat) : Nat := if s % 2 = 1 then (s / 2) ^^^ 0x80200003 else s / 2
def iterate (f : Nat → Nat) : Nat → Nat → Nat
  | 0, x => x
  | n + 1, x => iterate f n (f x)
/-- A leap: 32 steps. -/
def lfsrLeap (s : Nat) : Nat := iterate lfsrStep 32 s

def seedOf (op blk t : Nat) : Nat :=
  let h := (op % 2 ^ 32) ^^^ (blk % 2 ^ 32) ^^^ (t * 65536 % 2 ^ 32)
  let h := (h ^^^ (h / 2 ^ 16)) * 0x85EBCA6B % 2 ^ 32
  let h := (h ^^^ (h / 2 ^ 13)) * 0xC2B2AE35 % 2 ^ 32
  let h := h ^^^ (h / 2 ^ 16)
  if h = 0 then 1 else h

/-- Converts a list of elements in ascending order (R208): the codes, the LFSR, and what SATC and FLC grow by. -/
def convertList (f : Rnd → Nat → Conv) (mode : Nat) : List Nat → Nat → List Nat × Nat × Nat × Nat
  | [], l => ([], l, 0, 0)
  | x :: t, l =>
    let l1 := if mode = 1 then lfsrLeap l else l
    -- a register that was never seeded holds 0 and rounds towards zero
    let c := f (if mode = 1 && l1 = 0 then .rtz else rndOf mode (l1 / 65536)) x
    let (cs, l2, s, z) := convertList f mode t l1
    (c.code :: cs, l2, s + (if c.sat then 1 else 0), z + (if c.flush then 1 else 0))

/-! ## Block scaling (R200, R201, R210-R214) -/

/-- A divisor D as mantissa and exponent; none where the scale is poisoned (R213). `rowScale` is an FP32 code. -/
def mxScale (fmt c : Nat) : Option (Nat × Int) :=
  if c % 256 = 255 then none else some (1, ((c % 256 : Nat) : Int) - 127 - (if fmt = 9 then 6 else 0))
/-- An E4M3 block scale (R201). -/
def zbBlock (c : Nat) : Option (Nat × Int) :=
  if c % 256 = 0 || 0x7F ≤ c % 256 then none
  else match e4m3.value (c % 256) with
    | .fin _ m e => some (m, e)
    | _ => none
/-- A ZB16 row scale that does not poison (R201). -/
def zbRow (r : Nat) : Option (Nat × Int) :=
  match f32 r with
  | .fin false m e => if m = 0 then none else some (m, e)
  | _ => none
/-- D of R213. -/
def divisor (zb : Bool) (fmt c row : Nat) : Option (Nat × Int) :=
  if !zb then mxScale fmt c
  else match zbBlock c, zbRow row with
    | some (m, e), some (n, f) => some (m * n, e + f)
    | _, _ => none

/-- emax of R211, and the element maximum of R212 times 2; none where the format is not permitted. -/
def emaxOf : Nat → Option Nat
  | 3 => some 8 | 4 => some 15 | 5 => some 4 | 6 => some 2 | 7 => some 2
  | 9 => some 0 | 10 => some 2 | 11 => some 1 | 12 => some 0 | 13 => some 0 | _ => none
def elemMax2 : Nat → Nat
  | 3 => 896 | 4 => 114688 | 5 => 56 | 6 => 15 | 7 => 12
  | 9 => 254 | 10 => 14 | 11 => 6 | 12 => 2 | 13 => 2 | _ => 2

/-- SCALE with IMM[0] = 0 (R211). -/
def scaleMx (fmt a : Nat) : Nat :=
  match f32 a with
  | .fin _ m e =>
    if m = 0 then 0x7F
    else (min 254 (max 0 ((Nat.log2 m : Int) + e - (emaxOf fmt).getD 0 + 127))).toNat
  | _ => 0xFF

/-- SCALE with IMM[0] = 1 (R212): the smallest positive E4M3 value at least q. -/
def scaleZb (fmt a row : Nat) : Nat :=
  match f32 a, zbRow row with
  | .fin _ m e, some (n, f) =>
    if m = 0 then 0x38
    else
      -- q = m 2^e ÷ (n 2^f × M2 ÷ 2)
      let q : Nat × Nat := (2 * m, n * elemMax2 fmt)
      let d := q.2
      let qe := e - f
      match ((List.range 0x7E).map (· + 1)).find? (fun c => match e4m3.value c with
        | .fin _ v ve =>
          -- v 2^ve ≥ q.1 ÷ d × 2^qe
          let x := min ve qe
          decide (q.1 * 2 ^ (qe - x).toNat ≤ v * d * 2 ^ (ve - x).toNat)
        | _ => false) with
      | some c => c
      | none => 0x7E
  | _, _ => 0x7F

/-- VAMAX of FP32-widened values (R210). -/
def amaxOf (vs : List FV) : Nat :=
  if vs.any FV.isNan then 0x7FC00000
  else toF32 (vs.foldl (fun m v => if m.lt v.abs then v.abs else m) (.fin false 0 0))

/-- One element of CVTQ (R213). -/
def cvtqElem (fmt : Nat) (d : Option (Nat × Int)) (m : Rnd) (x : Nat) : Conv :=
  match d with
  | none => match fpFmt fmt with
    | some F => if F.spec = 0 then { code := 0, sat := true } else { code := F.nan, sat := true }
    | none => { code := 0, sat := true }
  | some (n, e) => convertQ fmt m false (f32 x) n e

/-- One element of DEQ (R214). -/
def deqElem (fmt : Nat) (d : Option (Nat × Int)) (x : Nat) : Conv :=
  match d with
  | none => { code := fp32.nan }
  | some (n, e) => match elemValue fmt x with
    | .nan => { code := fp32.nan }
    | .inf s => { code := (if s then fp32.signBit else 0) + fp32.top + 1 }
    | .fin s k f => fp32.conv .rne false s (k * n) 1 (f + e)

/-! ## 2^x (R220) -/

/-- ⌊ln 2 × 2^192⌋. -/
def ln2Fix : Nat := 4350955369971217654477563090224794165364344896676135745069

/-- Σ yᵏ ÷ k! with y in units of 2^−192; `t` is the running term. -/
def expSum (y : Nat) : Nat → Nat → Nat → Nat → Nat
  | 0, _, _, s => s
  | n + 1, k, t, s => let t1 := t * y / (2 ^ 192 * k); expSum y n (k + 1) t1 (s + t1)

/-- 2^x on an FP32 code, by a 192-bit series whose error is below 2^−180 (R220; no result lies that near a midpoint: DEDUCED,
log 13). 2^−150 lies midway between +0 and the smallest subnormal, and which of the two it becomes is a free value (log 43). -/
def exp2F32 (x : Nat) : Nat :=
  if x = 0xC3160000 then (if Config.exp2Tie then 1 else 0) else match f32 x with
  | .nan => fp32.nan
  | .inf n => if n then 0 else fp32.top + 1
  | .fin neg m e =>
    let v := FV.fin neg m e
    if m = 0 then 0x3F800000
    else if v.abs.lt (.fin false 1 (-26)) then 0x3F800000
    else if !v.lt (.fin false 128 0) then fp32.top + 1
    else if v.lt (.fin true 160 0) then 0
    else
      -- x = k + f with f in units of 2^−52
      let t := v.at_ (-149) / 2 ^ 97
      let k := t / 2 ^ 52
      let f := (t % 2 ^ 52).toNat
      let y := f * ln2Fix / 2 ^ 52
      toF32 (.fin false (if f = 0 then 2 ^ 192 else expSum y 60 1 (2 ^ 192) (2 ^ 192)) (k - 192))

/-! ## MMA (R163, R164, R216, R217) -/

/-- The exact value of one FP32-accumulated element: old plus the scaled products, in one rounding (R216). Products of
integers have no negative zero (DEDUCED, log 13). -/
def mmaTerms (fmt : Nat) (old : FV) (a b : List Nat) (sa sb : Nat → FV) (block : Nat) : List FV :=
  let prod : Nat × Nat × Nat → FV := fun x =>
    let k := x.1
    let p := ((elemValue fmt x.2.1).mul (sa (k / block))).mul ((elemValue fmt x.2.2).mul (sb (k / block)))
    match p with
    | .fin _ 0 e => if (fpFmt fmt).isNone then .fin false 0 e else p
    | _ => p
  old :: ((List.range a.length).zip (a.zip b)).map prod

/-- The residue check of R222 on the exact sum: N mod 3 from the adder against N mod 3 from the operands. -/
def mod3 (i : Int) : Nat := (i % 3).toNat
def residueOk (l : List FV) : Bool :=
  if l.any (fun v => v.isNan || v.isInf) then true
  else
    let q := minExp l
    let n : Int := l.foldl (fun (s : Int) v => s + v.at_ q) 0
    let rho := l.foldl (fun r v =>
      (r + mod3 (v.at_ v.exp) * (if (v.exp - q) % 2 = 0 then 1 else 2)) % 3) 0
    mod3 n == rho

/-- r₁₁ of R224: 11 significant bits by RNE, any exponent. -/
def r11 : FV → FV
  | .fin neg m e =>
    if m < 2048 then .fin neg m e
    else
      let k := Nat.log2 m - 10
      .fin neg (roundQuot .rne m (2 ^ k)) (e + k)
  | v => v

/-- The shadow comparison of R224 for an FP32 element without special inputs: does it pass? -/
def shadowOk (old : FV) (prods : List FV) (result : Nat) : Bool :=
  match f32 result with
  | .fin _ _ _ =>
    let r := f32 result
    let ps := prods.map r11
    let acc := ps.foldl (fun a p => r11 (a.add p)) (.fin false 0 0)
    let z := sumExact (ps.map FV.abs)
    let diff := (sumExact [r, old.flip, acc.flip]).abs
    let tol := sumExact [z.mul (.fin false 1 (-4)), r.abs.mul (.fin false 1 (-23)), .fin false 1 (-149)]
    !tol.lt diff
  | _ => true

end Sys2Proof.Machine
end

