-- ==== Sys2Proof/Machine/Tab.lean ====
section
/-! DEFINITION. Sparse tables. A table of the part (registers of many instances, directories, memory) is a list of
(index, entry) pairs with strictly rising indices in which no entry equals what an unlisted index reads as; so equal
tables are equal lists. Memory is such a table of bytes. -/
namespace Sys2Proof.Machine

/-- A sparse table; what an unlisted index reads as is the argument `d` of the operations. -/
abbrev Tab (α : Type) := List (Nat × α)

/-- The entry at index `k`, or `d` where none is listed. -/
def tabGet {α : Type} (d : α) : Tab α → Nat → α
  | [], _ => d
  | (i, v) :: t, k => if i = k then v else tabGet d t k

/-- Puts `v` at index `k` of the list form, whatever `v` is. -/
def tabIns {α : Type} : Tab α → Nat → α → Tab α
  | [], k, v => [(k, v)]
  | (i, w) :: t, k, v =>
    if k < i then (k, v) :: (i, w) :: t
    else if i = k then (k, v) :: t
    else (i, w) :: tabIns t k v

/-- Removes index `k` of the list form. -/
def tabDel {α : Type} : Tab α → Nat → Tab α
  | [], _ => []
  | (i, w) :: t, k => if i = k then tabDel t k else (i, w) :: tabDel t k

/-- Writes `v` at index `k`, keeping the canonical form. -/
def tabSet {α : Type} [DecidableEq α] (d : α) (t : Tab α) (k : Nat) (v : α) : Tab α :=
  if v = d then tabDel t k else tabIns t k v

/-- Every index of the table is above `k`. -/
def tabAbove {α : Type} (k : Nat) (t : Tab α) : Bool := t.all fun e => decide (k < e.1)

/-- The canonical form: strictly rising indices, and no entry equal to `d`. -/
def tabWf {α : Type} [DecidableEq α] (d : α) : Tab α → Bool
  | [] => true
  | (i, v) :: t => decide (v ≠ d) && tabAbove i t && tabWf d t

/-- A table with option entries: what is listed is present. -/
def tabFind {α : Type} : Tab α → Nat → Option α
  | [], _ => none
  | (i, v) :: t, k => if i = k then some v else tabFind t k

/-- The lowest index at or above `k` that the table does not list, where it lists nothing below `k`. -/
def tabGap {α : Type} : Tab α → Nat → Nat
  | [], k => k
  | (i, _) :: t, k => if i = k then tabGap t (k + 1) else k

/-- Applies `f` to every listed entry. -/
def tabMap {α : Type} (f : Nat → α → α) (t : Tab α) : Tab α := t.map fun e => (e.1, f e.1 e.2)

/-- Applies `f` to every listed entry, keeping the canonical form. -/
def tabMapD {α : Type} [DecidableEq α] (d : α) (f : Nat → α → α) (t : Tab α) : Tab α :=
  (tabMap f t).filter fun e => e.2 != d

/-- Memory: bytes by address (Host.Cell). -/
abbrev Memory := List Host.Cell

/-- What a byte that nothing has written reads as: 0. DESIGN CHOICE (log 2), unsafe: R123 leaves the value open. -/
def memDefault : BitVec 8 := 0

/-- One byte of memory. -/
def memByte (m : Memory) (a : Nat) : BitVec 8 := tabGet memDefault m a

/-- Writes one byte of memory. -/
def memPut (m : Memory) (a : Nat) (b : BitVec 8) : Memory := tabSet memDefault m a b

/-- Writes consecutive bytes from address `a`. -/
def memPutL (m : Memory) (a : Nat) : List (BitVec 8) → Memory
  | [] => m
  | b :: bs => memPutL (memPut m a b) (a + 1) bs

/-- Reads `n` consecutive bytes from address `a`. -/
def memGetL (m : Memory) (a : Nat) : Nat → List (BitVec 8)
  | 0 => []
  | n + 1 => memByte m a :: memGetL m (a + 1) n

/-- The canonical form of memory. -/
def Memory.wf (m : Memory) : Bool := tabWf memDefault m

end Sys2Proof.Machine
end

