-- ==== Sys2Proof/Machine/State.lean ====
section
/-! DEFINITION. The state of the part, as plain data, chapter by chapter; `State.reset` is the part at the effective
release of RESET_N after a power-up (R506): every unit at the reset value its chapter gives, boot stage ROM (R453),
tenant state SCRUBBING (R111). Where the manual gives no reset value the value is DESIGN CHOICE (log 3), unsafe.
Numbers are `Nat` where the manual counts, bit vectors where it has bits. -/
namespace Sys2Proof.Machine

/-- Why the machine stops with a fault. -/
inductive Fault where
  /-- Raised by a row whose operand names an instance outside R12 or the register map (ring 2000, port 20): the manual has
  no such instance, so no such event occurs. Safe. -/
  | noInstance
  /-- Raised by RESYNCHRONISATION_DATA whose PPA is not backed memory (R20): the address does not exist. Safe. -/
  | unbacked
deriving DecidableEq, Repr

/-- Why the machine refuses a row. -/
inductive Refusal where
  /-- Raised by no meaning: the arms of `exec` that have no meaning yet. Safe. -/
  | notModelled (mnemonic : String)
deriving DecidableEq, Repr

/-! ## Installation, pins, boot (R1, R451-R453, R493-R494, R499-R510) -/

/-- What differs from part to part and sled to sled: fuses and identity (R1, R107, R450, R493). -/
structure Fuses where
  hb        : Bool := false
  extended  : Bool := false
  deviceId  : W64 := 0
  opKeyHash : List Byte := []
  fwKeyHash : List Byte := []
  minSvn    : Nat := 0
deriving DecidableEq, Repr

/-- The pins of R499 and the strap inputs; `alive` is the level of ALIVE, `intN` that INT_N is driven low. -/
structure Pins where
  vddSaf     : Bool := true
  pwrgd      : Bool := true
  resetN     : Bool := true
  perstN     : Bool := true
  alive      : Bool := false
  intN       : Bool := false
  thermtripN : Bool := true
  resetLowAt : Nat := 0
  pwrgdLowAt : Nat := 0
  pwrgdHighAt : Nat := 0
deriving DecidableEq, Repr

/-- Device reset, boot and the GLB_ fields (R453, R493): `stage` is `GLB_BOOT_STATUS.STATE`. -/
structure Boot where
  inReset     : Bool := false
  releasePend : Bool := false
  stage       : Nat := 0
  detail      : Nat := 0
  slot        : Nat := 0
  strapsValid : Bool := false
  skimDpc     : Bool := false
  pairRole    : Nat := 0
  bootSel     : Nat := 0
  samples     : List (BitVec 5) := []
  capSel      : Nat := 0
  served      : Bool := false
  stageAt     : Nat := 0
deriving DecidableEq, Repr

/-- The SAF_ registers and the SMBus status byte (R494, R508): they hold across RESET_N. -/
structure Saf where
  chAgree   : BitVec 3 := 7
  resetHeld : Bool := false
  unstable  : Bool := false
  sample0   : BitVec 5 := 0
  sample1   : BitVec 5 := 0
  sample2   : BitVec 5 := 0
  tripped   : Bool := false
  tripSensor : Nat := 0
  statusByte : Byte := 0
deriving DecidableEq, Repr

/-- The latches of 64-bit register pairs, by function (R488): index is function × 2^20 + pair number. -/
structure Latches where
  hi : Tab W32 := []
deriving DecidableEq, Repr

/-- The INT_ leaves, mask and MSI-X configuration (R492); group bits are views. -/
structure Intr where
  mask     : W32 := 0x3FF
  msixEn   : Bool := false
  vec      : Nat := 0
  fault    : BitVec 5 := 0
  cohDown  : BitVec 64 := 0
  link     : W32 := 0
  pair     : BitVec 6 := 0
  pwr      : BitVec 4 := 0
  tenant   : BitVec 3 := 0
  wasZero  : Bool := true
deriving DecidableEq, Repr

/-! ## Commands, rings and replies (R36-R77) -/

/-- A ring's register block (R74), the progress of a disable (R75), and the doorbells that are not fetched to their end: tail and moment
(R64). -/
structure Ring where
  sqBase   : W64 := 0
  rqBase   : W64 := 0
  outMax   : Nat := 0
  prioMax  : Nat := 2
  rqLog2   : Nat := 0
  sqLog2   : Nat := 0
  en       : Bool := false
  disabling : Bool := false
  sqTail   : Nat := 0
  sqHead   : Nat := 0
  rqTail   : Nat := 0
  rqHead   : Nat := 0
  phase    : Bool := true
  stopped  : Bool := false
  writeErr : Bool := false
  fetchErr : Bool := false
  cfgErr   : Bool := false
  ident    : Nat := 0
  vecEn    : Bool := false
  vec      : Nat := 0
  full     : Bool := false
  bells    : List (Nat × Nat) := []
deriving DecidableEq, Repr

/-- A retry token (R63): its value, the moment it stops being valid and the reserved slot. -/
structure Token where
  value  : W16
  expiry : Nat
  slot   : Bool
deriving DecidableEq, Repr

/-- What the part holds for one command channel beside the ring registers: QoS settings (R147), the last CREDIT sent (R50),
the near-memory halt (R236) and the live retry tokens. -/
structure ChanSt where
  prioMax   : Nat := 2
  creditMax : Nat := 16
  lastCredit : Option Nat := none
  halted    : Bool := false
  haltCount : Nat := 0
  tokens    : List Token := []
deriving DecidableEq, Repr

/-- Where a command of the store stands. -/
inductive CmdSt where
  /-- Accepted; wait list or FENCE not satisfied (R43). -/
  | held
  /-- Ready; starts by the scheduling rules (R60, R518). -/
  | ready
  /-- A hardware opcode queued at its memory stop (R138). -/
  | queued
  | running
  | preempted
  | suspended
  | resuming
  /-- Held on a unit in the fault state (R427). -/
  | heldUnit
  /-- A cancellation is pending: it stops at the next granule boundary (R70). -/
  | stopping
  /-- Its effects are done; only its final reply is outstanding (closing handles, moves, gates). -/
  | finishing
deriving DecidableEq, Repr

/-- A command of the command store (R38): the packet, what entry found, and its progress record (R68). `told` is that its ACCEPTED
reply was written (R52, R76). `color` is that of the
last charged item (R145): 0 none, 1 green or a reserved granule, 2 yellow, 3 red, 4 a galley's reserved ingest (R280). `opState` is what the
chapter of the opcode keeps: of a run the granule it was restarted from (R157). `points` are the class queues it has used (R145), and `stuck`
that its next granule waits for a gate or a window and not for its turn at a memory stop. -/
structure Cmd where
  chan     : Chan
  raw      : W512
  txn      : Nat := 0
  data     : List Byte := []
  desc     : List Byte := []
  host     : Nat := 0
  prio     : Nat := 2
  clamped  : Bool := false
  told     : Bool := false
  st       : CmdSt := .held
  started  : Bool := false
  seq      : Nat := 0
  visible  : Nat := 0
  accepted : Nat := 0
  startedAt : Nat := 0
  progress : Nat := 0
  total    : Nat := 0
  sat      : Nat := 0
  opState  : Nat := 0
  rAdm     : Nat := 0
  idle     : Nat := 0
  size     : Nat := 0
  loads    : List (Nat × Nat) := []
  disputed : Bool := false
  count    : Nat := 0
  flushed  : Nat := 0
  poisoned : Option Nat := none
  color    : Nat := 0
  cancelBy : Option Nat := none
  mirSeq   : Nat := 0
  mirInt   : Nat := 0
  points   : List Nat := []
  stuck    : Bool := false
  aux      : List Nat := []
deriving DecidableEq, Repr

/-- A refusal whose reply is issued after the fixed delay (R119): `key` is the slot of a command that was refused late, and `ord` the
number of the last command stored before it. -/
structure Refused where
  chan   : Chan
  raw    : W512
  txn    : Nat
  due    : Nat
  host   : Nat
  cause  : Nat
  access : BitVec 3
  addr   : Nat
  prio   : Nat
  clamped : Bool
  prog   : Nat := 0
  key    : Option Nat := none
  seq    : Nat := 0
  ord    : Nat := 0
deriving DecidableEq, Repr

/-- The command store, the channels and the delayed refusals. -/
structure Store where
  cmds    : Tab Cmd := []
  seq     : Nat := 0
  chans   : Tab ChanSt := []
  refusals : List Refused := []
deriving DecidableEq, Repr

/-- How a message reached SEC, and so how its answer goes (R112, R127): outside a session, in a session, or as SPDM on a transport. -/
inductive Framing where
  | plain
  | session (i : Nat)
  | transport (p : SpdmPath)
deriving DecidableEq, Repr

/-- What the part sends outwards other than packets and memory writes, in the order sent. -/
inductive Out where
  /-- An MSI-X message of a function: 0 the physical function, `n` virtual function VFn (R76, R483). -/
  | msix (fn vec : Nat)
  /-- A response of SEC to a tenant request (code < 0x80) or an SPDM message (R112, R127), in the framing of the request: request,
  response code, body. -/
  | sec (via : Framing) (request code : Nat) (body : List Byte)
  /-- A flit sent on a port (R312). -/
  | flit (port : Nat) (bytes : List Byte)
  /-- A training message sent on every lane of a port (R347). -/
  | train (port : Nat) (msg : BitVec 128)
  /-- A Coleth message to the host: on the mailbox, or on the sideband (R457). -/
  | coleth (sideband : Bool) (bytes : List Byte)
  /-- The SMBus byte (R508). -/
  | smbus (b : Byte)
  /-- A register word returned by a read row, to the function that read it (R488). -/
  | readWord (fn addr : Nat) (value : W32)
deriving DecidableEq, Repr

/-! ## Ranges and translation (R78-R105) -/

/-- A directory entry (R83). -/
structure RangeE where
  iaStart   : Nat
  lenG      : Nat
  ceil      : BitVec 3
  stream    : Bool := false
  pin       : Bool := false
  migrating : Bool := false
  gated     : Bool := false
  ppa       : Nat
deriving DecidableEq, Repr

/-- A range-cache entry (R87, R91): the span it covers, in requester addresses of its host. -/
structure RcE where
  host   : Nat
  start  : Nat
  len    : Nat
  ppa    : Nat
  rights : BitVec 3
  rid    : Nat
  pinned : Bool
deriving DecidableEq, Repr

/-- A translation fault that has not ended (R99-R101). -/
structure XFault where
  id      : W32
  key     : Nat
  tile    : Option (Nat × Bool) := none
  ga      : Nat
  host    : Nat
  owner   : Nat
  kind    : Nat
  access  : BitVec 3
  expiry  : Nat
  written : Bool := false
  slotIA  : Nat := 0
deriving DecidableEq, Repr

/-- A slice's counters and flags (R105). -/
structure RcCnt where
  hit     : Nat := 0
  miss    : Nat := 0
  hitOvf  : Bool := false
  missOvf : Bool := false
deriving DecidableEq, Repr

structure Xlt where
  escalateMs : Nat := 10
  epoch      : W32 := 0
  faults     : Nat := 0
  escalated  : Nat := 0
  dirA       : Tab RangeE := []
  dirS       : Tab RangeE := []
  caches     : Tab (List RcE) := []
  counts     : Tab RcCnt := []
  lastFid    : W32 := 0
  pending    : List XFault := []
  /-- Slots of the fault queues whose FAULT_ID is to become 0 as soon as their granule or line can be written (R100). -/
  zeros      : List Nat := []
deriving DecidableEq, Repr

/-! ## Tenancy (R106-R132) -/

/-- A host identity entry (R113). -/
structure HostE where
  valid   : Bool := true
  s1En    : Bool := false
  admin   : Bool := false
  path    : Nat := 0
  bindSet : Nat := 0
  s1Owner : Nat := 0
  meter   : Nat := 0
  fqLog2  : Nat := 0
  s1Table : Nat := 0
  s1Count : Nat := 0
  fqSync  : Nat := 0
  fq      : Nat := 0
deriving DecidableEq, Repr

/-- A grant of the isolation table (R115), at its slot of its bucket. -/
structure Grant where
  host   : Nat
  rid    : Nat
  rights : BitVec 3
deriving DecidableEq, Repr

/-- A record of the administrator log (R121). -/
structure LogRec where
  time    : Nat
  host    : Nat
  cause   : Nat
  access  : BitVec 3
  src     : W32
  tag     : W32
  opcode  : W16
  dropped : Nat
  addr    : Nat
  seen    : Bool := false
deriving DecidableEq, Repr

/-- A loaded binding set (R124). -/
structure BindSet where
  key     : List Byte
  members : List Member
  cpuHost : Bool
deriving DecidableEq, Repr

/-- An SPDM session (R127); `serial` tells it from those before it of the same number. -/
structure Session where
  serial      : Nat := 0
  established : Bool := false
  mutualKey   : Option (List Byte) := none
  keyGen      : Nat := 0
deriving DecidableEq, Repr

/-- A running WEIGHT_UNWRAP (R126): destination range and the next chunk. -/
structure Unwrap where
  rid    : Nat
  dstPpa : Nat
  setId  : Nat
  length : Nat
  next   : Nat
  src    : Nat
  host   : Nat
  header : List Byte
  via    : Framing := .plain
deriving DecidableEq, Repr

structure Iso where
  tenant    : Nat := 3
  epoch     : W32 := 0
  pendingP  : Byte := 0xFF
  permille  : Nat := 0
  tenantId  : W64 := 0
  adminKey  : List Byte := []
  ownerHash : List Byte := []
  claims    : Nat := 0
  keyGen    : Nat := 0
  keys      : Bool := false
  hostsA    : Tab HostE := []
  hostsS    : Tab HostE := []
  grantsA   : Tab Grant := []
  grantsS   : Tab Grant := []
  log       : List LogRec := []
  logNext   : W32 := 0
  dropped   : Nat := 0
  bindSets  : Tab BindSet := []
  bound     : Tab Nat := []
  unwrap    : Option Unwrap := none
  zeroOnReturn : List Nat := []
  sessions  : Tab Session := []
  spdm      : Tab Nat := []
  tdisp     : Tab Nat := []
  linkIde   : Bool := false
  streams   : List Nat := []
  sessNo    : Nat := 0
  sealKey   : Tab (Nat × Nat) := []
  sealIn    : Tab Nat := []
  sealOut   : Tab Nat := []
  scrubAt   : Nat := 0
  offlineScrub : List Nat := []
  scrubLeft : Tab Nat := []
  scrubParts : List Nat := []
  vfHost    : Tab Nat := []
deriving DecidableEq, Repr

/-! ## Traffic (R133-R152) -/

/-- A meter (R135, R136): rates in MB/s, bursts in KiB; the buckets hold thousandths of a byte. -/
structure Meter where
  unmetered : Bool := true
  cir : Nat := 16777215
  pir : Nat := 16777215
  cbs : Nat := 1048576
  pbs : Nat := 1048576
  tc  : Nat := 1073741824000
  tp  : Nat := 1073741824000
  last : Nat := 0
  red  : Nat := 0
  yellow : Nat := 0
deriving DecidableEq, Repr

/-- A request queued at a subchannel or pseudo-channel (R381, R382); `stream` is the host of a read of a STREAM range (R134). -/
structure ChReq where
  line  : Nat
  write : Bool
  at_   : Nat
  rt    : Option Nat := none
  tc5   : Bool := false
  ppa   : Nat
  tile  : Option (Nat × Bool × Nat) := none
  bytes : Option W512 := none
  stream : Option Nat := none
  ahead : Bool := false
deriving DecidableEq, Repr

/-- What an item at a memory stop is (R138): a hardware opcode in its store slot, the lines of a stream DMA burst, or a coherent request
with its code (0 for a write-back). -/
inductive QWork where
  | cmd (key : Nat)
  | burst (tile : Nat) (lines : List ChReq)
  | coh (code : Nat) (m : CohMsg)
deriving DecidableEq, Repr

/-- An item at a scheduling point (R140-R143): `color` 0 reserved, 1 green, 2 yellow. -/
structure QItem where
  tc    : Nat
  color : Nat
  bytes : Nat
  f     : W64
  since : Nat
  work  : QWork
  tag   : W32
  src   : W32
  elig  : Nat
deriving DecidableEq, Repr

/-- A scheduling point (R141-R143): the items in arrival order, the two WFQ instances and the caps of TC7 and TC6. -/
structure Point where
  items  : List QItem := []
  vG     : W64 := 0
  fG     : List W64 := [0, 0, 0, 0, 0, 0]
  vY     : W64 := 0
  fY     : List W64 := [0, 0, 0, 0, 0, 0]
  cap7   : Nat := 4096000
  cap6   : Nat := 4096000
  capAt  : Nat := 0
  resTok : Nat := 16384000
deriving DecidableEq, Repr

/-- Meters, weights, scheduling points and histograms (R135-R152). `used` are the memory stops that the access under way has used (R145), and
`ticks` counts the sampling instants of device time that have passed (R149). -/
structure Qos where
  histEn    : Bool := true
  sel       : Nat := 0
  snapValid : Bool := false
  snapBusy  : Bool := false
  snapDepth : List Nat := []
  snapDelay : List Nat := []
  weights   : List Nat := [1, 2, 4, 8, 16]
  samples   : Nat := 0
  red       : Nat := 0
  withdrawn : Nat := 0
  meters    : Tab Meter := []
  bins      : Tab Nat := []
  live      : Tab (Nat × Nat) := []
  points    : Tab Point := []
  streamBuf : Tab (List Nat) := []
  used      : List Nat := []
  ticks     : Nat := 0
deriving DecidableEq, Repr

/-! ## Churn tiles (R153-R194) -/

/-- A queued stream DMA transfer (R169, R170): where its next burst starts. -/
structure Xfer where
  load  : Bool
  ra    : Nat
  sa    : Nat
  stride : Nat
  rows  : Nat
  lines : Nat
  row   : Nat := 0
  line  : Nat := 0
deriving DecidableEq, Repr

/-- A stream DMA engine (R153, R170-R173); `wait` counts its lines at the memory controllers. -/
structure Engine where
  queue  : List Xfer := []
  halted : Bool := false
  held   : Bool := false
  stopped : Bool := false
  poison : Bool := false
  wait   : Nat := 0
deriving DecidableEq, Repr

/-- What a tile is doing. -/
inductive TileSt where
  | idle
  | running
  | inDwait (e : Bool) (n : Nat)
  | inSwait (slot mode : Nat) (since : Nat)
  | inHalt
  | inGran
  | halted
  | stopped
  | trapped (cause : Nat) (code pc : Nat)
deriving DecidableEq, Repr

/-- A churn tile (R153, R156): the register files, LFSR and counters, its memories and engines, and its run. `scratchErr` and `imemErr`
are the bits in which a word of its memories, check bits included, departs from its codeword (R370; log 42), and `rewrite` that its code is
to be written again (R193). `cycles` and `work` count thousandths of a tile cycle up to `startAt`: of the run, and without SWAIT and
suspension (R157, R188). -/
structure Tile where
  a     : Tab W512 := []
  v     : Tab W512 := []
  s     : Tab W64 := []
  l     : Tab W32 := []
  pc    : Nat := 0
  lfsr  : W32 := 0
  satc  : Nat := 0
  flc   : Nat := 0
  imem  : Tab W64 := []
  scratch : Memory := []
  scratchPoison : List Nat := []
  scratchErr : Tab (BitVec 72) := []
  imemErr : Tab (BitVec 72) := []
  rewrite : Bool := false
  e0    : Engine := {}
  e1    : Engine := {}
  mmas  : W32 := 0
  st    : TileSt := .idle
  run   : Option Nat := none
  logical : Nat := 0
  codeAt  : Nat := 0
  scrAt   : Nat := 0
  cycles  : Nat := 0
  work    : Nat := 0
  startAt : Nat := 0
  grans   : Nat := 0
  stopReq : Bool := false
  offline : Bool := false
  slots   : List (Nat × Nat × Nat × Nat × Nat) := []
deriving DecidableEq, Repr

/-- A loaded program (R181-R192). -/
structure Prog where
  host    : Nat
  image   : List Byte
  codeN   : Nat
  scrKib  : Nat
  initLen : Nat
  syncN   : Nat
  maxCyc  : Nat
  restart : Bool
  tiles   : List Nat
  state   : Nat := 1
  unload  : Option Nat := none
deriving DecidableEq, Repr

/-- The CLU_ counters of a cluster (R194). -/
structure Clu where
  runs  : Nat := 0
  traps : Nat := 0
  ceScr : Nat := 0
  ceIm  : Nat := 0
  macs  : Nat := 0
  ovf   : BitVec 5 := 0
deriving DecidableEq, Repr

structure Churn where
  tiles : Tab Tile := []
  progs : Tab Prog := []
  clus  : Tab Clu := []
deriving DecidableEq, Repr

/-! ## Sync objects and reductions (R227-R252) -/

structure SyncObj where
  valid   : Bool := false
  owner   : Nat := 0
  oWait   : Bool := false
  oSig    : Bool := false
  err     : Bool := false
  sat     : Bool := false
  errCnt  : Nat := 0
  count   : W64 := 0
  thr     : W32 := 0
deriving DecidableEq, Repr

/-- An update on its way to an object (R229, R230). -/
inductive SyncUpd where
  | config (src tag : W32) (owner : Nat) (oWait oSig : Bool) (count : W64) (thr : W32)
  | set (src tag : W32) (clearErr setThr : Bool) (v : W64) (thr : W32)
  | add (src tag : W32) (v : W64)
  | signal (v : W64)
  | error
  | release
deriving DecidableEq, Repr

structure Sync where
  objs     : Tab SyncObj := []
  inFlight : List (Nat × SyncUpd) := []
  errEvents : Nat := 0
  errOvf   : Bool := false
deriving DecidableEq, Repr

/-- A reduction slot (R243-R251). -/
structure Slot where
  host : Nat
  n : Nat
  ntiles : Nat
  l : Nat
  fmt : Nat
  scm : Nat
  ofmt : Nat
  sr : Bool
  ufNum : Nat
  outRes : Bool
  cres : Bool
  seed : W32
  mul : W32
  arrive : Nat
  limitMs : Nat
  dep : Nat
  out : Nat
  res : Nat
  cresBase : Nat
  tiles : List Nat
  k : Nat := 0
  marked : List Nat := []
  running : Bool := false
  firstAt : Nat := 0
  closing : Option Nat := none
  /-- What the granules of the running step have given so far (R247, R248): the scales of OUT, and the counts of its RESULT. -/
  scales : List Byte := []
  poisoned : Nat := 0
  under : Nat := 0
  sat : Nat := 0
deriving DecidableEq, Repr

/-- An open KV pool (R253, R255). -/
structure Pool where
  host : Nat
  layers : Nat
  hkv : Nat
  d : Nat
  kfmt : Nat
  vfmt : Nat
  pages : Nat
  dinv : W32
  pageBase : Nat
  digBase : Nat
  sclBase : Nat
  closing : Option Nat := none
deriving DecidableEq, Repr

/-- An open galley (R275-R291): its regions; the committed checkpoint and how many chunks it and the one before it use; the
extents of GAL and its chunks by partition; and of a running lock-up (slot `lock` of the store) the proof of the committed
checkpoint as read, and the leaves and store slots so far. `elig` paces the reserved writes of each partition (R280). -/
structure Galley where
  host : Nat
  chunks : Nat
  slots : Nat
  rIng : Nat
  gal : Nat
  store : Nat
  proof : Nat
  head : Nat
  state : Nat := 1
  used : Nat := 0
  ckpt : Nat := 0
  usedC : Nat := 0
  usedP : Nat := 0
  prevGone : Bool := true
  ext : List (Nat × Nat) := []
  elig : Tab Nat := []
  lock : Option Nat := none
  prev : Option (List (List Byte) × List Nat) := none
  leaves : List (List Byte) := []
  table : List Nat := []
  changed : Nat := 0
  closing : Option Nat := none
deriving DecidableEq, Repr

/-- The work engines of SCH: reduction slots, KV pools, galleys, and remote reads of PREFETCH (R341). -/
structure Work where
  slots : Tab Slot := []
  pools : Tab Pool := []
  gals  : Tab Galley := []
  rrds  : Tab (Nat × Nat × Nat) := []
  rrdTxn : Nat := 0
  remote : Tab (List Byte) := []
deriving DecidableEq, Repr

/-! ## Coherent windows (R293-R311) -/

/-- An outstanding snoop: agent, whether it invalidates, when it was sent. -/
structure Snoop where
  agent : Nat
  inv   : Bool
  at_   : Nat
deriving DecidableEq, Repr

/-- The open transaction of a line (R298): requester, request code, and the snoops awaited. -/
structure Trans where
  agent : Nat
  code  : Nat
  txn   : Nat
  snoops : List Snoop
  acked : List Nat := []
deriving DecidableEq, Repr

/-- A retry token of a window (R302). -/
structure CohTok where
  value : Nat
  agent : Nat
  line  : Nat
  expiry : Nat
deriving DecidableEq, Repr

/-- A request that carries a valid token and waits for its place in the line's order (R302). -/
structure CohWait where
  token : Nat
  code  : Nat
  agent : Nat
  line  : Nat
  txn   : Nat
deriving DecidableEq, Repr

/-- A coherent window (R293, R311): `trans` by line, where code 0 is the invalidation of a close; `discards` are the snoop
answers that R300 discards, as (line, agent). -/
structure Window where
  host   : Nat := 0
  base   : Nat := 0
  /-- The span in physical addresses: extents of PPA and bytes, one after another. -/
  ext    : List (Nat × Nat) := []
  len    : Nat := 0
  dirRa  : Nat := 0
  /-- The directory in physical addresses. -/
  dirExt : List (Nat × Nat) := []
  agents : List Nat := []
  snoopUs : Nat := 100
  state  : Nat := 0
  cause  : Nat := 0
  trans  : Tab Trans := []
  tokens : List CohTok := []
  waits  : List CohWait := []
  closeKey : Option Nat := none
  wrote  : Nat := 0
  discards : List (Nat × Nat) := []
  reqs   : Nat := 0
  retries : Nat := 0
  snoops : Nat := 0
  ovf    : Bool := false
deriving DecidableEq, Repr

structure Coh where
  wins : Tab Window := []
  downEvents : Nat := 0
deriving DecidableEq, Repr

/-! ## Links and lanes (R312-R358) -/

/-- A packet waiting to be sent: credit type (R322), destination rank, PTYPE, traffic class, TXN, and the bytes after the
header (R333); the header is made when its first flit leaves. `port` names the port of a mirror packet (R403); `f` and
`since` are its finish time and the moment it was queued (R143, R149); `epkt` and `again` belong to a packet that is sent again
(R331), and `held` to one that waits for a drain (R343). -/
structure Pkt where
  ty   : Nat
  rank : Nat
  ptype : Nat
  tc   : Nat
  txn  : Nat
  body : List Byte
  port : Option Nat := none
  f    : W64 := 0
  since : Nat := 0
  epkt : Option Nat := none
  again : Bool := false
  held : Bool := false
deriving DecidableEq, Repr

/-- A DATA flit of the transmitter before numbering, or held in the replay buffer (R318); a packet's last flit carries the
packet, which is sent again on the partner port when the link goes down (R331). -/
structure TxFlit where
  seq : Nat
  vc  : Nat
  sop : Bool
  eop : Bool
  rank : Nat
  bytes : List Byte
  pkt : Option Pkt
deriving DecidableEq, Repr

/-- A port's link layer (R312-R344). -/
structure Link where
  state    : Nat := 0
  e        : Nat := 0
  txSeq    : Nat := 0
  replayBuf : List TxFlit := []
  replaying : List TxFlit := []
  markDue  : Option Nat := none
  discard  : Bool := false
  replayPos : Option Nat := none
  nakDue   : Bool := false
  waiting  : List TxFlit := []
  credits  : List Nat := [0, 0, 0, 0, 0, 0]
  lastCnt  : List Nat := [0, 0, 0, 0, 0, 0]
  freed    : List Nat := [0, 0, 0, 0, 0, 0]
  crRot    : Nat := 0
  run      : Nat := 0
  replayCnt : Nat := 0
  timerAt  : Nat := 0
  holdAt   : Nat := 0
  lastRetrain : Option Nat := none
  retrainAt : Nat := 0
  limitRe  : Bool := false
  starved  : List (Option Nat) := [none, none, none, none, none, none]
  rxPart   : List (List Byte) := [[], [], [], [], [], []]
  partner  : W64 := 0
  partAlloc : List Nat := [0, 0, 0, 0, 0, 0]
  gotInit  : Bool := false
  gotAck   : Bool := false
  initAt   : Nat := 0
  initErr  : Nat := 0
  spareFor : Nat := 15
  width    : Nat := 0
  leader   : Bool := false
  rerouted : Bool := false
  reqSent  : Option (Nat × Nat × Nat) := none
  reqId    : Nat := 0
  again    : Option (Nat × Nat) := none
  replayLimit : Nat := 8
  creditToUs : Nat := 100
  replayTimer : Nat := 20
  alloc    : List Nat := [448, 512, 384, 96, 96, 0]
  replays  : Nat := 0
  retrains : Nat := 0
  crcErr   : Nat := 0
  downEv   : Nat := 0
  discards : Nat := 0
  laneEv   : Nat := 0
  ovf      : BitVec 6 := 0
deriving DecidableEq, Repr

/-- A rank-table entry (R337). -/
structure RankE where
  hi     : Nat
  portA  : Nat
  cktEn  : Bool
  host   : Nat
  cktId  : Nat
  routeA : Nat
  hopsA  : Nat
  routeB : Nat
  hopsB  : Nat
deriving DecidableEq, Repr

/-- A circuit entry (R339). -/
structure CktE where
  rank  : Nat
  rate  : Nat
  burst : Nat
  hops  : Nat
  route : Nat
deriving DecidableEq, Repr

/-- A drain of R343: the ranks held, and when it began; `back` for the move back of R332. -/
structure Drain where
  ranks : List Nat
  since : Nat
  back  : Bool
  via   : Framing := .plain
deriving DecidableEq, Repr

structure Fabric where
  links  : Tab Link := []
  outq   : List Pkt := []
  ranksA : Tab RankE := []
  ranksS : Tab RankE := []
  cktsA  : Tab CktE := []
  cktsS  : Tab CktE := []
  selfRank : Nat := 0
  routeEpoch : W32 := 0
  rrdToUs : Nat := 1000
  drainUs : Nat := 200
  drain  : Option Drain := none
  epktIn : Tab Nat := []
  epktOut : Tab Nat := []
  onPartner : List Nat := []
  retryBack : Tab Nat := []
  cktTok : Tab (Nat × Nat) := []
deriving DecidableEq, Repr

/-- A lane (R352, R358). -/
structure Lane where
  signal  : Bool := false
  locked  : Bool := false
  failed  : Bool := false
  cause   : Nat := 0
  logical : Nat := 15
  ce      : Nat := 0
  pat     : Nat := 0
  gen     : Bool := false
  chk     : Bool := false
  chkLock : Bool := false
  prbsErr : Nat := 0
  taps    : List Nat := [0, 0, 0, 0]
  markNo  : Option Nat := none
  badMarks : Nat := 0
  passed  : Bool := false
  rxReady : Bool := false
  errs    : Nat := 0
  ser     : List (Nat × Nat) := []
deriving DecidableEq, Repr

/-- A port's lane layer (R345-R358). -/
structure PortLanes where
  chkLog2 : Nat := 12
  eqMs    : Nat := 30
  serLog2 : Nat := 12
  feAllow : Bool := false
  maxRung : Nat := 3
  lbState : Nat := 0
  lanesOk : BitVec 9 := 0
  failCause : Nat := 0
  rung    : Nat := 0
  tstate  : Nat := 0
  since   : Nat := 0
  upAt    : Nat := 0
  firstAt : Option Nat := none
  retrain : Bool := false
  target  : Nat := 3
  fallback : Bool := false
  peerCap : Bool := false
  peerAck : Bool := false
  peerId  : W64 := 0
  leads   : Bool := false
  feRung  : Option Nat := none
  serving : Bool := false
  stepCnt : Option Nat := none
  resOk   : Option Bool := none
  peerRes : Option Bool := none
  myReady : Bool := false
  peerReady : Bool := false
  lbRung  : Nat := 3
  lbMode  : Nat := 0
  quadIns : Nat := 0
  quadDel : Nat := 0
  markErr : Nat := 0
  trainUs : Nat := 0
  moving  : Option Nat := none
  ovf     : BitVec 5 := 0
  lanes   : Tab Lane := []
deriving DecidableEq, Repr

structure Lanes where
  ports : Tab PortLanes := []
deriving DecidableEq, Repr

/-! ## Memory controllers (R359-R390) -/

/-- A subchannel or pseudo-channel: queues, open rows by rank and bank, refresh and scrub (R377-R384). -/
structure ChanQ where
  reqs   : List ChReq := []
  batch  : Bool := false
  rows   : Tab (Nat × Nat) := []
  postponed : Tab Nat := []
  panic  : List Bool := [false, false, false]
  scrubL : Nat := 0
  scrubAt : Nat := 0
  scrubN : Nat := 0
deriving DecidableEq, Repr

/-- A remap entry (R375, R376, R390). -/
structure Remap where
  lo    : W32 := 0
  rank  : Nat := 0
  valid : Bool := false
  busy  : Bool := false
  remove : Bool := false
deriving DecidableEq, Repr

/-- The counters, logs and remap entries of a channel or pseudo-channel (R390). -/
structure MemCnt where
  ce     : Nat := 0
  ue     : Nat := 0
  ovf    : BitVec 3 := 0
  ceCol  : Tab Nat := []
  ueLog  : W64 := 0
  ueValid : Bool := false
  remaps : Tab Remap := []
  scrubPos : Nat := 0
deriving DecidableEq, Repr

/-- A channel block or the stack block (R390): status, configuration, injection and the training registers. -/
structure MemBlk where
  cause  : Nat := 0
  state  : Nat := 0
  rate   : Nat := 0
  ranks  : Nat := 0
  rows   : Nat := 0
  x8     : Bool := false
  mrdimm : Bool := false
  late   : Bool := false
  wbOnCe : Bool := true
  panicEn : BitVec 3 := 7
  idleCyc : Nat := 48
  scrubEn : Bool := true
  hours  : Nat := 12
  injTgt : Nat := 0
  injMask : Byte := 0
  injTwo : Bool := false
  injCol : Nat := 0
  trnCtrl : W32 := 0
  trnBusy : Bool := false
  trnDone : Bool := false
  trnPat : W32 := 0
  trnDelay : W32 := 0
  trnLo  : W32 := 0
  trnHi  : W32 := 0
deriving DecidableEq, Repr

/-- A partition: its FLT_ state, tiers and parking (R28, R385, R435, R446); the moment, unit and log record of the fault whose reset runs,
and sections 1 to 3 of its dump as they stood (R438, R439). -/
structure Part where
  state    : Nat := 4
  lossySkim : Bool := false
  lossyCream : Bool := false
  confirmed : List Nat := []
  quiesceAt : Nat := 0
  holdAt   : Nat := 0
  chans    : List MemBlk := [{}, {}, {}, {}]
  stack    : MemBlk := { hours := 1 }
  park     : Bool := false
  parked   : Bool := false
  parkReq  : Bool := false
  parkAt   : Nat := 0
  refused  : Bool := false
  keep     : W64 := 0
  fillSkim : Bool := false
  fillCream : Bool := false
  fltTime  : Nat := 0
  fltUnit  : W32 := 0
  fltSeq   : Nat := 0
  dump     : List (List (List Byte)) := []
  zeroed   : List Nat := []
deriving DecidableEq, Repr

structure Mem where
  bytes  : Memory := []
  err    : Tab (BitVec 640) := []
  host   : Memory := []
  hostBad : List (Nat × Nat) := []
  parts  : Tab Part := []
  chq    : Tab ChanQ := []
  cnts   : Tab MemCnt := []
  /-- The remap entries as PMC keeps them in flash, by counter block (R375). -/
  flash  : Tab (Tab Remap) := []
deriving DecidableEq, Repr

/-! ## The mirrored pair (R391-R418) -/

/-- A final reply that is held: on a standby until the active has sent its own (R402), on an active until the command's token is
acknowledged (R396). `ord` is its place in the order of the store. -/
structure LoggedReply where
  seq    : Nat
  chan   : Chan
  raw    : W512
  txn    : Nat
  prio   : Nat
  clamped : Bool
  status : Nat
  load   : Nat := 0
  sat    : Bool := false
  progress : Nat := 0
  result : Nat := 0
  data   : List Byte := []
  ord    : Nat := 0
deriving DecidableEq, Repr

/-- A digest interval (R404): `used` is the mask of the partitions that its commands used, `parts` of those with faults. -/
structure Interval where
  n      : Nat
  count  : Nat := 0
  rd     : W64 := 0
  wd     : W64 := 0
  faulted : Bool := false
  parts  : Byte := 0
  used   : Byte := 0
  cut    : Bool := false
  sentAt : Option Nat := none
  peer   : Option (BitVec 384) := none
  ranges : List Nat := []
  wide   : Bool := false
  opened : Nat := 0
deriving DecidableEq, Repr

/-- The pair (R391-R418). `copies` are those that no token has matched, `tokens` those not yet admitted; `due` are events that wait
for their command to reach their point (R399), as (SEQ, TYPE, ARG); `cohCopies` the coherent data messages held (R394). `watermark`
is that of a running copy phase, 2^45 after its end, and `cutHold` the moment from which a cut holds new work (R415). `digesting`
are the ranges whose digests are being compared (R407). A member whose `partner` is 0 belongs to no pair. -/
structure Mir where
  state    : Nat := 0
  inStep   : Bool := false
  cause    : Nat := 0
  broken   : Bool := false
  strapErr : Bool := false
  partner  : W64 := 0
  lagMs    : Nat := 10
  divLimit : Nat := 3
  restore  : Bool := true
  autoRejoin : Bool := true
  peerSilentUs : Nat := 1100
  mirSilentUs : Nat := 200
  seq      : Nat := 0
  copies   : List (Nat × CmdIn × Nat) := []
  tokens   : List (BitVec 256 × Nat) := []
  due      : List (Nat × Nat × Nat) := []
  cohCopies : List (CohMsg × Bool) := []
  replyLog : List LoggedReply := []
  digesting : List (Nat × W64) := []
  cutHold  : Option Nat := none
  joinSent : Bool := false
  sentHb   : Nat := 0
  formedAt : Nat := 0
  intervals : List Interval := []
  curInt   : Nat := 0
  disputed : List Nat := []
  divTimes : List Nat := []
  diverg   : Nat := 0
  failovers : Nat := 0
  orphans  : Nat := 0
  ovf      : BitVec 3 := 0
  lastRec  : Nat := 0
  lastEdge : Nat := 0
  edgeAt   : Option Nat := none
  peerState : Nat := 0
  peerParts : Nat := 0
  peerSeq  : Nat := 0
  watermark : Option Nat := none
  resyncKey : Option Nat := none
  cutRetry : Nat := 0
  copyNo   : Nat := 0
  acked    : Nat := 0
  answers  : List (Framing × Nat × Nat × List Byte) := []
  cur      : Option Nat := none
  saw      : Bool := false
deriving DecidableEq, Repr

/-! ## Faults and recovery (R419-R446) -/

/-- A unit of the fault collector (R426-R428); `state` as R427. -/
structure UnitSt where
  state   : Nat := 0
  since   : Nat := 0
  count   : Nat := 0
  winAt   : Nat := 0
  winOpen : Bool := false
  stuck   : Bool := false
deriving DecidableEq, Repr

/-- A record of the fault log (R432). -/
structure FltRec where
  time  : Nat
  unit  : W32
  cause : W16
  kind  : Nat
  flags : Nat
  info  : W64
  seq   : Nat
  count : Nat
deriving DecidableEq, Repr

structure Flt where
  failed   : Bool := false
  recovery : Bool := false
  degraded : Bool := false
  recovLimit : Nat := 16
  recovWinMin : Nat := 60
  shadowLog2 : Nat := 12
  quietMs  : Nat := 100
  escalateMs : Nat := 10
  busy     : Bool := false
  result   : Nat := 0
  test     : Nat := 0
  cmdUnit  : W32 := 0
  unitSel  : W32 := 0
  head     : W32 := 0
  log      : Tab FltRec := []
  units    : Tab UnitSt := []
  faults   : Nat := 0
  corrected : Nat := 0
  ceUnlogged : Nat := 0
  ovf      : BitVec 3 := 0
  lastCe   : Tab Nat := []
  dumpAddr : W64 := 0
  dumpCfg  : W32 := 0
  dumpValid : Bool := false
  dumpTrunc : Bool := false
  dumpInc  : Bool := false
  dumpPart : Nat := 0
  skipped  : Nat := 0
  bistFails : Nat := 0
  bistRecs : List BistRec := []
  bistUnit : W32 := 0
  heartbeats : Tab Nat := []
  stopUntil : Tab Nat := []
  wasKhz : Tab Nat := []
  relocking : List Nat := []
  recHoldAt : Nat := 0
deriving DecidableEq, Repr

/-! ## Firmware, energy and thermal (R447-R478) -/

structure Fw where
  slotState : List Nat := [3, 0]
  tries    : List Nat := [0, 0]
  svn      : List Nat := [0, 0]
  version  : List W32 := [0, 0]
  preferred : Nat := 0
  slotImg  : List (List Byte) := [[], []]
  staging  : Memory := []
  state    : Nat := 0
  error    : Nat := 0
  totalLen : Nat := 0
  programmed : Nat := 0
  running  : Nat := 0
  h2fGo    : Bool := false
  h2fLen   : Nat := 0
  h2fData  : Memory := []
  f2hValid : Bool := false
  f2hLen   : Nat := 0
  f2hData  : Memory := []
  resp     : List (List Byte) := []
  events   : List (List Byte) := []
  eventSeq : Nat := 0
  hostVer  : Byte := 0
  standby  : Bool := false
  romMode  : Bool := false
  fwReady  : Bool := false
  mbxErrors : Nat := 0
deriving DecidableEq, Repr

structure Pwr where
  pB       : Nat := 950
  eB       : Nat := 9500
  pCap     : Nat := 950
  pEff     : Nat := 950
  nextB    : Option (Nat × Nat) := none
  nextCap  : Option Nat := none
  draw     : Nat := 0
  planned  : Nat := 0
  window   : Nat := 0
  buckets  : List Nat := []
  bucketMj : Nat := 0
  epochMj  : Nat := 0
  refused  : Nat := 0
  overs     : Nat := 0
  ovf      : BitVec 2 := 0
  levels   : Tab Nat := []
  runLvl   : Tab Nat := []
  unres    : Nat := 0
  energy   : Tab Nat := []
  temps    : List (BitVec 16) := List.replicate 13 0
  throttle : List Nat := [0, 0, 0, 0, 0]
  lastMove : List Nat := [0, 0, 0, 0, 0]
  dwellUp  : Tab Nat := []
  dwellDn  : Tab Nat := []
  crossed  : Tab Bool := []
  hold     : Bool := false
deriving DecidableEq, Repr

/-! ## The whole part -/

/-- The state of the part. `pending` is the queue of the commands that are waiting, first in first out; `out` is what the
part has sent; `now` is SAF time in ns since power-up and `devStart` the moment of the effective release (R493);
`free` counts the free values read (log 5). -/
structure State where
  now      : Nat
  devStart : Nat
  fuses    : Fuses
  pins     : Pins
  boot     : Boot
  saf      : Saf
  latches  : Latches
  intr     : Intr
  rings    : Tab Ring
  store    : Store
  out      : List Out
  xlt      : Xlt
  iso      : Iso
  qos      : Qos
  churn    : Churn
  sync     : Sync
  work     : Work
  coh      : Coh
  fab      : Fabric
  lanes    : Lanes
  mem      : Mem
  mir      : Mir
  flt      : Flt
  fw       : Fw
  pwr      : Pwr
  free     : Nat
  pending  : List Instr
deriving DecidableEq, Repr

/-- The part at the effective release of RESET_N (R453, R493, R506): no command waits. -/
def State.reset : State :=
  { now := 0, devStart := 0, fuses := {}, pins := {}, boot := {}, saf := {}, latches := {}, intr := {}, rings := [],
    store := {}, out := [], xlt := {}, iso := {}, qos := {}, churn := {}, sync := {}, work := {}, coh := {}, fab := {},
    lanes := {}, mem := {}, mir := {}, flt := {}, fw := {}, pwr := {}, free := 0, pending := [] }

end Sys2Proof.Machine
end

