-- ==== Sys2Proof/Machine/Ops.lean ====
section
/-! DEFINITION. The named operations that every chapter shares: instances and their tables, free values, host memory, the
cause tree and INT_N (R479-R483), the fault log and the unit states (R423-R432), and the outcomes of a row. -/
namespace Sys2Proof.Machine

/-! ## Instances -/

def State.ring (s : State) (n : Nat) : Ring := tabGet {} s.rings n
def State.setRing (s : State) (n : Nat) (r : Ring) : State := { s with rings := tabSet {} s.rings n r }
def State.part (s : State) (p : Nat) : Part := tabGet {} s.mem.parts p
def State.setPart (s : State) (p : Nat) (x : Part) : State :=
  { s with mem := { s.mem with parts := tabSet {} s.mem.parts p x } }
def State.tile (s : State) (t : Nat) : Tile := tabGet {} s.churn.tiles t
def State.setTile (s : State) (t : Nat) (x : Tile) : State :=
  { s with churn := { s.churn with tiles := tabSet {} s.churn.tiles t x } }
def State.clu (s : State) (c : Nat) : Clu := tabGet {} s.churn.clus c
def State.setClu (s : State) (c : Nat) (x : Clu) : State :=
  { s with churn := { s.churn with clus := tabSet {} s.churn.clus c x } }
def State.obj (s : State) (i : Nat) : SyncObj := tabGet {} s.sync.objs i
def State.setObj (s : State) (i : Nat) (x : SyncObj) : State :=
  { s with sync := { s.sync with objs := tabSet {} s.sync.objs i x } }
def State.win (s : State) (w : Nat) : Window := tabGet {} s.coh.wins w
def State.setWin (s : State) (w : Nat) (x : Window) : State :=
  { s with coh := { s.coh with wins := tabSet {} s.coh.wins w x } }
def State.meter (s : State) (m : Nat) : Meter := tabGet {} s.qos.meters m
def State.setMeter (s : State) (m : Nat) (x : Meter) : State :=
  { s with qos := { s.qos with meters := tabSet {} s.qos.meters m x } }
def State.unit (s : State) (u : W32) : UnitSt := tabGet {} s.flt.units u.toNat
def State.setUnit (s : State) (u : W32) (x : UnitSt) : State :=
  { s with flt := { s.flt with units := tabSet {} s.flt.units u.toNat x } }
def State.lanePort (s : State) (p : Nat) : PortLanes := tabGet {} s.lanes.ports p
def State.setLanePort (s : State) (p : Nat) (x : PortLanes) : State :=
  { s with lanes := { s.lanes with ports := tabSet {} s.lanes.ports p x } }

/-- A port's link at device reset: the allocation defaults of R322 differ on the mirror ports. -/
def linkReset (p : Nat) : Link := if p < 12 then {} else { alloc := [64, 64, 0, 32, 32, 1344] }
def State.link (s : State) (p : Nat) : Link := tabGet (linkReset p) s.fab.links p
def State.setLink (s : State) (p : Nat) (x : Link) : State :=
  { s with fab := { s.fab with links := tabSet (linkReset p) s.fab.links p x } }

/-- The number under which a channel's entries are kept: rings first, then ranks. -/
def chanKey : Chan → Nat
  | .ring n => n
  | .rank r => 1024 + r

def State.chan (s : State) (c : Chan) : ChanSt := tabGet {} s.store.chans (chanKey c)
def State.setChan (s : State) (c : Chan) (x : ChanSt) : State :=
  { s with store := { s.store with chans := tabSet {} s.store.chans (chanKey c) x } }
def State.cmd (s : State) (k : Nat) : Option Cmd := tabFind s.store.cmds k
def State.setCmd (s : State) (k : Nat) (c : Cmd) : State :=
  { s with store := { s.store with cmds := tabIns s.store.cmds k c } }
def State.delCmd (s : State) (k : Nat) : State :=
  { s with store := { s.store with cmds := tabDel s.store.cmds k } }

/-- A host identity entry that is VALID in a copy of the table (R113). -/
def hostIn (t : Tab HostE) (h : Nat) : Option HostE := (tabFind t h).filter (·.valid)
/-- The host identity as the active copy holds it. -/
def State.host (s : State) (h : Nat) : Option HostE := hostIn s.iso.hostsA h
/-- The rank-table entry a rank matches (R338). -/
def State.rankE (s : State) (r : Nat) : Option RankE :=
  match tabFind s.fab.ranksA (r % 65536) with
  | some e => if e.hi = r / 65536 then some e else none
  | none => none

/-- The host identity of a channel (R37), if the channel is bound to one. -/
def State.chanHost (s : State) : Chan → Option Nat
  | .ring n => some (s.ring n).ident
  | .rank r => (s.rankE r).map (·.host)

/-- Device time in ns (R493). -/
def State.time (s : State) : Nat := s.now - s.devStart

/-- One kilo-, mega- and giga-: times of the manual in ns. -/
def us (n : Nat) : Nat := 1000 * n
def ms (n : Nat) : Nat := 1000000 * n

/-- The next free value, of `w` bits, and the state that has counted it (log 5). -/
def State.fresh (s : State) (w : Nat) : BitVec w := Config.freeBits w s.free
def State.bump (s : State) : State := { s with free := s.free + 1 }

/-- A token value: the free value `v`, or where it is 0 or in use another that is neither. -/
def unusedToken (used : List Nat) (v : Nat) : Nat :=
  if v != 0 && !used.contains v then v else ((List.range 65536).find? fun i => i != 0 && !used.contains i).getD 1

/-- Appends to what the part has sent. -/
def State.send (s : State) (o : Out) : State := { s with out := s.out ++ [o] }
/-- Enqueues an item of class `tc` in the instance of its colour at a scheduling point: its finish time (R143). Yellow TC5 weighs
as W4. -/
def wfqStamp (x : Point) (weights : List Nat) (tc : Nat) (yellow : Bool) (bytes : Nat) : W64 × Point :=
  let w := weights.getD (if tc = 5 then 4 else tc) 1
  let fs := if yellow then x.fY else x.fG
  let v := if yellow then x.vY else x.vG
  let last := fs.getD tc 0
  let start := if last.toNat < v.toNat then v else last
  let f : W64 := start + BitVec.ofNat 64 (bytes * 256 / max w 1)
  (f, if yellow then { x with fY := fs.set tc f } else { x with fG := fs.set tc f })

/-- An instance of fair queueing whose queues are all empty starts again at 0 (R143). -/
def Point.onEmpty (x : Point) : Point :=
  let z : List W64 := [0, 0, 0, 0, 0, 0]
  let x := if x.items.any (fun i => i.color == 1 && i.tc < 6) then x else { x with vG := 0, fG := z }
  if x.items.any (·.color == 2) then x else { x with vY := 0, fY := z }
/-- Takes items that `f` picks from a point's queues. -/
def Point.drop (x : Point) (f : QItem → Bool) : Point :=
  if x.items.any f then { x with items := x.items.filter fun i => !f i }.onEmpty else x

def State.point (s : State) (pt : Nat) : Point := tabGet {} s.qos.points pt
def State.setPoint (s : State) (pt : Nat) (x : Point) : State :=
  { s with qos := { s.qos with points := tabSet {} s.qos.points pt x } }

/-- Does a link hold traffic: ACTIVE, or in a retrain (R325)? -/
def linkUp (l : Link) : Bool := l.state == 3 || l.state == 4
/-- The port a packet leaves on: that of its rank, or the partner while the rank is rerouted (R330); a mirror packet leaves on its
port or the partner. None where both are down: the rank is unreachable (R332). -/
def pktPort (s : State) (p : Pkt) : Option Nat :=
  let pick := fun (n : Nat) => if linkUp (s.link n) then some n else none
  match p.port with
  | some n => (pick n).orElse fun _ => pick (n ^^^ 1)
  | none => match s.rankE p.rank with
    | some e => pick (if s.fab.onPartner.contains p.rank then e.portA ^^^ 1 else e.portA)
    | none => none

/-- Are new packets to the rank held at injection (R343)? -/
def rankHeld (s : State) (r : Nat) : Bool := match s.fab.drain with
  | some d => d.ranks.contains r
  | none => false

/-- Does a port carry packets? -/
def upPort (s : State) (p : Nat) : Bool := linkUp (s.link p)
/-- The circuit a packet may travel on: of a response with data, VALID with the same rank, on the primary port of its rank. -/
def pktCircuit (s : State) (k : Pkt) : Option (Nat × CktE) :=
  match s.rankE k.rank with
  | none => none
  | some e =>
    if k.ty != 1 || k.port.isSome || !e.cktEn || e.portA ≥ 12 || !upPort s e.portA || s.fab.onPartner.contains k.rank || k.body.length ≤ 32 then none
    else match tabFind s.fab.cktsA (e.portA * 1024 + e.cktId) with
      | some c => if c.rank = k.rank then some (e.cktId, c) else none
      | none => none
/-- Queues a packet (R333, R336). It counts as 64 bytes at its port's scheduling point (R143). One to an unreachable rank is
discarded (R332). -/
def State.sendPkt (s : State) (p : Pkt) : State :=
  match pktPort s p with
  | none => s
  | some n =>
    -- a circuit is the reserved tier, and TC7 and TC6 are strict: none of them is an item of fair queueing
    let (f, x) := if (pktCircuit s p).isSome || decide (6 ≤ p.tc) then (0, s.point (80 + n)) else wfqStamp (s.point (80 + n)) s.qos.weights p.tc false 64
    let s := s.setPoint (80 + n) x
    { s with fab := { s.fab with outq := s.fab.outq ++ [{ p with f := f, since := s.now, held := p.port.isNone && rankHeld s p.rank }] } }

/-! ## Host memory (R36): PCIe reads and writes -/

/-- Does a PCIe access of `n` bytes at bus address `a` fail on the bus? -/
def State.hostFails (s : State) (a n : Nat) : Bool := s.mem.hostBad.any fun b => !disjointSpans a n b.1 b.2
def State.hostRead (s : State) (a n : Nat) : List Byte := memGetL s.mem.host a n
def State.hostWrite (s : State) (a : Nat) (bs : List Byte) : State :=
  { s with mem := { s.mem with host := memPutL s.mem.host a bs } }

/-! ## Partitions -/

/-- Is partition `p` in service (R446: ONLINE or QUIET)? -/
def State.online (s : State) (p : Nat) : Bool :=
  let x := (s.part p).state
  decide (p < 8) && (x == 0 || x == 6)

/-- The partitions. -/
def allParts : List Nat := [0, 1, 2, 3, 4, 5, 6, 7]

/-! ## The cause tree (R479-R483, R491) -/

/-- Ring error bits [3:1] of `CMD_RING_STATUS`. -/
def Ring.errs (r : Ring) : Bool := r.cfgErr || r.fetchErr || r.writeErr

/-- `INT_RING_SUM`: bit g for rings [32g, 32g+31]. -/
def ringSum (s : State) : Nat :=
  s.rings.foldl (fun b e => if e.2.errs then b ||| 2 ^ (e.1 / 32) else b) 0

/-- `INT_GRP_MEM`. -/
def grpMem (s : State) : Nat :=
  s.mem.parts.foldl (fun b e =>
    b ||| flag e.2.refused (8 + e.1) ||| flag (e.2.stack.late || e.2.chans.any (·.late)) e.1) 0

/-- The partition of a memory-controller counter block: channel d, or 32 + 32h + n. -/
def cntPart (k : Nat) : Nat := if k < 32 then k / 4 else (k - 32) / 32

/-- `INT_GRP_OVF`. -/
def grpOvf (s : State) : Nat :=
  let b := s.churn.clus.foldl (fun b e => if e.2.ovf = 0 then b else b ||| 2 ^ (e.1 / 5)) 0
  let b := s.mem.cnts.foldl (fun b e => if e.2.ovf = 0 then b else b ||| 2 ^ cntPart e.1) b
  let b := s.xlt.counts.foldl (fun b e => if e.2.hitOvf || e.2.missOvf then b ||| 2 ^ e.1 else b) b
  b ||| flag s.sync.errOvf 8 ||| flag (s.coh.wins.any (·.2.ovf)) 9 ||| flag (s.fab.links.any (·.2.ovf != 0)) 10
    ||| flag (s.lanes.ports.any (·.2.ovf != 0)) 11 ||| flag (s.mir.ovf != 0) 12 ||| flag (s.flt.ovf != 0) 13
    ||| flag (s.pwr.ovf != 0) 14

/-- `INT_SUMMARY` (R480). -/
def intSummary (s : State) : Nat :=
  flag (s.intr.fault != 0 || s.flt.failed) 0 ||| flag s.fw.f2hValid 1 ||| flag (ringSum s != 0) 2
    ||| flag (s.intr.cohDown != 0) 3 ||| flag (s.intr.link != 0) 4 ||| flag (s.intr.pair != 0) 5
    ||| flag (s.intr.pwr != 0) 6 ||| flag (grpMem s != 0) 7 ||| flag s.flt.dumpValid 8
    ||| flag (s.intr.tenant != 0) 9 ||| flag (grpOvf s != 0) 10

/-- `INT_SUMMARY` AND `INT_MASK` is not 0 (R481). -/
def intMasked (s : State) : Bool := (intSummary s &&& s.intr.mask.toNat) != 0

/-- Drives INT_N and sends the message of R483 when the masked summary has become non-zero. -/
def intEval (s : State) : State :=
  { s with
    pins := { s.pins with intN := intMasked s || s.flt.failed }
    intr := { s.intr with wasZero := !intMasked s }
    out := if s.intr.msixEn && s.intr.wasZero && intMasked s then s.out ++ [.msix 0 s.intr.vec] else s.out }

/-- A row answers its next state, with the cause tree evaluated. -/
def done (s : State) : Host.Outcome State Fault Refusal := .next (intEval s)

/-- A row about an instance: a fault where the manual has no such instance (R12). -/
def onInst (ok : Bool) (s : State) : Host.Outcome State Fault Refusal := if ok then done s else .fault .noInstance

/-! ## Faults and corrected events (R424, R425, R431, R432) -/

/-- Unit names of R426. -/
def unitOf (cls ix : Nat) : W32 := BitVec.ofNat 32 (cls * 2 ^ 24 + ix)
def unitClass (u : W32) : Nat := u.toNat / 2 ^ 24
def unitIx (u : W32) : Nat := u.toNat % 2 ^ 24

/-- Has a counter that the log's COUNTS_SATURATED flag reports saturated (R432)? -/
def countsSat (s : State) (u : W32) : Bool :=
  s.flt.faults == 2 ^ 32 - 1 || s.flt.corrected == 2 ^ 32 - 1 || s.flt.ceUnlogged == 2 ^ 32 - 1
    || (s.unit u).count == 65535

/-- Writes a record of the fault log (R432); KIND 0 sets `INT_FAULT.FAULT` (R482). -/
def logFlt (s : State) (u : W32) (prot detail kind flags : Nat) (info : W64) : State :=
  let r : FltRec := {
    time := s.time, unit := u, cause := BitVec.ofNat 16 (256 * prot + detail), kind := kind
    flags := flags ||| flag (countsSat s u) 3, info := info, seq := s.flt.head.toNat, count := (s.unit u).count }
  { s with
    flt := { s.flt with log := tabIns s.flt.log (s.flt.head.toNat % 1024) r, head := s.flt.head + 1 }
    intr := if kind = 0 then { s.intr with fault := s.intr.fault ||| 1 } else s.intr }

/-- Marks the digest intervals of commands that used a faulted unit (R404): of a partition and its memory by the partition, of a tile by
its run, of a port or a window by none, and of any other unit all that are open. -/
def faultIntervals (s : State) (u : W32) : State :=
  let c := unitClass u
  let ix := unitIx u
  let run : Option Nat := match (tabGet {} s.churn.tiles ix : Tile).run with
    | some k => (s.cmd k).map (·.mirInt)
    | none => none
  let hit : Interval → Interval := fun i =>
    if i.sentAt.isSome then i
    else if c = 2 then (if bitOf i.used.toNat ix then { i with faulted := true, parts := i.parts ||| BitVec.ofNat 8 (2 ^ ix) } else i)
    else if c = 3 then (if run = some i.n then { i with faulted := true } else i)
    else if c = 0xA || c = 0x10 then i
    else { i with faulted := true }
  { s with mir := { s.mir with intervals := s.mir.intervals.map hit } }

/-- Is the part held to a pair as a member that does not serve (R395): SYNCING, STANDBY, or OUT of a pair that still stands? -/
def pairHeld (s : State) : Bool := s.mir.state == 2 || s.mir.state == 3 || (s.mir.state == 4 && s.mir.partner != 0)

/-- A fault of a unit whose containment the caller carries out: counted, logged, its unit in state `st` of R427. A unit
that is OFFLINE is logged only (R430). -/
def raiseFault (s : State) (u : W32) (prot detail : Nat) (info : W64) (st : Nat) (flags : Nat := 0) : State :=
  let old := s.unit u
  let s := if old.state = 4 then s else s.setUnit u { old with state := st, since := s.now }
  let s := { s with flt := { s.flt with
    faults := satAdd 32 s.flt.faults 1
    ovf := if satOvf 32 s.flt.faults 1 then s.flt.ovf ||| 1 else s.flt.ovf } }
  logFlt (faultIntervals s u) u prot detail 0 flags info

/-- A corrected event (R425): counted, and logged at most once per unit per 1 ms. -/
def corrected (s : State) (u : W32) (prot detail : Nat) (info : W64) : State :=
  let s := { s with flt := { s.flt with
    corrected := satAdd 32 s.flt.corrected 1
    ovf := if satOvf 32 s.flt.corrected 1 then s.flt.ovf ||| 2 else s.flt.ovf } }
  let logIt := match tabFind s.flt.lastCe u.toNat with
    | some t => decide (t + ms 1 ≤ s.now)
    | none => true
  if logIt then
    let s := { s with flt := { s.flt with lastCe := tabIns s.flt.lastCe u.toNat s.now } }
    logFlt s u prot detail 1 0 info
  else
    { s with flt := { s.flt with
      ceUnlogged := satAdd 32 s.flt.ceUnlogged 1
      ovf := if satOvf 32 s.flt.ceUnlogged 1 then s.flt.ovf ||| 4 else s.flt.ovf } }

/-- The state of R427 of a partition's unit, from `FLT_PART_STATE`. -/
def partUnitState : Nat → Nat
  | 0 => 0
  | 1 => 1
  | 6 => 3
  | 7 => 4
  | _ => 2

/-- Is the PCIe port up (R507)? -/
def pcieUp (s : State) : Bool := s.pins.perstN && !s.boot.inReset && s.pins.vddSaf
/-- Does window `w` of BAR0 (in steps of 1 MiB, R486) answer: GLB_, INT_, SAF_ and FLT_ always; the others not during recovery or in FAILED,
and beside MBX_ only once the boot has reached READY or STANDBY_REFUSED (R441, R442, R507)? -/
def barOpen (s : State) (w : Nat) : Bool :=
  pcieUp s && (decide (w ≤ 3) || (!s.flt.recovery && !s.flt.failed && (w == 4 || s.boot.served)))
/-- Does it take writes? In FAILED none does (R442). -/
def barWrite (s : State) (w : Nat) : Bool := barOpen s w && !s.flt.failed
/-- A software write to window `w`: nothing where the window takes none. -/
def onBar (s : State) (w : Nat) (t : State) : State := if barWrite s w then t else s

/-- Is a unit in CONTAINED or RECOVERING: it does not serve (R427)? -/
def unitDown (s : State) (u : W32) : Bool :=
  let x := (s.unit u).state
  x == 1 || x == 2
/-- Is any unit in the fault state (R427)? -/
def anyFault (s : State) : Bool :=
  s.flt.units.any (fun e => e.2.state == 1 || e.2.state == 2 || e.2.state == 3)

/-- Does ALIVE stand still (R431, R453)? After reset it does, where `FLT_STATUS.ALIVE_HELD` has Reset 0 (log 48). -/
def aliveHeld (s : State) : Bool :=
  anyFault s || s.flt.recovery || s.flt.failed || s.boot.inReset || !(s.boot.stage == 7 || s.boot.stage == 8)

end Sys2Proof.Machine
end

