-- ==== Sys2Proof/Machine/Operands.lean ====
section
/-! DEFINITION. The operand forms of the churn instructions: the instruction word (R158), register files (R156), elements of
vectors (R159), chunks (R165), scratch addresses (R162) and DMA operands (R169). -/
namespace Sys2Proof.Machine

/-! ## Words and registers -/

/-- The instruction word of an operation and its fields (R158). -/
def encodeTI (op : Nat) (i : TI) : W64 :=
  BitVec.ofNat 64 (op * 2 ^ 56 + i.d.toNat * 2 ^ 51 + i.a.toNat * 2 ^ 46 + i.b.toNat * 2 ^ 41 + i.c.toNat * 2 ^ 36
    + i.fmt.toNat * 2 ^ 32 + i.imm.toNat)

/-- The fields of an instruction word (R158). -/
def fieldsTI (w : Nat) : TI :=
  { d := BitVec.ofNat 5 (field w 55 51), a := BitVec.ofNat 5 (field w 50 46), b := BitVec.ofNat 5 (field w 45 41)
    c := BitVec.ofNat 5 (field w 40 36), fmt := BitVec.ofNat 4 (field w 35 32), imm := BitVec.ofNat 32 w }

def Tile.S (t : Tile) (i : BitVec 5) : W64 := tabGet 0 t.s i.toNat
def Tile.V (t : Tile) (i : BitVec 5) : W512 := tabGet 0 t.v i.toNat
def Tile.A (t : Tile) (i : BitVec 5) : W512 := tabGet 0 t.a i.toNat
def Tile.L (t : Tile) (i : BitVec 5) : W32 := tabGet 0 t.l i.toNat
def Tile.setS (t : Tile) (i : BitVec 5) (v : W64) : Tile := { t with s := tabSet 0 t.s i.toNat v }
def Tile.setV (t : Tile) (i : BitVec 5) (v : W512) : Tile := { t with v := tabSet 0 t.v i.toNat v }
def Tile.setA (t : Tile) (i : BitVec 5) (v : W512) : Tile := { t with a := tabSet 0 t.a i.toNat v }
def Tile.setL (t : Tile) (i : BitVec 5) (v : W32) : Tile := { t with l := tabSet 0 t.l i.toNat v }

/-- IMM sign-extended to 64 bits (R160). -/
def sext (i : TI) : W64 := i.imm.signExtend 64
def immBits (i : TI) (hi lo : Nat) : Nat := field i.imm.toNat hi lo

/-! ## Elements -/

/-- Elements of `w` bits of a register, element 0 first (R159). -/
def elems (w : Nat) (x : Nat) : List Nat := (List.range (512 / w)).map fun n => x / 2 ^ (w * n) % 2 ^ w
/-- A register from elements of `w` bits. -/
def packElems (w : Nat) : List Nat → Nat
  | [] => 0
  | x :: t => x % 2 ^ w + 2 ^ w * packElems w t
def vecOf (w : Nat) (l : List Nat) : W512 := BitVec.ofNat 512 (packElems w l)

/-- Chunk `part` of `n` elements of `w` bits of a register (R165). -/
def chunkElems (w n part : Nat) (x : Nat) : List Nat := ((elems w x).drop (part * n)).take n
/-- A register with chunk `part` replaced (R165). -/
def putChunk (w n part : Nat) (old : W512) (l : List Nat) : W512 :=
  let es := elems w old.toNat
  vecOf w (es.take (part * n) ++ l ++ es.drop (part * n + n))

/-- Element (i, j) of an accumulator tile (R156). -/
def accElem (x : W512) (i j : Nat) : Nat := x.toNat / 2 ^ (32 * (4 * i + j)) % 2 ^ 32

/-! ## Scratchpad -/

/-- The placement of the program that runs on the tile: (handle, code index, CODE_N, scratch KiB index, SCRATCH_KIB). -/
def Tile.seg (t : Tile) : Nat × Nat × Nat × Nat × Nat :=
  (t.slots.find? fun e => e.2.1 == t.codeAt && e.2.2.1 != 0).getD (0, 0, 0, 0, 0)
/-- Bytes of the scratch segment. -/
def Tile.scrLen (t : Tile) : Nat := t.seg.2.2.2.2 * 1024

/-- A scratch access of `n` bytes at S[A] + IMM[15:0] (R162): the offset in the segment, or none for a trap OPERAND. -/
def scratchAddr (t : Tile) (i : TI) (n : Nat) : Option Nat :=
  let a := ((t.S i.a).toNat + immBits i 15 0) % 2 ^ 64
  if a % n = 0 && decide (a + n ≤ t.scrLen) then some a else none

/-- Bits in which a word departs from its codeword: SECDED corrects one and detects two (R370); more count as two (log 42). -/
def flips (e : BitVec 72) : Nat := (List.range 72).foldl (fun n i => if bitOf e.toNat i then n + 1 else n) 0
/-- The bit in error of a word with one. -/
def flipAt (e : BitVec 72) : Nat := ((List.range 72).find? (bitOf e.toNat)).getD 0
/-- Does an access of `n` bytes at physical scratch address `a` touch word `w`? -/
def touchesWord (a n w : Nat) : Bool := decide (a ≤ 8 * w + 7) && decide (8 * w < a + n)
/-- Does an access of `n` bytes at physical scratch address `a` meet a word with an uncorrectable error (R178)? -/
def scratchBad (t : Tile) (a n : Nat) : Bool :=
  t.scratchPoison.any (touchesWord a n) || t.scratchErr.any fun e => touchesWord a n e.1 && decide (2 ≤ flips e.2)
/-- The words with a single-bit error that an access reads. -/
def scratchSingles (t : Tile) (a n : Nat) : Tab (BitVec 72) := t.scratchErr.filter fun e => touchesWord a n e.1
/-- Reads `n` bytes at offset `o` of the segment. -/
def scratchGet (t : Tile) (o n : Nat) : Nat := leNat (memGetL t.scratch (t.scrAt + o) n)
/-- Writes `n` bytes at offset `o` of the segment; whole words written are good again. -/
def scratchPut (t : Tile) (o n x : Nat) : Tile :=
  { t with
    scratch := memPutL t.scratch (t.scrAt + o) (leBytes n x)
    scratchPoison := t.scratchPoison.filter fun w => !touchesWord (t.scrAt + o) n w
    scratchErr := t.scratchErr.filter fun e => !touchesWord (t.scrAt + o) n e.1 }

/-! ## Stream DMA -/

/-- The transfer that the operands of a DLD or DST describe (R169); none where they break a rule. -/
def xferOf (t : Tile) (i : TI) (load : Bool) : Option Xfer :=
  let ra := (t.S i.a).toNat
  let sa := (t.S i.b).toNat
  let sh := (t.S i.c).toNat
  let rows := field sh 39 32 + 1
  let lines := immBits i 5 0 + 1
  let stride := field sh 31 0
  if ra % 64 = 0 && decide (ra < 2 ^ 52) && sa % 64 = 0 && stride % 64 = 0 && field sh 63 40 = 0
      && decide (sa + rows * lines * 64 ≤ t.scrLen)
  then some { load := load, ra := ra, sa := sa, stride := stride, rows := rows, lines := lines }
  else none

def Tile.eng (t : Tile) (e : Bool) : Engine := if e then t.e1 else t.e0
def Tile.setEng (t : Tile) (e : Bool) (x : Engine) : Tile := if e then { t with e1 := x } else { t with e0 := x }
/-- Have both engines no transfer outstanding (R175, R176)? -/
def Tile.drained (t : Tile) : Bool := t.e0.queue == [] && t.e1.queue == []
/-- Have both engines finished the bursts already issued (R179)? -/
def Tile.quiet (t : Tile) : Bool := t.e0.wait == 0 && t.e1.wait == 0

end Sys2Proof.Machine
end

