-- ==== Sys2Proof/Machine/Flags.lean ====
section
/-! DEFINITION. What instructions count: SATC and FLC of a tile (R156, R166), and the CLU_ counters of its cluster with their
overflow flags (R194, R491). -/
namespace Sys2Proof.Machine

/-- Adds saturations and flushes to a tile's counters (R156: saturating). -/
def Tile.count (t : Tile) (sat flush : Nat) : Tile :=
  { t with satc := satAdd 32 t.satc sat, flc := satAdd 32 t.flc flush }

/-- The tile's LFSR after an instruction that used it. -/
def Tile.setLfsr (t : Tile) (x : Nat) : Tile := { t with lfsr := BitVec.ofNat 32 x }

/-- The cluster of a tile, and its partition (R13, R194). -/
def cluOf (t : Nat) : Nat := t / 256
def tilePart (t : Nat) : Nat := t / 1280

/-- Counts a refusal for energy. -/
def energyRefused (s : State) : State :=
  { s with intr := { s.intr with pwr := s.intr.pwr ||| 8 }
           pwr := { s.pwr with refused := satAdd 32 s.pwr.refused 1
                               ovf := if satOvf 32 s.pwr.refused 1 then s.pwr.ovf ||| 1 else s.pwr.ovf } }

/-- `CLU_RUNS` (R194). -/
def cluRun (s : State) (c : Nat) : State :=
  let x := s.clu c
  s.setClu c { x with runs := satAdd 32 x.runs 1, ovf := if satOvf 32 x.runs 1 then x.ovf ||| 1 else x.ovf }
/-- `CLU_TRAPS` (R194). -/
def cluTrap (s : State) (c : Nat) : State :=
  let x := s.clu c
  s.setClu c { x with traps := satAdd 32 x.traps 1, ovf := if satOvf 32 x.traps 1 then x.ovf ||| 2 else x.ovf }
/-- `CLU_MAC_CHECK` (R194). -/
def cluMac (s : State) (c : Nat) : State :=
  let x := s.clu c
  s.setClu c { x with macs := satAdd 32 x.macs 1, ovf := if satOvf 32 x.macs 1 then x.ovf ||| 16 else x.ovf }

/-- `CLU_CE` (R155, R194): a corrected word of instruction memory or of scratch. -/
def cluCe (s : State) (c : Nat) (imem : Bool) : State :=
  let x := s.clu c
  s.setClu c (if imem then { x with ceIm := satAdd 16 x.ceIm 1, ovf := if satOvf 16 x.ceIm 1 then x.ovf ||| 4 else x.ovf }
    else { x with ceScr := satAdd 16 x.ceScr 1, ovf := if satOvf 16 x.ceScr 1 then x.ovf ||| 8 else x.ovf })

/-- Is the tile in a run that executes instructions? -/
def TileSt.active : TileSt → Bool
  | .running => true
  | .inDwait .. => true
  | .inSwait .. => true
  | .inHalt => true
  | .inGran => true
  | _ => false
/-- Is a tile waiting in SWAIT? -/
def TileSt.inWait : TileSt → Bool
  | .inSwait .. => true
  | _ => false

/-- Tile clock in MHz at a DVFS level (R468). -/
def levelMhz (l : Nat) : Nat := [600, 800, 1000, 1250, 1400].getD l 600
/-- The DVFS level of a cluster. -/
def cluLevel (s : State) (c : Nat) : Nat := tabGet 0 s.pwr.levels c
/-- Thousandths of a cycle since the counts of a tile were last brought up to date: none while its cluster's PLL relocks (R32). -/
def newCycles (s : State) (n : Nat) : Nat :=
  let t := s.tile n
  if t.st.active && !s.flt.relocking.contains (cluOf n) then (s.now - t.startAt) * levelMhz (cluLevel s (cluOf n)) else 0
/-- Does the time of the tile count for MAX_CYCLES: it does not wait in SWAIT, and its run is not suspended (R188)? -/
def countsWork (s : State) (n : Nat) : Bool :=
  !(s.tile n).st.inWait && match (s.tile n).run with
    | some k => !((s.cmd k).any fun c => c.st == .suspended)
    | none => true
/-- Tile cycles since the run started (R157). -/
def tileCycles (s : State) (n : Nat) : Nat := ((s.tile n).cycles + newCycles s n) / 1000
/-- Tile cycles that count for MAX_CYCLES (R188). -/
def workCycles (s : State) (n : Nat) : Nat := ((s.tile n).work + if countsWork s n then newCycles s n else 0) / 1000
/-- Brings a tile's counts up to date, before what they depend on changes. -/
def foldCycles (s : State) (n : Nat) : State :=
  let t := s.tile n
  s.setTile n { t with cycles := t.cycles + newCycles s n
                       work := t.work + (if countsWork s n then newCycles s n else 0), startAt := s.now }

end Sys2Proof.Machine
end

