-- ==== Sys2Proof/Machine/SyncOps.lean ====
section
/-! DEFINITION. Sync objects (R227-R232): rights, the updates of an object, and what a wait entry finds. -/
namespace Sys2Proof.Machine

/-- May host `h` wait on the object (R228)? An object not VALID is one without rights (R227). -/
def SyncObj.mayWait (o : SyncObj) (h : Nat) : Bool := o.valid && (o.owner == h || o.oWait)
/-- May host `h` signal the object (R228)? -/
def SyncObj.maySignal (o : SyncObj) (h : Nat) : Bool := o.valid && (o.owner == h || o.oSig)

/-- An addition: saturates at all ones and then sets SAT (R229). -/
def SyncObj.add (o : SyncObj) (v : Nat) : SyncObj :=
  if 2 ^ 64 ≤ o.count.toNat + v then { o with count := BitVec.allOnes 64, sat := true }
  else { o with count := BitVec.ofNat 64 (o.count.toNat + v) }

/-- An error increment (R229). -/
def SyncObj.error (o : SyncObj) : SyncObj :=
  { o.add 1 with err := true, errCnt := satAdd 8 o.errCnt 1 }

/-- One update of an object (R229, R232). SYNC_RELEASE gives one error increment and then clears VALID. -/
def SyncObj.update (o : SyncObj) : SyncUpd → SyncObj
  | .config _ _ ow w g c t =>
    { valid := true, owner := ow, oWait := w, oSig := g, count := c, thr := t }
  | .set _ _ clr st v t =>
    { o with count := v, sat := false, err := o.err && !clr, thr := if st then t else o.thr }
  | .add _ _ v => o.add v.toNat
  | .signal v => o.add v.toNat
  | .error => o.error
  | .release => if o.valid then { o.error with valid := false } else o

/-- Does the update count in `SYN_ERR_EVENTS` (R252)? -/
def SyncUpd.isError (o : SyncObj) : SyncUpd → Bool
  | .error => true
  | .release => o.valid
  | _ => false

/-- Applies one update to object `i`. An update other than SYNC_CONFIG that reaches an object that is not VALID changes
nothing: it is an object without rights (R227; DEDUCED, log 9). -/
def applyUpd (s : State) (i : Nat) (u : SyncUpd) : State :=
  let o := s.obj i
  let isCfg := match u with
    | .config .. => true
    | _ => false
  if !o.valid && !isCfg then s
  else
    let s := s.setObj i (o.update u)
    if u.isError o then
      { s with sync := { s.sync with
        errEvents := satAdd 32 s.sync.errEvents 1
        errOvf := s.sync.errOvf || satOvf 32 s.sync.errEvents 1 } }
    else s

/-- Puts an update on its way to an object (R229). -/
def postUpd (s : State) (i : Nat) (u : SyncUpd) : State :=
  { s with sync := { s.sync with inFlight := s.sync.inFlight ++ [(i, u)] } }

/-- Is a wait entry of this mode satisfied (R42)? -/
def SyncObj.satisfied (o : SyncObj) (mode : Nat) : Bool :=
  if mode = 0 then decide (o.thr.toNat ≤ o.count.toNat) else o.count != 0

end Sys2Proof.Machine
end

