-- ==== Sys2Proof/Machine/Gf.lean ====
section
/-! DEFINITION. The line code RS(80,64) of R365-R368 and the CRC-64 of R315. An error word has 80 symbols; symbol `i`
stands in bits `[8i+7 : 8i]` of a number. -/
namespace Sys2Proof.Machine

/-- Multiplication in GF(2^8) with the field polynomial 0x11D (R365), over the low `n` bits of `b`. -/
def gfMulN : Nat → Nat → Nat → Nat
  | 0, _, _ => 0
  | n + 1, a, b =>
    let a2 := if a < 128 then 2 * a else (2 * a) ^^^ 0x11D
    (if b % 2 = 1 then a else 0) ^^^ gfMulN n a2 (b / 2)

/-- Multiplication in GF(2^8). -/
def gfMul (a b : Nat) : Nat := gfMulN 8 a b

/-- Powers in GF(2^8), by squaring over the low 8 bits of the exponent. -/
def gfPowN : Nat → Nat → Nat → Nat
  | 0, _, _ => 1
  | n + 1, a, e => gfMul (if e % 2 = 1 then a else 1) (gfPowN n (gfMul a a) (e / 2))

/-- α^e. -/
def gfAlpha (e : Nat) : Nat := gfPowN 8 2 (e % 255)

/-- The inverse of a non-zero element: a^254. -/
def gfInv (a : Nat) : Nat := gfPowN 8 a 254

/-- Evaluates the word whose symbols are `cs` (lowest first) at `x` (Horner). -/
def gfEval (x : Nat) : List Nat → Nat
  | [] => 0
  | c :: cs => c ^^^ gfMul x (gfEval x cs)

/-- The symbols of a word of `n` symbols. -/
def symbols : Nat → Nat → List Nat
  | 0, _ => []
  | n + 1, w => w % 256 :: symbols n (w / 256)

/-- The word of a list of symbols. -/
def unsymbols : List Nat → Nat
  | [] => 0
  | c :: cs => c + 256 * unsymbols cs

/-- The 16 syndromes of an error word (R365). -/
def syndromes (err : Nat) : List Nat := (List.range 16).map fun i => gfEval (gfAlpha i) (symbols 80 err)

/-- Multiplies a polynomial (lowest first) by (x + r). -/
def polyMulRoot (r : Nat) (p : List Nat) : List Nat :=
  List.zipWith (· ^^^ ·) (0 :: p) (p.map (gfMul r) ++ [0])

/-- The product of (x + α^(8k+s)) over the eight symbols `s` of column `k`. -/
def columnLocator (k : Nat) : List Nat :=
  (List.range 8).foldl (fun p s => polyMulRoot (gfAlpha (8 * k + s)) p) [1]

/-- Sum of products of two lists. -/
def gfDot (a b : List Nat) : Nat := (List.zipWith gfMul a b).foldl (· ^^^ ·) 0

/-- Do the syndromes satisfy the recurrence of errors confined to column `k`? -/
def columnFits (syn : List Nat) (k : Nat) : Bool :=
  let p := columnLocator k
  (List.range 8).all fun i => gfDot p (syn.drop i) == 0

/-- The numerator and denominator of the Lagrange basis polynomial of symbol `s` of column `k`: the product of
(x + α^(8k+j)) over j ≠ s. -/
def columnBasis (k s : Nat) : List Nat :=
  (List.range 8).foldl (fun p j => if j = s then p else polyMulRoot (gfAlpha (8 * k + j)) p) [1]

/-- The error value of symbol `s` of column `k` that the syndromes name. -/
def columnValue (syn : List Nat) (k s : Nat) : Nat :=
  let p := columnBasis k s
  gfMul (gfDot p syn) (gfInv (gfEval (gfAlpha (8 * k + s)) p))

/-- The error word confined to column `k` that the syndromes name. -/
def columnError (syn : List Nat) (k : Nat) : Nat :=
  unsymbols ((List.range 8).map (columnValue syn k)) * 256 ^ (8 * k)

/-- The first column that fits the syndromes, if any. -/
def findColumn (syn : List Nat) : Option Nat := (List.range 10).find? (columnFits syn)

/-- The poison marker P: c0 = 0xA5, c8 = 0x5A (R368). -/
def poisonMark : Nat := 0xA5 + 0x5A * 256 ^ 8

/-- What the decoder finds (R367). `corrected` carries the column and the error removed. -/
inductive Decoded where
  | clean
  | corrected (col : Nat) (e : Nat)
  | poisoned (col : Option Nat)
  | uncorrectable
deriving DecidableEq, Repr

/-- The decoder: the tests of R367 in order, on the error word of a line. -/
def decodeLine (err : Nat) : Decoded :=
  if err = 0 then .clean
  else
    let syn := syndromes err
    if syn.all (· == 0) then .clean
    else match findColumn syn with
      | some k => .corrected k (columnError syn k)
      | none =>
        let synP := syndromes (err ^^^ poisonMark)
        if synP.all (· == 0) then .poisoned none
        else match findColumn synP with
          | some k => .poisoned (some k)
          | none => .uncorrectable

/-- One byte step of the CRC-64 of R315: eight shifts, bit 7 first. -/
def crc64Bits : Nat → Nat → Nat
  | 0, c => c
  | n + 1, c => crc64Bits n (if c / 2 ^ 63 % 2 = 1 then (2 * c % 2 ^ 64) ^^^ 0x42F0E1EBA9EA3693 else 2 * c % 2 ^ 64)

/-- The CRC-64 of R315 over a byte string with a 17-bit seed. -/
def crc64 (seed : Nat) (bs : List Byte) : Nat :=
  (bs.foldl (fun c b => crc64Bits 8 (c ^^^ (b.toNat * 2 ^ 56))) ((2 ^ 64 - 1) ^^^ (seed * 2 ^ 32 % 2 ^ 64)))
    ^^^ (2 ^ 64 - 1)

end Sys2Proof.Machine
end

