-- ==== Sys2Proof/Machine/Lines.lean ====
section
/-! DEFINITION. Pool memory line by line: physical addresses (R19, R20, R81), the interleave (R363, R364), and reads and
writes of lines with what the decoder finds (R365-R371, R390). The plaintext of a line is kept; a line's departure from its
codeword is the XOR word of 80 symbols in `mem.err`, and a line never listed there decodes clean. Encryption (R122) is
transparent to every reader and writer of this model (log 7). -/
namespace Sys2Proof.Machine

/-! ## Addresses -/

/-- The tier of a PPA: cream? -/
def ppaCream (a : Nat) : Bool := decide (2 ^ 44 ≤ a)
def ppaPart (a : Nat) : Nat := if ppaCream a then field a 38 36 else field a 43 41
def ppaOff (a : Nat) : Nat := if ppaCream a then a % 2 ^ 36 else a % 2 ^ 41
/-- The PPA of an offset of a partition's tier. -/
def ppaOf (cream : Bool) (p off : Nat) : Nat := if cream then 2 ^ 44 + p * 2 ^ 36 + off else p * 2 ^ 41 + off

def gib : Nat := 2 ^ 30
def creamRows (s : State) : Nat := if s.fuses.hb then 24576 else 32768
/-- Bytes of backed cream of a partition (R20). -/
def creamSize (s : State) : Nat := 2 ^ 19 * 3 * creamRows s
/-- The first channel block of a partition: what training found (R387) holds for all four alike (R360). -/
def chan0 (s : State) (p : Nat) : MemBlk := (s.part p).chans.headD {}
/-- Bytes of backed skim of a partition (R363). -/
def skimSize (s : State) (p : Nat) : Nat := 2 ^ 21 * (chan0 s p).ranks * (chan0 s p).rows
def tierSize (s : State) (cream : Bool) (p : Nat) : Nat := if cream then creamSize s else skimSize s p
/-- The system area at the top of a tier (R81). -/
def sysArea (cream : Bool) : Nat := if cream then 256 * 2 ^ 20 else gib
/-- Bytes that ranges can map. -/
def mappable (s : State) (cream : Bool) (p : Nat) : Nat := tierSize s cream p - sysArea cream
/-- Is the PPA backed (R20)? The bits of a PPA that name nothing are 0: of a cream PPA, bits 43 to 39 (R19). -/
def backed (s : State) (a : Nat) : Bool :=
  decide (a < 2 ^ 45) && (!ppaCream a || decide (a % 2 ^ 44 < 2 ^ 39)) && decide (ppaOff a < tierSize s (ppaCream a) (ppaPart a)) && decide (ppaPart a < 8)

/-- May the memory of this tier be accessed now: partition in service, skim not parked (R386, R437)? -/
def tierUp (s : State) (cream : Bool) (p : Nat) : Bool := s.online p && (cream || !(s.part p).parked)

/-! ## DRAM coordinates -/

/-- The coordinates of a line: its counter block (channel d, or 32 + 32h + n), subchannel, rank or stack ID, row, bank,
column (R363, R364). -/
structure Coord where
  cnt  : Nat
  sub  : Nat
  rank : Nat
  row  : Nat
  bank : Nat
  col  : Nat
deriving DecidableEq, Repr

def coordOf (s : State) (a : Nat) : Coord :=
  let p := ppaPart a
  let l := ppaOff a / 64
  if ppaCream a then
    let q := l / 2 ^ 13
    let row := q % creamRows s
    { cnt := 32 + 32 * p + ((l % 32) ^^^ (q % 32)), sub := 0, rank := q / creamRows s, row := row
      bank := (l / 2 ^ 9 % 16) ^^^ (row % 16), col := l / 32 % 16 }
  else
    let rows := (chan0 s p).rows
    let q := l / 2 ^ 15
    let row := q % rows
    let sl := (l % 8) ^^^ (q % 8)
    { cnt := 4 * p + sl / 2, sub := sl % 2, rank := q / rows, row := row
      bank := (l / 2 ^ 10 % 32) ^^^ (row % 32), col := l / 8 % 128 }

/-- The memory stop of a line (R149): index j of the partition. -/
def stopOf (s : State) (a : Nat) : Nat :=
  let c := (coordOf s a).cnt
  if ppaCream a then (c - 32) % 32 / 4 else 8 + c % 4 / 2
/-- The class-queue base of a line's stop (R149). -/
def stopQueue (s : State) (a : Nat) : Nat := 112 + (10 * ppaPart a + stopOf s a) * 8

/-- The channel or stack block that governs a line. -/
def blkOf (s : State) (a : Nat) : MemBlk :=
  if ppaCream a then (s.part (ppaPart a)).stack else (s.part (ppaPart a)).chans.getD ((coordOf s a).cnt % 4) {}
def setBlkOf (s : State) (a : Nat) (b : MemBlk) : State :=
  let p := ppaPart a
  let x := s.part p
  if ppaCream a then s.setPart p { x with stack := b }
  else s.setPart p { x with chans := x.chans.set ((coordOf s a).cnt % 4) b }

def State.cnt (s : State) (k : Nat) : MemCnt := tabGet {} s.mem.cnts k
def State.setCnt (s : State) (k : Nat) (c : MemCnt) : State :=
  { s with mem := { s.mem with cnts := tabSet {} s.mem.cnts k c } }

/-- The PPA of a line at DRAM coordinates: the mapping of R363 or R364 turned round. -/
def coordPpa (s : State) (c : Coord) : Nat :=
  if c.cnt < 32 then
    let q := c.rank * (chan0 s (c.cnt / 4)).rows + c.row
    ppaOf false (c.cnt / 4) (64 * (q * 2 ^ 15 + (c.bank ^^^ (c.row % 32)) * 2 ^ 10 + c.col * 8 + ((2 * (c.cnt % 4) + c.sub) ^^^ (q % 8))))
  else
    let q := c.rank * creamRows s + c.row
    ppaOf true ((c.cnt - 32) / 32)
      (64 * (q * 2 ^ 13 + (c.bank ^^^ (c.row % 16)) * 2 ^ 9 + c.col * 32 + (((c.cnt - 32) % 32) ^^^ (q % 32))))

/-! ## Remap (R374, R375) -/

/-- The coordinates that a remap entry of counter block `k` names (R390). -/
def Remap.coord (k : Nat) (r : Remap) : Coord :=
  let v := r.lo.toNat
  if k < 32 then { cnt := k, sub := field v 31 31, rank := r.rank, row := field v 30 12, bank := field v 11 7, col := field v 6 0 }
  else { cnt := k, sub := 0, rank := r.rank, row := field v 30 12, bank := field v 10 7, col := field v 3 0 }
/-- Spare `i` of counter block `k`: in the top stripe, of the highest bank (R374). -/
def spareCoord (s : State) (k i : Nat) : Coord :=
  if k < 32 then
    let b := chan0 s (k / 4)
    { cnt := k, sub := i % 2, rank := b.ranks - 1, row := b.rows - 1, bank := 31, col := 112 + i / 2 }
  else { cnt := k, sub := 0, rank := 2, row := creamRows s - 1, bank := 15, col := i }
/-- Where the line of a PPA is held, as the PPA of that place: its own DRAM coordinates, or the spare of the active remap entry that names
them (R375). -/
def lineAt (s : State) (a : Nat) : Nat :=
  let c := coordOf s a
  match (s.cnt c.cnt).remaps.find? fun e => e.2.valid && e.2.coord c.cnt == c with
  | some (i, _) => coordPpa s (spareCoord s c.cnt i)
  | none => a / 64 * 64
/-- The active remap entries: the PPA whose line each redirects, and the place of its spare. -/
def redirects (s : State) : List (Nat × Nat) :=
  s.mem.cnts.flatMap fun k => (k.2.remaps.filter (·.2.valid)).map fun e => (coordPpa s (e.2.coord k.1), coordPpa s (spareCoord s k.1 e.1))
/-- The PPA of the byte that is held at a place. -/
def heldAt (s : State) (a : Nat) : Nat := match (redirects s).find? fun e => e.2 == a / 64 * 64 with
  | some e => e.1 + a % 64
  | none => a

/-! ## Contents -/

def lineErr (s : State) (a : Nat) : Nat := (tabGet 0 s.mem.err (lineAt s a / 64)).toNat
def setErr (s : State) (a e : Nat) : State :=
  { s with mem := { s.mem with err := tabSet 0 s.mem.err (lineAt s a / 64) (BitVec.ofNat 640 e) } }
def rawLine (s : State) (a : Nat) : List Byte := memGetL s.mem.bytes (lineAt s a) 64
/-- Puts bytes within the line of `a`. -/
def putBytes (s : State) (a : Nat) (bs : List Byte) : State :=
  { s with mem := { s.mem with bytes := memPutL s.mem.bytes (lineAt s a + a % 64) bs } }

/-- Lines held in a stop's stream buffer (R134), least recently used granule first. -/
def streamLines (s : State) (q : Nat) : List Nat := tabGet [] s.qos.streamBuf q
/-- A write to a buffered line removes it (R134). -/
def unbuffer (s : State) (a : Nat) : State :=
  let q := stopQueue s a
  { s with qos := { s.qos with
    streamBuf := tabSet [] s.qos.streamBuf q ((streamLines s q).filter (· != a / 64)) } }

/-- Writes the poison marker: all symbols 0 but the marker's (R368). -/
def poisonLine (s : State) (a : Nat) : State :=
  setErr (putBytes (unbuffer s a) (a / 64 * 64) (List.replicate 64 0)) a poisonMark

/-- Counts a correction in a column (R371, R390). -/
def countCe (s : State) (a col : Nat) : State :=
  let co := coordOf s a
  let c := s.cnt co.cnt
  let k := if ppaCream a then col else 10 * co.sub + col
  let n := tabGet 0 c.ceCol k
  s.setCnt co.cnt { c with
    ce := satAdd 32 c.ce 1, ceCol := tabSet 0 c.ceCol k (satAdd 32 n 1)
    ovf := c.ovf ||| BitVec.ofNat 3 (flag (satOvf 32 c.ce 1) 0 ||| flag (satOvf 32 n 1) 2) }

/-- The columns an error word touches. -/
def errColumns (e : Nat) : List Nat := (List.range 10).filter fun k => e / 256 ^ (8 * k) % 256 ^ 8 != 0

/-- An uncorrectable line (R371): marker in place, counted, logged in `DMC_UE_LOG`, and a fault of the line (R426). -/
def uncorrectableLine (s : State) (a : Nat) (scrub : Bool) : State :=
  let co := coordOf s a
  let cols := errColumns (lineErr s a)
  let colN := match cols with
    | [k] => k
    | _ => 15
  let s := poisonLine s a
  let c := s.cnt co.cnt
  let l := ppaOff a / 64
  let tgt := if ppaCream a then (co.cnt - 32) % 32 else co.sub
  let log := l % 2 ^ 32 + 2 ^ 32 * (l / 2 ^ 32 % 8 + 16 * colN + 256 * tgt + flag scrub 13)
  let s := s.setCnt co.cnt { c with
    ue := satAdd 32 c.ue 1, ueLog := BitVec.ofNat 64 log, ueValid := true
    ovf := c.ovf ||| BitVec.ofNat 3 (flag (satOvf 32 c.ue 1) 1) }
  raiseFault s (unitOf 8 co.cnt) 1 colN (BitVec.ofNat 64 (a / 64 * 64)) 3

/-- What a read of a line gives: its bytes, or none where the line is poisoned or was found uncorrectable (R371). -/
def readLine (s : State) (a : Nat) (scrub : Bool := false) : Option (List Byte) × State :=
  match decodeLine (lineErr s a) with
  | .clean =>
    -- a word with all syndromes 0 is a codeword: its data is what is delivered
    let w := leNat (rawLine s a) ^^^ (lineErr s a / 256 ^ 16)
    (some (leBytes 64 w), s)
  | .corrected k e =>
    let w := leNat (rawLine s a) ^^^ ((lineErr s a ^^^ e) / 256 ^ 16)
    let s1 := corrected (countCe s a k) (unitOf 8 (coordOf s a).cnt) 1 k (BitVec.ofNat 64 (a / 64 * 64))
    let s2 := if scrub || (blkOf s a).wbOnCe
      then setErr (putBytes s1 (a / 64 * 64) (leBytes 64 w)) a 0 else s1
    (some (leBytes 64 w), s2)
  | .poisoned k =>
    let s1 := match k with
      | some k => corrected (countCe s a k) (unitOf 8 (coordOf s a).cnt) 1 k (BitVec.ofNat 64 (a / 64 * 64))
      | none => s
    (none, if scrub && k.isSome then poisonLine s1 a else s1)
  | .uncorrectable => (none, uncorrectableLine s a scrub)

/-- Applies an armed injection to a line just written (R390): MASK on each symbol of the column, and of the next. -/
def injectOn (s : State) (a : Nat) : State :=
  let b := blkOf s a
  let co := coordOf s a
  let tgt := if ppaCream a then (co.cnt - 32) % 32 else co.sub
  if b.injMask = 0 || b.injTgt != tgt then s
  else
    let colMask : Nat → Nat := fun k => unsymbols (List.replicate 8 b.injMask.toNat) * 256 ^ (8 * (k % 10))
    let e := colMask b.injCol ^^^ (if b.injTwo then colMask (b.injCol + 1) else 0)
    setErr (setBlkOf s a { b with injMask := 0 }) a e

/-- The mixing function of R404. -/
def mix64 (x : Nat) : Nat := (x ^^^ (x / 2 ^ 29)) * 0xBF58476D1CE4E5B9 % 2 ^ 64

/-- The PPA at an offset of extents (PPA, bytes) that follow one another. -/
def extAt : List (Nat × Nat) → Nat → Nat
  | [], o => o
  | (p, n) :: t, o => if o < n then p + o else extAt t (o - n)
/-- The offset at which a PPA lies in them. -/
def extOff : List (Nat × Nat) → Nat → Option Nat
  | [], _ => none
  | (p, n) :: t, a => if p ≤ a && decide (a < p + n) then some (a - p) else (extOff t a).map (n + ·)
/-- Does a PPA lie in the directory of a window that is not free? A write of a requester there is an isolation refusal, CAUSE 2 (R295). -/
def inDir (s : State) (ppa : Nat) : Bool := s.coh.wins.any fun w => w.2.state != 0 && (extOff w.2.dirExt ppa).isSome

/-- Adds a line written on behalf of a command of the running digest interval to WD, and notes its range (R404, R407).
The DIR regions of windows are left out. -/
def digestWrite (s : State) (a : Nat) (bs : List Byte) : State :=
  match s.mir.cur with
  | none => s
  | some n =>
    let line := a / 64 * 64
    if inDir s line then s
    else
      let x := mix64 (crc64 0 (leBytes 8 line ++ padTo 64 bs))
      let rid := (s.xlt.dirA.find? fun e => decide (e.2.ppa ≤ line) && decide (line < e.2.ppa + 4096 * e.2.lenG)).map (·.1)
      { s with mir := { s.mir with intervals := s.mir.intervals.map fun i =>
          if i.n != n then i
          else match rid with
            | none => { i with wd := i.wd + BitVec.ofNat 64 x }
            | some r => { i with
                used := i.used ||| BitVec.ofNat 8 (2 ^ ppaPart line)
                wd := i.wd + BitVec.ofNat 64 x
                ranges := if i.ranges.contains r || decide (1024 ≤ i.ranges.length) then i.ranges else r :: i.ranges
                wide := i.wide || (!i.ranges.contains r && decide (1024 ≤ i.ranges.length)) } } }

/-- A write of a whole line on behalf of a requester or an operation: a clean codeword, then any injection (R368, R390). -/
def writeLine (s : State) (a : Nat) (bs : List Byte) : State :=
  injectOn (setErr (putBytes (unbuffer (digestWrite s a bs) a) (a / 64 * 64) (padTo 64 bs)) a 0) a

/-- A write of part of a line (R368, R382): merged with the line's contents; none where the line is poisoned. -/
def mergeLine (s : State) (a : Nat) (bs : List Byte) : Option State × State :=
  match readLine s a with
  | (some old, s1) =>
    let o := a % 64
    (some (writeLine s1 a (old.take o ++ bs ++ old.drop (o + bs.length))), s1)
  | (none, s1) => (none, s1)

/-- Lines of the device's own that are written as zeros with valid check symbols (R109, R386, R436), those held in spares among them. -/
def zeroSpan (s : State) (lo n : Nat) : State :=
  let spares := ((redirects s).filter fun e => decide (lo ≤ e.1) && decide (e.1 < lo + n)).map (·.2)
  { s with mem := { s.mem with
    bytes := s.mem.bytes.filter fun e => !(decide (lo ≤ e.1) && decide (e.1 < lo + n)) && !spares.contains (e.1 / 64 * 64)
    err := s.mem.err.filter fun e => !(decide (lo ≤ 64 * e.1) && decide (64 * e.1 < lo + n)) && !spares.contains (64 * e.1) }
           qos := { s.qos with streamBuf := (s.qos.streamBuf.map fun e =>
             (e.1, e.2.filter fun l => !(decide (lo ≤ 64 * l) && decide (64 * l < lo + n)))).filter fun e => e.2 != [] } }

end Sys2Proof.Machine
end

