-- ==== Sys2Proof/Machine/CohOps.lean ====
section
/-! DEFINITION. The arbiter of a coherent window (R293-R306): the directory, snoops, fills, transactions, and taking a window
down. Agent number 64 stands for the device agent (R301). -/
namespace Sys2Proof.Machine

/-- A directory entry (R294). -/
structure DirE where
  st   : Nat
  ptrs : List Nat
deriving DecidableEq, Repr

def decodeDir (x : Nat) : DirE :=
  let n := match x % 4 with
    | 1 => field x 28 26
    | 2 => 1
    | _ => 0
  { st := x % 4, ptrs := (List.range n).map fun i => x / 2 ^ (2 + 6 * i) % 64 }

def encodeDir (e : DirE) : Nat :=
  let p := (List.range e.ptrs.length).foldl (fun x i => x + e.ptrs.getD i 0 * 2 ^ (2 + 6 * i)) 0
  e.st + p + (if e.st = 1 then e.ptrs.length * 2 ^ 26 else 0)

/-- A write by the device itself: a clean codeword, no injection (R390). -/
def devWrite (s : State) (a : Nat) (bs : List Byte) : State :=
  let (old, s) := readLine s a
  match old with
  | some b => setErr (putBytes s (a / 64 * 64) (b.take (a % 64) ++ bs ++ b.drop (a % 64 + bs.length))) a 0
  | none => s

/-- Reads the directory entry of a line; none where its line is bad (R304 cause 3). -/
def dirRead (s : State) (w : Window) (line : Nat) : Option DirE × State :=
  let a := extAt w.dirExt (4 * line)
  match readLine s a with
  | (some bs, s1) => (some (decodeDir (leAt bs (a % 64) 4)), s1)
  | (none, s1) => (none, s1)
def dirWrite (s : State) (w : Window) (line : Nat) (e : DirE) : State :=
  devWrite s (extAt w.dirExt (4 * line)) (leBytes 4 (encodeDir e))

/-- Writes every entry of the directory as UNCACHED (R308, R310). -/
def dirClear (s : State) (w : Window) : State := w.dirExt.foldl (fun s e => zeroSpan s e.1 e.2) s

/-- Sends a coherence message to an agent: snoops on credit type 3, everything else on type 4 (R297, R322). The message's
bytes are a DESIGN CHOICE (log 12): the manual gives its fields and no layout. -/
def cohBytes (code win agent line txn token : Nat) (data : Option (List Byte)) (poison : Bool) : List Byte :=
  [BitVec.ofNat 8 code, BitVec.ofNat 8 win, BitVec.ofNat 8 agent, if poison then 1 else 0] ++ leBytes 4 line
    ++ leBytes 2 txn ++ leBytes 2 token ++ data.getD []
def sendCoh (s : State) (wi : Nat) (code agent line txn token : Nat) (data : Option (List Byte)) (poison : Bool) : State :=
  match (s.win wi).agents[agent]? with
  | none => s
  | some r => s.sendPkt { ty := if code = 0xC || code = 0xD then 3 else 4, rank := r, ptype := 6, tc := 3, txn := 0
                          body := cohBytes code wi agent line txn token data poison }

/-- Adds to a counter of a window with its overflow flag (R311). -/
def cntReq (s : State) (wi : Nat) : State :=
  let w := s.win wi
  s.setWin wi { w with reqs := satAdd 32 w.reqs 1, ovf := w.ovf || satOvf 32 w.reqs 1 }
def cntRetry (s : State) (wi : Nat) : State :=
  let w := s.win wi
  s.setWin wi { w with retries := satAdd 32 w.retries 1, ovf := w.ovf || satOvf 32 w.retries 1 }
def cntSnoop (s : State) (wi : Nat) : State :=
  let w := s.win wi
  s.setWin wi { w with snoops := satAdd 32 w.snoops 1, ovf := w.ovf || satOvf 32 w.snoops 1 }

/-- Takes the items that `f` picks from every scheduling point. -/
def dropItems (s : State) (f : QItem → Bool) : State :=
  { s with qos := { s.qos with points := tabMapD {} (fun _ x => x.drop f) s.qos.points } }
/-- The message that an item of a window is. -/
def QItem.cohOf (i : QItem) (wi : Nat) : Option CohMsg := match i.work with
  | .coh _ m => if m.win = wi then some m else none
  | _ => none
/-- Requests of a window's agents that wait at memory stops. -/
def queuedCoh (s : State) (wi : Nat) : List CohMsg := s.qos.points.flatMap fun e => e.2.items.filterMap (·.cohOf wi)
/-- Answers DOWN to them. -/
def downQueued (s : State) (wi : Nat) : State :=
  dropItems ((queuedCoh s wi).foldl (fun s m => sendCoh s wi 0xF m.agent m.line m.txn 0 none false) s) fun i => (i.cohOf wi).isSome

/-- Takes a window down (R305): state, cause, INT leaf; every open transaction of an agent is answered DOWN. TIMEOUT and
PROTOCOL are faults of the window (R421). A CLOSING window stays to be freed by its close (R306). -/
def windowDown (s : State) (wi cause : Nat) : State :=
  let w := s.win wi
  if w.state != 1 && w.state != 2 then s
  else
    let s := w.trans.foldl (fun s t =>
      if t.2.agent < 64 then sendCoh s wi 0xF t.2.agent t.1 t.2.txn 0 none false else s) s
    let s := downQueued (w.waits.foldl (fun s x => sendCoh s wi 0xF x.agent x.line x.txn 0 none false) s) wi
    let s := s.setWin wi { w with state := 3, cause := cause, trans := [], tokens := [], waits := [], discards := [] }
    let s := { s with
      coh := { s.coh with downEvents := satAdd 32 s.coh.downEvents 1 }
      intr := { s.intr with cohDown := s.intr.cohDown ||| BitVec.ofNat 64 (2 ^ wi) } }
    if cause = 1 || cause = 2 then raiseFault s (unitOf 0x10 wi) 0x0F 0 0 3 else s

/-- The line of the span in memory: its PPA. -/
def winLine (w : Window) (line : Nat) : Nat := extAt w.ext (64 * line)

/-- Sends a fill in S, E, or the grant of an upgrade (R299); a bad line of the span fills with POISON (R304). -/
def sendFill (s : State) (wi code agent line txn : Nat) : State :=
  if code = 0xA then sendCoh s wi code agent line txn 0 none false
  else match readLine s (winLine (s.win wi) line) with
    | (some bs, s1) => sendCoh s1 wi code agent line txn 0 (some bs) false
    | (none, s1) => sendCoh s1 wi code agent line txn 0 (some (List.replicate 64 0)) true

/-- Adds a sharer (R294): a fifth makes BROADCAST. -/
def addSharer (e : DirE) (r : Nat) : DirE :=
  if e.st = 3 then e
  else if e.ptrs.contains r then { e with st := 1 }
  else if e.ptrs.length < 4 then { st := 1, ptrs := e.ptrs ++ [r] }
  else { st := 3, ptrs := [] }

/-- Answers an accepted request whose snoops are all answered (R299, R301), with the entry as it stood when it was accepted. -/
def serveReq (s : State) (wi line : Nat) (t : Trans) (e : DirE) : State :=
  let w := s.win wi
  let r := t.agent
  let dev := r == 64
  if t.code = 1 then
    if e.st = 2 && e.ptrs != [r] then
      -- SNP_SHARE was answered: {o, r}, or {r} where the owner had nothing; the device agent is never recorded
      let keep := e.ptrs.filter t.acked.contains
      let e1 : DirE := if keep = [] then (if dev then { st := 0, ptrs := [] } else { st := 1, ptrs := [r] })
        else (if dev then { st := 1, ptrs := keep } else addSharer { st := 1, ptrs := keep } r)
      let s := dirWrite s w line e1
      if dev then s else sendFill s wi 0x8 r line t.txn
    else if dev then s
    else if e.st = 0 || e.st = 2 then sendFill (dirWrite s w line { st := 2, ptrs := [r] }) wi 0x9 r line t.txn
    else sendFill (dirWrite s w line (addSharer e r)) wi 0x8 r line t.txn
  else if dev then dirWrite s w line { st := 0, ptrs := [] }
  else
    let grant := t.code = 3 && ((e.st = 1 && e.ptrs.contains r) || e.st = 3 || (e.st = 2 && e.ptrs = [r]))
    sendFill (dirWrite s w line { st := 2, ptrs := [r] }) wi (if grant then 0xA else 0x9) r line t.txn

/-- The agents that a request must snoop, and whether the snoop invalidates (R299). -/
def snoopsFor (w : Window) (code r : Nat) (e : DirE) : List Nat × Bool :=
  let others := fun (l : List Nat) => l.filter (· != r)
  match e.st with
  | 0 => ([], false)
  | 2 => (others e.ptrs, code != 1)
  | 1 => if code = 1 then ([], false) else (others e.ptrs, true)
  | _ => if code = 1 then ([], false) else (others (List.range w.agents.length), true)

/-- Accepts a request for a line that has no open transaction (R298, R299). -/
def acceptReq (s : State) (wi line agent code txn : Nat) : State :=
  let s := if agent = 64 then s else cntReq s wi
  match dirRead s (s.win wi) line with
  | (none, s1) => windowDown s1 wi 3
  | (some e, s1) =>
    let (who, inv) := snoopsFor (s1.win wi) code agent e
    let t : Trans := { agent := agent, code := code, txn := txn
                       snoops := who.map fun a => { agent := a, inv := inv, at_ := s1.now } }
    if who = [] then serveReq s1 wi line t e
    else
      let w := s1.win wi
      let s2 := s1.setWin wi { w with trans := tabIns w.trans line t }
      who.foldl (fun s a => cntSnoop (sendCoh s wi (if inv then 0xD else 0xC) a line 0 0 none false) wi) s2

/-- The open window, or closing one, whose span holds a PPA. -/
def winOfPpa (s : State) (a : Nat) : Option (Nat × Window) :=
  s.coh.wins.find? fun e => (e.2.state == 1 || e.2.state == 2) && (extOff e.2.ext a).isSome

/-- An access of the device agent to a line (R301): none where it may go on, else the state in which it waits. -/
def cohDevice (s : State) (a : Nat) (write : Bool) : Bool × State :=
  match winOfPpa s a with
  | none => (true, s)
  | some (wi, w) =>
    let line := (extOff w.ext a).getD 0 / 64
    if (tabFind w.trans line).isSome then (false, s)
    else if w.state = 2 then (true, s)
    else
      let s1 := acceptReq s wi line 64 (if write then 2 else 1) 0
      -- served at once where nothing had to be snooped (or the window has just gone down)
      ((tabFind (s1.win wi).trans line).isNone, s1)

end Sys2Proof.Machine
end

