-- ==== Sys2Proof/Machine/Meters.lean ====
section
/-! DEFINITION. Meters: two-rate three-colour markers, colour-blind (R135-R139). Buckets hold thousandths of a byte, so that
a rate of one MB/s is one unit per ns. Colours: 1 green, 2 yellow, 3 red. -/
namespace Sys2Proof.Machine

/-- Accrues tokens up to `now` (R136). -/
def Meter.fill (m : Meter) (now : Nat) : Meter :=
  { m with
    tc := min (m.cbs * 1024000) (m.tc + m.cir * (now - m.last))
    tp := min (m.pbs * 1024000) (m.tp + m.pir * (now - m.last)), last := now }

/-- Marks an item of `b` bytes at `now`: its colour, and the meter afterwards (R136). -/
def Meter.mark (m : Meter) (now b : Nat) : Nat × Meter :=
  if m.unmetered then (1, m)
  else
    let m := m.fill now
    if m.tp < 1000 * b then (3, { m with red := satAdd 32 m.red 1 })
    else if m.tc < 1000 * b then (2, { m with tp := m.tp - 1000 * b, yellow := satAdd 32 m.yellow 1 })
    else (1, { m with tp := m.tp - 1000 * b, tc := m.tc - 1000 * b })

/-- Charges a reserved item: both buckets fall, never below 0, and nothing is marked (R139). -/
def Meter.reserve (m : Meter) (now b : Nat) : Meter :=
  if m.unmetered then m
  else
    let m := m.fill now
    { m with tp := m.tp - 1000 * b, tc := m.tc - 1000 * b }

/-- The meter of a host identity (R113). -/
def meterOf (s : State) (h : Nat) : Nat := match s.host h with
  | some e => e.meter
  | none => 0

/-- Charges an unreserved item to a host's meter (R137, R138): its colour; red items are counted. -/
def chargeItem (s : State) (h b : Nat) : Nat × State :=
  let (col, m) := (s.meter (meterOf s h)).mark s.now b
  let s := s.setMeter (meterOf s h) m
  (col, if col = 3 then { s with qos := { s.qos with red := satAdd 32 s.qos.red 1 } } else s)

/-- Charges a reserved item to a host's meter (R139). -/
def chargeReserved (s : State) (h b : Nat) : State :=
  s.setMeter (meterOf s h) ((s.meter (meterOf s h)).reserve s.now b)

end Sys2Proof.Machine
end

