-- ==== Sys2Proof/Machine/Xlt.lean ====
section
/-! DEFINITION. Translation: rights (R84), the walks (R88, R519), the range cache (R87, R90, R91, R94), and accesses to
requester addresses, with moves (R102) and gates (R104) in progress. -/
namespace Sys2Proof.Machine

/-- Rights as bits: [0] read, [1] write, [2] atomic (R83, R101). -/
abbrev Rights := BitVec 3
def rRead : Rights := 1
def rWrite : Rights := 2
def rAtomic : Rights := 4

/-! ## The isolation table (R115, R116) -/

/-- The two buckets of a grant (R115). -/
def bucket0 (h r : Nat) : Nat := ((r * 0x9E3779B1 % 2 ^ 32) ^^^ (h * 8)) / 2 ^ 13
def bucket1 (h r : Nat) : Nat := bucket0 h r ^^^ ((h * 0x85EBCA6B % 2 ^ 32 / 2 ^ 13) ||| 1)
/-- The slots of a pair's buckets: slot = 8 × bucket + place. -/
def grantSlots (h r : Nat) : List Nat :=
  (List.range 8).map (8 * bucket0 h r + ·) ++ (List.range 8).map (8 * bucket1 h r + ·)
/-- The slot that holds a pair's grant. -/
def grantSlot (t : Tab Grant) (h r : Nat) : Option Nat :=
  (grantSlots h r).find? fun i => match tabFind t i with
    | some g => g.host == h && g.rid == r
    | none => false
/-- The rights a table grants a pair; no grant, no rights (R116). -/
def grantRights (t : Tab Grant) (h r : Nat) : Rights := match grantSlot t h r with
  | some i => match tabFind t i with
    | some g => g.rights
    | none => 0
  | none => 0

/-! ## Stage 2 -/

/-- The sorted index of a directory: entries by IA_START ascending (R82); IA spans never overlap (R80). -/
def covers (e : RangeE) (ia : Nat) : Bool := decide (e.iaStart ≤ ia) && decide (ia < e.iaStart + 4096 * e.lenG)
/-- The range that covers an IA: its RANGE_ID and entry (R87 step 3). -/
def findRange (t : Tab RangeE) (ia : Nat) : Option (Nat × RangeE) := t.find? fun e => covers e.2 ia

/-- Stage 2 alone for host `h` (R84 without stage 1, R98): PPA, RANGE_ID and rights; or the CAUSE of R121. -/
def stage2 (s : State) (h ia : Nat) (acc : Rights) : Except Nat (Nat × Nat × RangeE × Rights) :=
  match findRange s.xlt.dirA ia with
  | none => .error 0
  | some (rid, e) =>
    let g := grantRights s.iso.grantsA h rid
    if acc &&& g != acc then .error 1
    else if acc &&& e.ceil != acc then .error 2
    else .ok (e.ppa + (ia - e.iaStart), rid, e, g &&& e.ceil)

/-- The directory entry of a RANGE_ID. -/
def State.range (s : State) (rid : Nat) : Option RangeE := tabFind s.xlt.dirA rid

/-! ## Accesses to a granule: moves and gates -/

/-- A running move (R102) or gated PREFETCH (R104) of a range: the command that carries it. -/
def moveOf (s : State) (rid : Nat) : Option Cmd :=
  (s.store.cmds.find? fun e => field e.2.raw.toNat 15 0 == 0x0108 && e.2.aux.headD (2 ^ 20) == rid && e.2.started).map (·.2)
def gateOf (s : State) (rid : Nat) : Option Cmd :=
  (s.store.cmds.find? fun e => field e.2.raw.toNat 15 0 == 0x0109 && e.2.aux.headD (2 ^ 20) == rid
    && e.2.aux.getD 1 0 == 1).map (·.2)

/-- Where an access to `ppa` of range `rid` goes: nothing while the granule is gated; while the range moves, the granules
below the watermark are in the new extent, and writes go to both (R102). -/
inductive Place where
  | held
  | at_ (read : Nat) (writes : List Nat)
deriving DecidableEq, Repr

def place (s : State) (rid ppa : Nat) : Place :=
  match s.range rid with
  | none => .at_ ppa [ppa]
  | some e =>
    let off := ppa - e.ppa
    if e.gated && (match gateOf s rid with
        | some c => -- aux: rid, 1, first byte offset of the destination in the range
          let d := c.aux.getD 2 0
          decide (d + 4096 * c.progress ≤ off) && decide (off < d + 4096 * c.total)
        | none => false) then .held
    else if e.migrating then
      match moveOf s rid with
      | some c => -- aux: rid, old PPA, new PPA
        if off / 4096 < c.progress then .at_ (c.aux.getD 2 0 + off) [c.aux.getD 2 0 + off, ppa] else .at_ ppa [ppa]
      | none => .at_ ppa [ppa]
    else .at_ ppa [ppa]

/-- Does a gate hold the granule of a PPA (R104)? -/
def gated (s : State) (ppa : Nat) : Bool :=
  match s.xlt.dirA.find? fun e => decide (e.2.ppa ≤ ppa) && decide (ppa < e.2.ppa + 4096 * e.2.lenG) with
  | some (rid, _) => place s rid ppa == .held
  | none => false

/-! ## Stage 1 -/

/-- What a stage-1 walk ends as; `held` is a walk that reads a granule which a gate holds (R104). -/
inductive Walk where
  | hit (start lenG : Nat) (rights : Rights) (iaBase : Nat)
  | fault (kind : Nat)
  | offline
  | held
deriving DecidableEq, Repr

/-- Reads one 32-byte stage-1 entry through stage 2 with the read right of the owner, who holds none where its entry is not VALID (R85,
R113, R519). -/
def s1Entry (s : State) (owner table i : Nat) : Except Walk (List Byte) × State :=
  let ia := table + 32 * i
  match (if (s.host owner).isSome then stage2 s owner ia rRead else .error 1) with
  | .error _ => (.error (.fault 1), s)
  | .ok (ppa, rid, _, _) => match place s rid ppa with
    | .held => (.error .held, s)
    | .at_ r _ =>
      if !tierUp s (ppaCream r) (ppaPart r) then (.error .offline, s)
      else match readLine s r with
        | (some bs, s1) => (.ok ((bs.drop (r % 64)).take 32), s1)
        | (none, s1) => (.error (.fault 1), s1)

/-- An address field of a stage-1 entry: bits [51:12] (R85). -/
def s1Addr (e : List Byte) (o : Nat) : Nat := field (leAt e o 8) 51 12 * 4096

/-- The search of R88 over a stage-1 table; `fuel` bounds the probes. -/
def s1Search (owner table addr : Nat) : Nat → State → Nat → Nat → Option (List Byte) → Except Walk (Option (List Byte)) × State
  | 0, s, _, _, hit => (.ok hit, s)
  | fuel + 1, s, lo, n, hit =>
    -- n entries remain from lo
    if n = 0 then (.ok hit, s)
    else
      let mid := lo + (n - 1) / 2
      match s1Entry s owner table mid with
      | (.error w, s1) => (.error w, s1)
      | (.ok e, s1) =>
        if s1Addr e 0 ≤ addr then s1Search owner table addr fuel s1 (mid + 1) (lo + n - (mid + 1)) (some e)
        else s1Search owner table addr fuel s1 lo (mid - lo) hit

/-- The stage-1 walk of a host identity with S1_EN = 1 (R88, R519). -/
def s1Walk (s : State) (e : HostE) (addr : Nat) : Walk × State :=
  match s1Search e.s1Owner e.s1Table addr 17 s 0 e.s1Count none with
  | (.error w, s1) => (w, s1)
  | (.ok none, s1) => (.fault 0, s1)
  | (.ok (some b), s1) =>
    let lenG := leAt b 8 4
    if s1Addr b 0 + 4096 * lenG ≤ addr then (.fault 0, s1)
    else if leAt b 12 4 % 2 = 0 then (.fault 1, s1)
    else (.hit (s1Addr b 0) lenG (BitVec.ofNat 3 (leAt b 12 4 / 2)) (s1Addr b 16), s1)

/-! ## The tables in the system areas (R82, R115, R373)

What the tables say is the same in every copy, and `dirA` and `grantsA` hold it. Each partition's copy is 64-byte lines of its cream
system area, and a line can go bad: `walkLines` are the lines that a stage-2 walk reads, and `tableRead` what becomes of one. The places
of the tables in the system area are a DESIGN CHOICE (log 39). -/

/-- Entries of a directory in ascending IA_START: the sorted index (R82). -/
def sortedIndex (t : Tab RangeE) : List (Nat × RangeE) :=
  let ins : List (Nat × RangeE) → Nat × RangeE → List (Nat × RangeE) := fun l e =>
    l.takeWhile (fun x => decide (x.2.iaStart ≤ e.2.iaStart)) ++ e :: l.dropWhile (fun x => decide (x.2.iaStart ≤ e.2.iaStart))
  t.foldl ins []

/-- The probes of R88 for an IA over an index, and the entry they find last: positions, and the hit. -/
def indexProbes (l : List (Nat × RangeE)) (ia : Nat) : Nat → Nat → Nat → Option Nat → List Nat × Option Nat
  | 0, _, _, hit => ([], hit)
  | fuel + 1, lo, n, hit =>
    if n = 0 then ([], hit)
    else
      let mid := lo + (n - 1) / 2
      let r := match l[mid]? with
        | some (rid, e) => if e.iaStart ≤ ia then indexProbes l ia fuel (mid + 1) (lo + n - (mid + 1)) (some rid)
          else indexProbes l ia fuel lo (mid - lo) hit
        | none => ([], hit)
      (mid :: r.1, r.2)

/-- Byte offsets in the system area of the lines that the stage-2 walk of host `h` at `ia` reads: the index at 64 MiB, the directory at 0,
the two buckets of the isolation table at 96 MiB. -/
def walkLines (s : State) (h ia : Nat) : List Nat :=
  let l := sortedIndex s.xlt.dirA
  let (probes, hit) := indexProbes l ia 21 0 l.length none
  probes.map (fun i => 64 * 2 ^ 20 + 16 * i) ++ match hit with
    | some rid => [32 * rid, 96 * 2 ^ 20 + 64 * bucket0 h rid, 96 * 2 ^ 20 + 64 * bucket1 h rid]
    | none => []

/-- The line at offset `o` of partition `p`'s copy of the tables. -/
def tableLine (s : State) (p o : Nat) : Nat := ppaOf true p (creamSize s - sysArea true + o / 64 * 64)
/-- Reads the line at `o` of the first of the partitions whose copy is good, and rewrites it in those before it whose copy was bad
(R373). -/
def tableRead (o : Nat) : List Nat → State → State
  | [], s => s
  | p :: ps, s => match readLine s (tableLine s p o) with
    | (some _, s1) => s1
    | (none, s1) => setErr (tableRead o ps s1) (tableLine s p o) 0

/-- What a stage-2 walk does to the table lines it reads: nothing where none has an error. -/
def walkTables (s : State) (h ia : Nat) : State :=
  if s.mem.err.isEmpty then s
  else (walkLines s h ia).foldl (fun s o => tableRead o (allParts.filter s.online) s) s

/-! ## The range cache (R87, R91) -/

def State.slice (s : State) (p : Nat) : List RcE := tabGet [] s.xlt.caches p
def State.setSlice (s : State) (p : Nat) (l : List RcE) : State :=
  { s with xlt := { s.xlt with caches := tabSet [] s.xlt.caches p l } }
def rcCovers (h a : Nat) (e : RcE) : Bool :=
  e.host == h && decide (e.start ≤ a) && decide (a < e.start + e.len)
/-- A cache entry of `h` covering `a`: its slice and the entry. -/
def rcFind (s : State) (h a : Nat) : Option (Nat × RcE) :=
  s.xlt.caches.findSome? fun (p, l) => (l.find? (rcCovers h a)).map fun e => (p, e)

def pinnedOf (l : List RcE) : Nat := (l.filter (·.pinned)).length

/-- Inserts an entry at the most recently used end; a full slice loses its least recently used unpinned entry (R91; true
LRU, DESIGN CHOICE of log 8: the manual says pseudo-LRU). -/
def rcInsert (l : List RcE) (e : RcE) : List RcE :=
  let e := { e with pinned := e.pinned && decide (pinnedOf l < 1024) }
  let l := if l.length < 8192 then l else match l.find? (fun x => !x.pinned) with
    | some v => l.erase v
    | none => l
  l ++ [e]

def countHit (s : State) (p : Nat) : State :=
  let c := tabGet {} s.xlt.counts p
  let c := { c with hit := satAdd 32 c.hit 1, hitOvf := c.hitOvf || satOvf 32 c.hit 1 }
  { s with xlt := { s.xlt with counts := tabSet {} s.xlt.counts p c } }
def countMiss (s : State) (p : Nat) : State :=
  let c := tabGet {} s.xlt.counts p
  let c := { c with miss := satAdd 32 c.miss 1, missOvf := c.missOvf || satOvf 32 c.miss 1 }
  { s with xlt := { s.xlt with counts := tabSet {} s.xlt.counts p c } }

/-- Removes the cache entries that satisfy `f` from every slice (R92, R94, R117). -/
def rcRemove (s : State) (f : RcE → Bool) : State :=
  { s with xlt := { s.xlt with caches :=
      (s.xlt.caches.map fun e => (e.1, e.2.filter fun x => !f x)).filter fun e => e.2 != [] } }

/-- What a lookup ends as (R87). -/
inductive Look where
  | ok (ppa rid : Nat)
  | refused (cause : Nat)
  | fault (kind : Nat)
  | offline (p : Nat)
  | held
deriving DecidableEq, Repr

/-- Is `ppa` in the GAL region of a galley? -/
def Galley.holds (g : Galley) (ppa : Nat) : Bool := g.ext.any fun e => decide (e.1 ≤ ppa) && decide (ppa < e.1 + e.2)
/-- Is a write or atomic at `ppa` refused with CAUSE 2: in a DIR region, or in GAL of a galley outside INGEST (R280)? -/
def wrShut (s : State) (ppa : Nat) : Bool := inDir s ppa || s.work.gals.any fun g => g.2.state != 2 && g.2.holds ppa
/-- Do an open galley's GAL region or a window's span or directory lie in the range? It behaves as PIN = 1 (R277, R295). -/
def heldRange (s : State) (e : RangeE) : Bool :=
  let hit := fun (a n : Nat) => !disjointSpans e.ppa (4096 * e.lenG) a n
  s.work.gals.any (fun g => g.2.ext.any fun x => hit x.1 x.2)
    || s.coh.wins.any fun w => w.2.state != 0 && (w.2.ext ++ w.2.dirExt).any fun x => hit x.1 x.2

/-- The combined entry of a stage-2 walk at `ia` over the overlap of the stage-1 entry (start, LEN, IA_BASE, rights), where there is one, and
the range (R87 steps 3 to 6). -/
def combine (s : State) (h a : Nat) (acc : Rights) (ia : Nat) (one : Option (Nat × Nat × Nat × Rights)) : Except Look RcE × State :=
  let s1 := walkTables s h ia
  match stage2 s h ia acc with
  | .error c => (.error (.refused c), s1)
  | .ok (ppa, rid, e, g) =>
    let stop := e.iaStart + 4096 * e.lenG
    let (lo, hi, r1) := match one with
      | none => (e.iaStart, stop, (7 : Rights))
      | some (st, len, iaBase, r1) => (max st (st + (e.iaStart - iaBase)), min (st + len) (st + stop - iaBase), r1)
    if acc &&& r1 != acc then (.error (.fault 2), s1)
    else (.ok { host := h, start := lo, len := hi - lo, ppa := ppa - (a - lo), rights := g &&& r1, rid := rid
                pinned := e.pin || heldRange s e }, s1)

/-- The walk of an access that no cache entry permits (R87 steps 2 to 6). -/
def walkEntry (s : State) (h a : Nat) (acc : Rights) : Except Look RcE × State :=
  match s.host h with
  | none => (.error (.refused 8), s)
  | some he =>
    if !he.s1En then combine s h a acc a none
    else match s1Walk s he a with
      | (.offline, s1) => (.error (.offline 8), s1)
      | (.held, s1) => (.error .held, s1)
      | (.fault k, s1) => (.error (.fault k), s1)
      | (.hit st lenG rights iaBase, s1) => combine s1 h a acc (iaBase + (a - st)) (some (st, 4096 * lenG, iaBase, rights))

/-- Loads a combined entry into the slice of its partition (R87 step 5, R91), which takes none while the partition is out of service; older
entries of the host for `a` go. -/
def rcLoad (s : State) (e : RcE) (a : Nat) : State :=
  let p := ppaPart e.ppa
  if !s.online p then s
  else
    let s := rcRemove s (rcCovers e.host a)
    s.setSlice p (rcInsert (s.slice p) e)

/-- Translates an access by host `h` at requester address `a` (R87). An access that is refused changes nothing (R121). -/
def lookup (s : State) (h a : Nat) (acc : Rights) : Look × State :=
  match rcFind s h a with
  | some (p, e) =>
    if acc &&& e.rights = acc then
      -- used most recently
      let s := s.setSlice p ((s.slice p).erase e ++ [e])
      (.ok (e.ppa + (a - e.start)) e.rid, countHit s p)
    else lookupMiss s h a acc
  | none => lookupMiss s h a acc
where
  /-- A hit without the right takes the walk as well: it decides between a refusal and a fault of KIND 2. -/
  lookupMiss (s : State) (h a : Nat) (acc : Rights) : Look × State :=
    match walkEntry s h a acc with
    | (.error (.refused c), _) => (.refused c, s)
    | (.error w, s1) => (w, s1)
    | (.ok e, s1) =>
      let s2 := rcLoad s1 e a
      (.ok (e.ppa + (a - e.start)) e.rid, if s1.online (ppaPart e.ppa) then countMiss s2 (ppaPart e.ppa) else s2)

/-- The combined entry that an access by `h` at `a` uses, whatever its rights: the cached one, or that of a walk. -/
def extentAt (s : State) (h a : Nat) : Option RcE :=
  match rcFind s h a with
  | some (_, e) => some e
  | none => match (walkEntry s h a 0).1 with
    | .ok e => some e
    | .error _ => none

/-- More extents than a span can have: 2^20 ranges and 65,536 stage-1 entries (R80, R85). -/
def maxExtents : Nat := 2 ^ 21

/-- Re-evaluates which cache entries are pinned, after a galley or window has opened or closed (R91, R277, R295). An entry that was made
unpinned for want of room becomes pinned only when it is loaded again: of a slice, entries newly pinned stop at 1,024. -/
def repin (s : State) : State :=
  let want : RcE → Bool := fun e => match s.range e.rid with
    | some r => r.pin || heldRange s r
    | none => e.pinned
  -- those that stay pinned hold their room before any other
  let slice : List RcE → List RcE := fun l =>
    (l.foldl (fun (q : Nat × List RcE) e =>
      let pin := want e && (e.pinned || decide (q.1 < 1024))
      (if pin && !e.pinned then q.1 + 1 else q.1, { e with pinned := pin } :: q.2))
      ((l.filter fun e => e.pinned && want e).length, [])).2.reverse
  { s with xlt := { s.xlt with caches := tabMap (fun _ l => slice l) s.xlt.caches } }

/-! ## Outcomes of an access by a requester -/

/-- What an access to a span within one line gives. -/
inductive Acc (α : Type) where
  | ok (v : α)
  | held
  | refused (cause : Nat)
  | fault (kind : Nat)
  | offline (p : Nat)
  | poisoned
deriving Repr

/-- Reads `n` bytes at physical address `ppa`, within one line. In the span of an open window the read waits for the owner's
snoop answer (R301). -/
def readAt (s : State) (ppa n : Nat) : Acc (List Byte) × State :=
  if !tierUp s (ppaCream ppa) (ppaPart ppa) then (.offline (ppaPart ppa), s)
  else match cohDevice s ppa false with
    | (false, s1) => (.held, s1)
    | (true, s1) => match readLine s1 ppa with
      | (some bs, s2) => (.ok ((bs.drop (ppa % 64)).take n), s2)
      | (none, s2) => (.poisoned, s2)

/-- Writes bytes at physical address `ppa`, within one line; fewer than 64 bytes are merged (R382). In the span of an open
window every copy is invalidated first (R301). -/
def writeAt (s : State) (ppa : Nat) (bs : List Byte) : Acc Unit × State :=
  if !tierUp s (ppaCream ppa) (ppaPart ppa) then (.offline (ppaPart ppa), s)
  else match cohDevice s ppa true with
    | (false, s1) => (.held, s1)
    | (true, s1) =>
      if bs.length = 64 then (.ok (), writeLine s1 ppa bs)
      else match mergeLine s1 ppa bs with
        | (some s2, _) => (.ok (), s2)
        | (none, s2) => (.poisoned, s2)

/-- A read of a range marked DISPUTED is remembered for the command's status (R407). -/
def seeDisputed (s : State) (rid : Nat) : State :=
  if s.mir.disputed.contains rid then { s with mir := { s.mir with saw := true } } else s

/-- The queue of a line's subchannel or pseudo-channel: 2d + s, or 64 + 32h + n (R381). -/
def lineQueue (s : State) (a : Nat) : Nat :=
  let c := coordOf s a
  if ppaCream a then 32 + c.cnt else 2 * c.cnt + c.sub
/-- Queues a request at a subchannel or pseudo-channel. -/
def pushReq (s : State) (r : ChReq) : State :=
  let q := lineQueue s r.ppa
  let x := tabGet {} s.mem.chq q
  { s with mem := { s.mem with chq := tabSet {} s.mem.chq q { x with reqs := x.reqs ++ [r] } } }

/-- Lines a stop's stream buffer holds: 64 KiB in granules of 4 KiB; a new granule displaces the least recently used, and the granule of
the line becomes the most recently used (R134). -/
def bufferLine (s : State) (ppa : Nat) : State :=
  let q := stopQueue s ppa
  let l := ppa / 64
  let old := streamLines s q
  let mine := old.filter fun x => x / 64 == l / 64
  let rest := old.filter fun x => x / 64 != l / 64
  let grans := (rest.map (· / 64)).eraseDups
  let rest := if 16 ≤ grans.length then rest.filter fun x => x / 64 != grans.headD 0 else rest
  { s with qos := { s.qos with streamBuf := tabSet [] s.qos.streamBuf q (rest ++ mine.filter (· != l) ++ [l]) } }

/-- Is a line on its way into the stream buffer? -/
def fetching (s : State) (line : Nat) : Bool :=
  (tabGet {} s.mem.chq (lineQueue s (64 * line)) : ChanQ).reqs.any fun r => r.ahead && r.line == line
/-- Requests of read-ahead for a line are no longer needed: the line has been read. -/
def fetched (s : State) (line : Nat) : State :=
  let q := lineQueue s (64 * line)
  let x := tabGet {} s.mem.chq q
  { s with mem := { s.mem with chq := tabSet {} s.mem.chq q { x with reqs := x.reqs.filter fun r => !(r.ahead && r.line == line) } } }

/-- A read of a line of a STREAM range (R134) by host `h`: from the stream buffer without a DRAM access; otherwise the line is
read into the buffer, and every later line of its granule that is neither there nor on its way is requested ahead and charged to the
host. -/
def streamRead (h : Nat) (s : State) (ppa n : Nat) : Acc (List Byte) × State :=
  if !tierUp s (ppaCream ppa) (ppaPart ppa) then (.offline (ppaPart ppa), s)
  else
    let line := ppa / 64
    let held := streamLines s (stopQueue s ppa)
    if held.contains line then
      (.ok (((readLine s ppa).1.getD (rawLine s ppa)).drop (ppa % 64) |>.take n), bufferLine s ppa)
    else match readAt s ppa n with
      | (.ok bs, s) =>
        let last := ppa / 4096 * 64 + 63
        let later := (List.range (last - line)).map fun i => line + 1 + i
        let ahead := later.filter fun l => !held.contains l && !fetching s l
        let s := (chargeItem s h (64 * ahead.length)).2
        let s := bufferLine (fetched s line) ppa
        (.ok bs, ahead.foldl (fun s l => pushReq s { line := l, write := false, at_ := s.now, ppa := 64 * l, ahead := true }) s)
      | r => r

/-- Has a range ADVICE = STREAM? -/
def streams (s : State) (rid : Nat) : Bool := match s.range rid with
  | some e => e.stream
  | none => false
/-- How a line of range `rid` is read on behalf of host `h`. -/
def reader (s : State) (h rid : Nat) : State → Nat → Nat → Acc (List Byte) × State :=
  if streams s rid then streamRead h else readAt

/-- Writes to every extent that a write of the granule goes to. -/
def writePlaces (bs : List Byte) : List Nat → State → Acc Unit × State
  | [], s => (.ok (), s)
  | p :: ps, s => match writeAt s p bs with
    | (.ok (), s1) => writePlaces bs ps s1
    | r => r

/-- What a span access ended as: done, or the address of the line at which it stopped and how. -/
inductive Span (α : Type) where
  | ok (v : α)
  | stop (ra : Nat) (why : Acc Unit)
deriving Repr

/-- How an access to a line stopped. -/
def Acc.void {α : Type} : Acc α → Acc Unit
  | .ok _ => .ok ()
  | .held => .held
  | .refused c => .refused c
  | .fault k => .fault k
  | .offline p => .offline p
  | .poisoned => .poisoned
/-- How an access stopped at its lookup. -/
def Look.why : Look → Acc Unit
  | .ok _ _ => .ok ()
  | .held => .held
  | .refused c => .refused c
  | .fault k => .fault k
  | .offline p => .offline p

/-- The offsets in `[a, a + n)` at which its lines begin. -/
def lineCuts (a n : Nat) : List Nat := (List.range ((a % 64 + n + 63) / 64)).map fun i => 64 * i - a % 64

/-- Reads `n` bytes of one granule, line by line: from `a`, whose bytes stand at PPA `r`. -/
def readLines (read : State → Nat → Nat → Acc (List Byte) × State) (a r n : Nat) : List Nat → State → List Byte → Span (List Byte) × State
  | [], s, acc => (.ok acc, s)
  | o :: os, s, acc => match read s (r + o) (min (n - o) (64 - (a + o) % 64)) with
    | (.ok bs, s1) => readLines read a r n os s1 (acc ++ bs)
    | (w, s1) => (.stop (a + o) w.void, s1)

/-- Notes the memory stops of the lines that an access uses, at offsets `cuts` from PPA `r` (R145). -/
def noteStops (s : State) (r : Nat) (cuts : List Nat) : State :=
  let new := (cuts.map fun o => 10 * ppaPart (r + o) + stopOf s (r + o)).filter fun j => !s.qos.used.contains j
  if new = [] then s else { s with qos := { s.qos with used := s.qos.used ++ new.eraseDups } }

/-- Reads `n` bytes at requester address `a` within one granule, which is translated once (R87). -/
def readPart (s : State) (h a n : Nat) : Span (List Byte) × State :=
  match lookup s h a rRead with
  | (.ok ppa rid, s1) => match place s1 rid ppa with
    | .held => (.stop a .held, s1)
    | .at_ r _ => readLines (reader s1 h rid) a r n (lineCuts a n) (noteStops (seeDisputed s1 rid) r (lineCuts a n)) []
  | (w, s1) => (.stop a w.why, s1)

/-- Reads `n` bytes from `a`, granule by granule; `fuel` bounds the granules. -/
def readSpan (h : Nat) : Nat → State → Nat → Nat → List Byte → Span (List Byte) × State
  | 0, s, _, _, acc => (.ok acc, s)
  | fuel + 1, s, a, n, acc =>
    if n = 0 then (.ok acc, s)
    else
      let k := min n (4096 - a % 4096)
      match readPart s h a k with
      | (.ok bs, s1) => readSpan h fuel s1 (a + k) (n - k) (acc ++ bs)
      | r => r

/-- A write within one granule that has been translated: where it goes, and its bytes. -/
structure Writing where
  a      : Nat
  places : List Nat
  bytes  : List Byte
deriving DecidableEq, Repr

/-- Asks the windows for the lines of a granule that is to be written at `p` (R301): the first line that waits. -/
def ownLines (p : Nat) : List Nat → State → Option Nat × State
  | [], s => (none, s)
  | o :: os, s =>
    let (free, s1) := cohDevice s (p + o) true
    let (rest, s2) := ownLines p os s1
    (if free then rest else some o, s2)
def ownPlaces (cuts : List Nat) : List Nat → State → Option Nat × State
  | [], s => (none, s)
  | p :: ps, s =>
    let (x, s1) := ownLines p cuts s
    let (y, s2) := ownPlaces cuts ps s1
    (x.orElse fun _ => y, s2)

/-- Translates a write within one granule (R87), without writing: where it goes, or the line at which it stops. -/
def prepPart (s : State) (h a : Nat) (bs : List Byte) : Span Writing × State :=
  let cuts := lineCuts a bs.length
  match lookup s h a rWrite with
  | (.ok ppa rid, s1) => match cuts.find? fun o => wrShut s1 (ppa + o) with
    | some o => (.stop (a + o) (.refused 2), s)
    | none => match place s1 rid ppa with
      | .held => (.stop a .held, s1)
      | .at_ _ ws => match ws.find? fun p => !tierUp s1 (ppaCream p) (ppaPart p) with
        | some p => (.stop a (.offline (ppaPart p)), s1)
        | none => match ownPlaces cuts ws s1 with
          | (some o, s2) => (.stop (a + o) .held, s2)
          | (none, s2) => (.ok { a := a, places := ws, bytes := bs }, ws.foldl (fun s p => noteStops s p cuts) s2)
  | (w, s1) => (.stop a w.why, s1)

/-- Translates the granules of a write from `a`; `fuel` bounds them. -/
def prepSpan (h : Nat) : Nat → State → Nat → List Byte → List Writing → Span (List Writing) × State
  | 0, s, _, _, acc => (.ok acc, s)
  | fuel + 1, s, a, bs, acc =>
    if bs = [] then (.ok acc, s)
    else
      let k := min bs.length (4096 - a % 4096)
      match prepPart s h a (bs.take k) with
      | (.ok w, s1) => prepSpan h fuel s1 (a + k) (bs.drop k) (acc ++ [w])
      | (.stop ra w, s1) => (.stop ra w, s1)
/-- The same for several spans, each of the identity that writes it. -/
def prepSpans : List (Nat × Nat × List Byte) → State → List Writing → Span (List Writing) × State
  | [], s, acc => (.ok acc, s)
  | (h, a, bs) :: l, s, acc => match prepSpan h (bs.length / 4096 + 2) s a bs acc with
    | (.ok ws, s1) => prepSpans l s1 ws
    | r => r

/-- Writes the lines of a translated granule. -/
def putLines (w : Writing) : List Nat → State → Span Unit × State
  | [], s => (.ok (), s)
  | o :: os, s => match writePlaces ((w.bytes.drop o).take (64 - (w.a + o) % 64)) (w.places.map (· + o)) s with
    | (.ok (), s1) => putLines w os s1
    | (r, s1) => (.stop (w.a + o) r, s1)
def putAll : List Writing → State → Span Unit × State
  | [], s => (.ok (), s)
  | w :: ws, s => match putLines w (lineCuts w.a w.bytes.length) s with
    | (.ok (), s1) => putAll ws s1
    | r => r

/-- Writes several spans as one unit: every granule of them is translated first, so that one which stops leaves nothing written (R69). -/
def writeAs (s : State) (l : List (Nat × Nat × List Byte)) : Span Unit × State :=
  match prepSpans l s [] with
  | (.ok ws, s1) => putAll ws s1
  | (.stop ra w, s1) => (.stop ra w, s1)
def writeMany (s : State) (h : Nat) (l : List (Nat × List Byte)) : Span Unit × State := writeAs s (l.map fun e => (h, e))

/-- Reads or writes a span. -/
def readGran (s : State) (h a n : Nat) : Span (List Byte) × State := readSpan h (n / 4096 + 2) s a n []
def writeGran (s : State) (h a : Nat) (bs : List Byte) : Span Unit × State := writeMany s h [(a, bs)]

/-- Checks an access at step 5 of R53 without any effect on the state (R119, R121): the first granule at `a`. -/
def checkRa (s : State) (h a : Nat) (acc : Rights) : Look :=
  match (lookup s h a acc).1 with
  | .ok ppa rid => if acc &&& (rWrite ||| rAtomic) != 0 && wrShut s ppa then .refused 2 else .ok ppa rid
  | r => r

/-! ## Real-time ports of a memory stop (R384) -/

/-- The queues of the subchannels or pseudo-channels of a line's memory stop (R149). -/
def rtQueues (s : State) (ppa : Nat) : List Nat :=
  let p := ppaPart ppa
  let j := stopOf s ppa
  (List.range 4).map fun i => if j < 8 then 64 + 32 * p + 4 * j + i else 8 * p + 4 * (j - 8) + i
/-- Lines that wait for a real-time port of the stop: what its write buffer holds, or what its read buffer of 64 lines lacks. -/
def rtLevel (s : State) (ppa port : Nat) : Nat :=
  (rtQueues s ppa).foldl (fun n q => n + ((tabGet {} s.mem.chq q).reqs.filter fun r => r.rt == some port).length) 0
/-- The ports enter panic at 48 lines and keep it until 32 (R384). -/
def rtSettle (s : State) (ppa : Nat) : State :=
  let level := (List.range 3).map (rtLevel s ppa)
  let now := fun (x : ChanQ) => (level.zip x.panic).map fun e => decide (48 ≤ e.1) || (e.2 && decide (32 < e.1))
  { s with mem := { s.mem with chq := (rtQueues s ppa).foldl (fun t q =>
      let x := tabGet {} t q
      tabSet {} t q { x with panic := now x }) s.mem.chq } }
/-- A line of real-time traffic waits in the queue of its controller. What it moves was moved by its operation, and later accesses
find that (R382); with its buffer of 64 lines full the line is issued at once (log 31). -/
def rtPush (s : State) (port : Nat) (write : Bool) (ppa : Nat) : State :=
  if 64 ≤ rtLevel s ppa port then s
  else rtSettle (pushReq s { line := ppa / 64, write := write, at_ := s.now, rt := some port, ppa := ppa }) ppa
/-- The lines of a span at requester addresses, where they translate. -/
def rtSpan (s : State) (h port : Nat) (write : Bool) (a n : Nat) : State :=
  (List.range ((a % 64 + n + 63) / 64)).foldl (fun s i => match checkRa s h (max a (64 * (a / 64 + i))) 0 with
    | .ok ppa _ => if backed s ppa then rtPush s port write (ppa / 64 * 64) else s
    | _ => s) s
/-- The real-time port of a write of a hardware opcode: the mirror replay of a standby, or a galley's ingest, reserved or not (R280). -/
def rtPort (s : State) (h a : Nat) : Option Nat :=
  if s.mir.state = 3 then some 2
  else match checkRa s h a 0 with
    | .ok ppa _ => if s.work.gals.any fun g => g.2.state == 2 && g.2.holds ppa then some 0 else none
    | _ => none
def rtWrite (s : State) (h a n : Nat) : State :=
  match rtPort s h a with
  | some p => rtSpan s h p true a n
  | none => s
/-- Is a real-time port in panic at a queue: its level says so, its panic is enabled, and the attention stream is active (R384)? -/
def rtPanic (s : State) (x : ChanQ) (en : BitVec 3) (port : Nat) : Bool :=
  x.panic.getD port false && bitOf en.toNat port
    && (port != 1 || s.store.cmds.any fun e => e.2.raw.toNat % 65536 == 0x0403 && e.2.started)

end Sys2Proof.Machine
end

