-- ==== Sys2Proof/Machine/Replies.lean ====
section
/-! DEFINITION. Commands as words (R39), replies (R47-R51, R61, R76, R145, R146), wait lists (R43, R231), and the end of a
command: signals, reply, slot (R38, R44, R52). -/
namespace Sys2Proof.Machine

/-! ## Command fields (R39) -/

/-- Bytes `[o, o + n)` of a command, little-endian. -/
def cmdB (raw : W512) (o n : Nat) : Nat := raw.toNat / 256 ^ o % 256 ^ n
def opcodeOf (raw : W512) : Nat := cmdB raw 0 2
def tagOf (raw : W512) : Nat := cmdB raw 4 4
def srcOf (raw : W512) : Nat := cmdB raw 8 4
def prioOf (raw : W512) : Nat := cmdB raw 3 1 % 4
def descBit (raw : W512) : Bool := bitOf (cmdB raw 3 1) 2
def fenceBit (raw : W512) : Bool := bitOf (cmdB raw 3 1) 3
def notifyBit (raw : W512) : Bool := bitOf (cmdB raw 3 1) 4
def waitN (raw : W512) : Nat := cmdB raw 12 2 % 8
def sigN (raw : W512) : Nat := cmdB raw 12 2 / 8 % 8
def waitLimit (raw : W512) : Nat := cmdB raw 12 2 / 64 % 256
def retryTok (raw : W512) : Nat := cmdB raw 14 2
/-- The wait and signal entries, as (index, mode) (R42). -/
def entriesAt (raw : W512) (o n : Nat) : List (Nat × Nat) :=
  (List.range n).map fun i => (cmdB raw (o + 2 * i) 2 % 2 ^ 14, cmdB raw (o + 2 * i) 2 / 2 ^ 14)
def waits (raw : W512) : List (Nat × Nat) := entriesAt raw 48 (waitN raw)
def sigs (raw : W512) : List (Nat × Nat) := entriesAt raw 56 (sigN raw)

/-- Parameter bytes: of the descriptor where DESC is 1, otherwise PARAM bytes of the command (R39, R45). -/
def Cmd.par (c : Cmd) (o n : Nat) : Nat := if descBit c.raw then leAt c.desc o n else cmdB c.raw o n

/-- Status codes of R51. -/
def stOK : Nat := 0x00
def stACCEPTED : Nat := 0x01
def stSUSPENDED : Nat := 0x02
def stCANCELLED : Nat := 0x03
def stACCESS : Nat := 0x10
def stFAULT_PENDING : Nat := 0x11
def stFAULT_TIMEOUT : Nat := 0x12
def stWAIT_EXPIRED : Nat := 0x13
def stRESOURCES : Nat := 0x20
def stENERGY : Nat := 0x21
def stVERSION : Nat := 0x22
def stPOISONED : Nat := 0x30
def stHALTED : Nat := 0x31
def stWINDOW : Nat := 0x40
def stOFFLINE : Nat := 0x41
def stDISPUTED : Nat := 0x42
def stRETRY : Nat := 0x50
def stOPCODE : Nat := 0x60
def stMALFORMED : Nat := 0x61

/-- Highest permitted priority of a channel (R59), and the effective priority of a command. -/
def chanPrioMax (s : State) : Chan → Nat
  | .ring n => (s.ring n).prioMax
  | .rank r => (s.chan (.rank r)).prioMax
def effPrio (s : State) (ch : Chan) (raw : W512) : Nat := max (prioOf raw) (chanPrioMax s ch)
def isClamped (s : State) (ch : Chan) (raw : W512) : Bool := decide (prioOf raw < chanPrioMax s ch)

/-- The traffic class of a command's unreserved items (R140). -/
def tcOfPrio : Nat → Nat
  | 0 => 5
  | 1 => 4
  | 2 => 2
  | _ => 1

/-- The 32 bytes of a reply (R47). -/
def replyBytes (raw : W512) (status load : Nat) (sat final clamp phase : Bool) (credit progress result : Nat) : List Byte :=
  leBytes 4 (tagOf raw) ++ leBytes 1 status
    ++ leBytes 1 (load % 16 + flag sat 4 + flag final 5 + flag clamp 6 + flag phase 7)
    ++ leBytes 2 credit ++ leBytes 2 (opcodeOf raw) ++ [0x10, 0] ++ leBytes 4 progress ++ leBytes 16 result

/-! ## Sealed units (R121, R129, R130) -/

/-- Appends a record to the administrator log (R121). -/
def appendLog (s : State) (host cause : Nat) (acc : Rights) (raw : W512) (addr : Nat) : State :=
  let full := decide (4096 ≤ s.iso.log.length)
  let lost := full && (match s.iso.log with
    | r :: _ => !r.seen
    | [] => false)
  let dropped := if lost then satAdd 16 s.iso.dropped 1 else s.iso.dropped
  let r : LogRec := { time := s.time, host := host % 65536, cause := cause, access := acc, src := BitVec.ofNat 32 (srcOf raw)
                      tag := BitVec.ofNat 32 (tagOf raw), opcode := BitVec.ofNat 16 (opcodeOf raw), dropped := dropped, addr := addr }
  { s with iso := { s.iso with
    log := (if full then s.iso.log.drop 1 else s.iso.log) ++ [r], logNext := s.iso.logNext + 1, dropped := dropped } }

/-- Does the host exchange only sealed data (R113, R129)? -/
def sealedHost (s : State) (h : Nat) : Bool := match s.host h with
  | some e => e.path == 3
  | none => false
/-- The IV of a unit (R129): direction 0 towards the device, 1 from it; kind 0 command, 1 reply, 2 descriptor, 3 data. -/
def sealIv (h dir kind ctr : Nat) : List Byte := leBytes 2 h ++ leBytes 1 dir ++ leBytes 1 kind ++ leBytes 8 ctr
/-- Writes a unit from the device into host memory at `a`: as it is, or sealed with its record at `rec` (R129). -/
def putUnit (s : State) (h kind a rec : Nat) (bs : List Byte) : State :=
  if !sealedHost s h then s.hostWrite a bs
  else
    let ctr := tabGet 0 s.iso.sealOut h + 1
    let (ct, tag) := Config.seal (tabGet (0, 0) s.iso.sealKey h) (sealIv h 1 kind ctr) bs
    let s := { s with iso := { s.iso with sealOut := tabSet 0 s.iso.sealOut h ctr } }
    (s.hostWrite a (padTo bs.length ct)).hostWrite rec (leBytes 8 ctr ++ padTo 16 tag ++ leBytes 8 0)
/-- Reads a unit of `n` bytes that the host wrote at `a`: as it is, or unsealed with its record at `rec`. None where the bus fails, or
the seal, which is logged (R130); a host without a session key can have sealed nothing. -/
def takeUnit (s : State) (h kind a rec n : Nat) (raw : W512) : Option (List Byte) × State :=
  if s.hostFails a n then (none, s)
  else if !sealedHost s h then (some (s.hostRead a n), s)
  else if s.hostFails rec 32 then (none, s)
  else
    let x := s.hostRead rec 32
    let ctr := leAt x 0 8
    let bad := appendLog s h 5 (if kind = 0 then 0 else rRead) raw a
    match tabFind s.iso.sealKey h with
    | none => (none, bad)
    | some key =>
      if ctr ≤ tabGet 0 s.iso.sealIn h then (none, bad)
      else match Config.unseal key (sealIv h 0 kind ctr) (s.hostRead a n) ((x.drop 8).take 16) with
        | some bs => (some (padTo n bs), { s with iso := { s.iso with sealIn := tabSet 0 s.iso.sealIn h ctr } })
        | none => (none, bad)

/-! ## Channels -/

/-- Commands of a channel without a final reply: in the store, refused with the reply still delayed (R119), ended with the reply still
held for the pair (R396, R402), and copies whose token has not come (R398). Each holds its store slot (R38). -/
def outstanding (s : State) (ch : Chan) : Nat :=
  (s.store.cmds.filter fun e => e.2.chan == ch).length
    + (s.store.refusals.filter fun r => r.chan == ch && r.key.isNone).length
    + (s.mir.replyLog.filter fun r => r.chan == ch).length
    + (s.mir.copies.filter fun e => e.2.1.chan == ch).length

/-- Does the channel have an outstanding command with this tag (R41)? -/
def tagInUse (s : State) (ch : Chan) (tag : Nat) : Bool :=
  s.store.cmds.any (fun e => e.2.chan == ch && tagOf e.2.raw == tag)
    || s.store.refusals.any (fun r => r.chan == ch && tagOf r.raw == tag)
    || s.mir.replyLog.any (fun r => r.chan == ch && tagOf r.raw == tag)

/-- Shared store slots that are free (R38): 131,072 less a guaranteed slot per enabled ring and rank entry, less those in use
beyond each channel's guaranteed one and those reserved for tokens. -/
def sharedFree (s : State) : Nat :=
  let guaranteed := (s.rings.filter (·.2.en)).length + s.fab.ranksA.length
  let perChan := fun (ch : Chan) => outstanding s ch - 1
  let used := s.rings.foldl (fun n e => n + perChan (.ring e.1)) 0
    + s.fab.ranksA.foldl (fun n e => n + perChan (.rank (e.2.hi * 65536 + e.1))) 0
  let tokens := s.store.chans.foldl (fun n e => n + (e.2.tokens.filter (·.slot)).length) 0
  131072 - guaranteed - used - tokens

/-- The function that shows a ring: the virtual function whose host the ring is bound to, else the physical function (R128,
R487). -/
def ringFn (s : State) (n : Nat) : Nat :=
  match s.iso.vfHost.find? fun e => e.2 == (s.ring n).ident && e.1 != 0 with
  | some (f, _) => f
  | none => 0

/-- RQ_HEAD, counted modulo the queue's size (R74). -/
def Ring.rqFront (r : Ring) : Nat := r.rqHead % 2 ^ r.rqLog2
/-- Free reply slots of a ring (R76). -/
def rqFree (r : Ring) : Nat :=
  let size := 2 ^ r.rqLog2
  if r.full then 0 else size - (r.rqTail + size - r.rqFront) % size

/-- Writes a reply into a ring's reply queue (R75, R76). A ring that is not enabled takes none (log 35). A write that fails sets WRITE_ERR
and stops the ring's fetching (R74); in a disable it ends the disable, which discards the replies that remain (R75), and otherwise that
reply alone is lost and takes no slot (log 35). Under PATH 3 the reply is sealed (R129). -/
def ringReply (s : State) (n : Nat) (bs : List Byte) (notify : Bool) : State :=
  let r := s.ring n
  -- a command of the part's own has no ring (R415)
  if !r.en || decide (1024 ≤ n) then s
  else
    let a := r.rqBase.toNat + 32 * r.rqTail
    if s.hostFails a 32 then
      s.setRing n { r with writeErr := true, stopped := true, en := r.en && !r.disabling, disabling := false }
    else
      let s := putUnit s r.ident 1 a (r.rqBase.toNat + 32 * 2 ^ r.rqLog2 + 32 * r.rqTail) bs
      let wrap := decide (r.rqTail + 1 = 2 ^ r.rqLog2)
      let t := if wrap then 0 else r.rqTail + 1
      let s := s.setRing n { r with rqTail := t, phase := if wrap then !r.phase else r.phase, full := t == r.rqFront }
      if notify && r.vecEn then s.send (.msix (ringFn s n) r.vec) else s

/-- The credit type of a command's reply (R322). -/
def replyType (raw : W512) : Nat :=
  if opcodeOf raw = 0x0103 || opcodeOf raw = 0x0104 || opcodeOf raw / 256 = 6 then 4 else 1

/-- What CREDIT carries (R50, R61, R62, R146). -/
inductive Credit where
  | normal
  | refusal
  | token (t : Nat)
deriving DecidableEq, Repr

def creditOf (s : State) (ch : Chan) (load : Nat) : Credit → Nat
  | .token t => t
  | .refusal => match ch with
    | .ring _ => 0
    | .rank _ => (s.chan ch).lastCredit.getD 1
  | .normal => match ch with
    | .ring _ => 0
    | .rank _ => max 1 ((s.chan ch).creditMax * (16 - load) / 16)

/-- What a reply takes from its command: the channel, the packet, and the priority it runs at as R59 fixed it at entry. -/
structure ReplyTo where
  chan : Chan
  raw  : W512
  txn  : Nat
  prio : Nat
  clamped : Bool
deriving DecidableEq, Repr
def Cmd.replyTo (c : Cmd) : ReplyTo := { chan := c.chan, raw := c.raw, txn := c.txn, prio := c.prio, clamped := c.clamped }
def Refused.replyTo (r : Refused) : ReplyTo := { chan := r.chan, raw := r.raw, txn := r.txn, prio := r.prio, clamped := r.clamped }
def LoggedReply.replyTo (r : LoggedReply) : ReplyTo := { chan := r.chan, raw := r.raw, txn := r.txn, prio := r.prio, clamped := r.clamped }
/-- A packet that arrives now. -/
def replyTo (s : State) (c : CmdIn) : ReplyTo :=
  { chan := c.chan, raw := c.raw, txn := c.txn, prio := effPrio s c.chan c.raw, clamped := isClamped s c.chan c.raw }

/-- Issues one reply on a channel. A rank without a rank-table entry has no return route: its reply is discarded (R335). -/
def issueReply (s : State) (rt : ReplyTo) (status load : Nat) (sat final : Bool) (cr : Credit) (progress result : Nat)
    (data : List Byte) : State :=
  let credit := creditOf s rt.chan load cr
  match rt.chan with
  | .ring n =>
    ringReply s n (replyBytes rt.raw status load sat final rt.clamped (s.ring n).phase credit progress result)
      (final && notifyBit rt.raw)
  | .rank r =>
    match s.rankE r with
    | none => s
    | some _ =>
      let bs := replyBytes rt.raw status load sat final rt.clamped false credit progress result
      let x := s.chan rt.chan
      let s := match cr with
        | .token _ => s
        | _ => s.setChan rt.chan { x with lastCredit := some credit }
      s.sendPkt { ty := replyType rt.raw, rank := r, ptype := 2, tc := tcOfPrio rt.prio, txn := rt.txn, body := bs ++ data }

/-! ## LOAD (R145) -/

/-- Lq of a head-of-queue delay. -/
def loadQueue (d : Nat) : Nat := if d < 250 then 0 else min 11 (1 + Nat.log2 (d / 250))

/-- Adds to the class queues that a command has used those of the memory stops which the access just made used (R145, R149). -/
def notePoints (s : State) (c : Cmd) : Cmd :=
  let new := s.qos.used.map fun pt => 112 + 8 * pt + tcOfPrio c.prio
  { c with points := c.points ++ new.filter fun q => !c.points.contains q }

/-- LOAD of a command's reply: the largest of Lq, Lm and La. -/
def loadOf (s : State) (c : Cmd) : Nat :=
  let d := c.points.foldl (fun m q => max m (tabGet (0, 0) s.qos.live q).2) 0
  let lq := if c.points = [] then 0 else loadQueue d
  let m := (s.meter (meterOf s c.host)).fill s.now
  let green := c.color = 1 || c.color = 4
  let lm := if c.color = 0 || m.unmetered || (green && decide (m.cbs * 512000 ≤ m.tc)) then 0
    else if green then 8 else if c.color = 2 then 12 else 14
  let la := if c.rAdm < c.idle then 15 else 0
  max lq (max lm la)

/-! ## Mirroring of replies (R402, R404) -/

/-- Is an opcode in the read class of R394? GAL_EXPORT with DST_KIND 2 is (R290). -/
def readClass (raw : W512) : Bool :=
  [0x0101, 0x0107, 0x0F00, 0x0302, 0x0604, 0x0801, 0x0383, 0x0313, 0x0505, 0x0703].contains (opcodeOf raw) || (opcodeOf raw == 0x0504 && cmdB raw 18 1 == 2)

/-- Queues a mirror record (R403): a MIR packet on credit type 5 of a mirror port. -/
def sendMir (s : State) (bs : List Byte) : State :=
  s.sendPkt { ty := 5, rank := s.fab.selfRank, ptype := 8, tc := 6, txn := 0, body := bs, port := some 12 }

/-- The 8-byte header of a mirror record (R397). -/
def mirHead (kind len8 : Nat) : List Byte := [BitVec.ofNat 8 kind, 0] ++ leBytes 2 len8 ++ [0, 0, 0, 0]

/-- Adds a final reply to RD of its interval (R404): LOAD, PHASE and CREDIT are hashed as 0. -/
def digestReply (s : State) (c : Cmd) (bs : List Byte) : State :=
  let b5 := (bs.getD 5 0) &&& 0x70
  let h := bs.take 5 ++ [b5, 0, 0] ++ bs.drop 8
  let x := mix64 (crc64 0 (leBytes 8 c.mirSeq ++ h))
  { s with mir := { s.mir with intervals := s.mir.intervals.map fun i =>
      if i.n = c.mirInt then { i with
        used := c.loads.foldl (fun m l => if l.1 < 16 then m ||| BitVec.ofNat 8 (2 ^ (l.1 % 8)) else m) i.used
        rd := i.rd + BitVec.ofNat 64 x } else i } }

/-- May the command take effect as far as the pair is concerned (R396): its token is acknowledged, where one is needed? -/
def seqOk (s : State) (n : Nat) : Bool := n = 0 || s.mir.state != 1 || !s.mir.inStep || decide (n ≤ s.mir.acked)
def tokenOk (s : State) (c : Cmd) : Bool := seqOk s c.mirSeq

/-- Sends a reply that was held, and on an active with a standby in step its reply-sent record (R402). -/
def sendLogged (s : State) (r : LoggedReply) (cr : Credit) : State :=
  let s := issueReply s r.replyTo r.status r.load r.sat true cr r.progress r.result r.data
  if r.seq != 0 && s.mir.state = 1 && s.mir.inStep then sendMir s (mirHead 6 2 ++ leBytes 8 r.seq) else s

/-- Holds a final reply (R396, R402). -/
def holdReply (s : State) (r : LoggedReply) : State := { s with mir := { s.mir with replyLog := s.mir.replyLog ++ [r] } }

/-- Issues the final reply of a command of the store. A standby keeps it in its reply log (R395, R402), and an active whose standby has
not acknowledged the command's token holds it (R396); a member out of step sends none for a mirrored command. -/
def finalReply (s : State) (c : Cmd) (status : Nat) (sat : Bool) (cr : Credit) (progress result : Nat)
    (data : List Byte) : State :=
  let load := if cr = .refusal then 0 else loadOf s c
  let r : LoggedReply := { seq := c.mirSeq, chan := c.chan, raw := c.raw, txn := c.txn, prio := c.prio, clamped := c.clamped
                           status := status, load := load, sat := sat, progress := progress, result := result, data := data, ord := c.seq }
  if c.mirSeq = 0 then sendLogged s r cr
  else
    let s := digestReply s c (replyBytes c.raw status load sat true c.clamped false 0 progress result)
    if s.mir.state = 3 || !tokenOk s c then holdReply s r
    else if s.mir.state = 2 || s.mir.state = 4 then s
    else sendLogged s r cr

/-! ## Wait lists (R43, R231) -/

/-- Does R60 order the start of the command: it passes through SCH (R57), and is no contribution, whose step starts when the contributions
of all indices have arrived (R247), nor of group 0x09 or 0x0F (R64, R70; log 38)? -/
def Cmd.ordered (c : Cmd) : Bool :=
  !(decide (0x0100 ≤ opcodeOf c.raw) && decide (opcodeOf c.raw ≤ 0x0104)) && opcodeOf c.raw != 0x0311
    && opcodeOf c.raw / 256 != 0x0F && opcodeOf c.raw / 256 != 0x09

/-- What the wait entries find: an object with ERR, all satisfied, or neither. -/
inductive Waits where
  | error
  | met
  | unmet
deriving DecidableEq, Repr

def waitsOf (s : State) (raw : W512) : Waits :=
  if (waits raw).any fun e => (s.obj e.1).err then .error
  else if (waits raw).all fun e => (s.obj e.1).satisfied e.2 then .met else .unmet

/-- FENCE (R39): does an earlier command of the channel lack its final reply: in the store, refused and not yet answered (R119), or held for
its token (R396)? -/
def fenced (s : State) (c : Cmd) : Bool :=
  fenceBit c.raw && ((s.store.cmds.any fun e => e.2.chan == c.chan && decide (e.2.seq < c.seq))
    || (s.store.refusals.any fun r => r.key.isNone && r.chan == c.chan && decide (r.ord < c.seq))
    || (s.mir.state == 1 && s.mir.replyLog.any fun r => r.chan == c.chan && decide (r.ord < c.seq)))

/-! ## The end of a command -/

/-- Applies the signal list (R44): one on OK or DISPUTED, else the error increment. -/
def applySigs (s : State) (raw : W512) (good : Bool) : State :=
  (sigs raw).foldl (fun s e => applyUpd s e.1 (if good then .signal 1 else .error)) s

/-- Removes the cache entries of the ranges `f` picks, and loads those that were pinned again where they still translate
(R94); a reload is no access and counts nothing (R105). -/
def dropRanges (s : State) (f : Nat → Bool) : State :=
  let old := s.xlt.caches.flatMap fun e => e.2.filter fun x => x.pinned && f x.rid
  let again : State → RcE → State := fun s e =>
    let s1 := (lookup s e.host e.start 0).2
    { s1 with xlt := { s1.xlt with counts := s.xlt.counts } }
  old.foldl again (rcRemove s fun x => f x.rid)

/-- Entry commit (R93): changes one directory entry in the active copy, and in the shadow where it holds the same range. -/
def entryCommit (s : State) (rid : Nat) (f : RangeE → RangeE) : State :=
  match tabFind s.xlt.dirA rid with
  | none => s
  | some e =>
    let shadow := match tabFind s.xlt.dirS rid with
      | some e2 => if e2.iaStart = e.iaStart && e2.lenG = e.lenG then tabIns s.xlt.dirS rid (f e2) else s.xlt.dirS
      | none => s.xlt.dirS
    dropRanges { s with xlt := { s.xlt with dirA := tabIns s.xlt.dirA rid (f e), dirS := shadow, epoch := s.xlt.epoch + 1 } } (· == rid)

/-- Writes 0 into FAULT_ID of the slot at `ia` (R100): false where a gate or a window's snoop holds the write (R104, R301). -/
def zeroSlot (s : State) (ia : Nat) : Bool × State :=
  match findRange s.xlt.dirA ia with
  | none => (true, s)
  | some (rid, e) => match place s rid (e.ppa + (ia - e.iaStart)) with
    | .held => (false, s)
    | .at_ _ ws => match writePlaces (leBytes 4 0) (ws.map (· + 24)) s with
      | (.held, s1) => (false, s1)
      | (_, s1) => (true, s1)
/-- Writes the zeros that wait and can be written now. -/
def flushZeros (s : State) : State := s.xlt.zeros.foldl (fun s ia => match zeroSlot s ia with
  | (true, s1) => { s1 with xlt := { s1.xlt with zeros := s1.xlt.zeros.erase ia } }
  | (false, s1) => s1) s
/-- Ends a translation fault: 0 into FAULT_ID of its slot (R100); the fault is no more. -/
def endFault (s : State) (f : XFault) : State :=
  flushZeros { s with xlt := { s.xlt with
    pending := s.xlt.pending.filter (·.id != f.id), zeros := if f.written then s.xlt.zeros ++ [f.slotIA] else s.xlt.zeros } }

/-- What a command of the store leaves behind when it ends, by its opcode: a move or gate in progress ends (R102, R104),
pending faults end (R101), and tiles of its run become free (R179). -/
def cleanup (s : State) (k : Nat) (c : Cmd) : State :=
  let s := (s.xlt.pending.filter (·.key == k)).foldl endFault s
  -- items that still wait at a memory stop leave their queues
  let mine := (s.churn.tiles.filter fun e => e.2.run == some k).map (·.1)
  let s := dropItems s fun i => match i.work with
    | .cmd j => c.st == .queued && j == k
    | .burst n _ => mine.contains n
    | .coh .. => false
  let f : Nat → Tile → Tile := fun _ t =>
    if t.run == some k then { t with run := none, st := .idle, e0 := {}, e1 := {}, stopReq := false } else t
  let s := { s with churn := { s.churn with tiles := tabMapD {} f s.churn.tiles } }
  let op := opcodeOf c.raw
  -- a lock-up that ends without its commit: the galley is back in INGEST (R279, R288)
  let g : Nat → Galley → Galley := fun _ g => if g.lock == some k then
    { g with state := 2, lock := none, prev := none, leaves := [], table := [], changed := 0 } else g
  let s := { s with work := { s.work with gals := tabMap g s.work.gals, rrds := s.work.rrds.filter (·.2.1 != k)
                                          remote := tabDel s.work.remote k } }
  let moving := match s.range (c.aux.headD 0) with
    | some e => e.migrating
    | none => false
  if op = 0x0108 && c.started && moving then entryCommit s (c.aux.headD 0) fun e => { e with migrating := false }
  else if op = 0x0109 && c.aux.getD 1 0 == 1 then entryCommit s (c.aux.headD 0) fun e => { e with gated := false }
  else s

/-- The event record of an outcome that the active decides (R399), sent before the final reply that tells it. -/
def outcomeEvent (s : State) (c : Cmd) (status progress result : Nat) : State :=
  let op := opcodeOf c.raw
  let slices := (c.loads.map (·.1)).filter (decide <| · < 16)
  let part := ((slices.find? fun x => !s.online (x % 8)).getD (slices.headD 0)) % 8
  let ev : Option (Nat × Nat) :=
    if op = 0x0311 && status != stOK && status != stDISPUTED then some (7, status)
    else if status = stWAIT_EXPIRED then some (1, 0)
    else if status = stFAULT_PENDING then some (2, progress)
    else if status = stCANCELLED then some (3, (if c.started then 2 else 1) + 256 * progress)
    else if status = stPOISONED then some (4, result / 2 ^ 64)
    else if status = stOFFLINE then some (5, part + 256 * progress)
    else if status = stENERGY then some (6, 0) else none
  match ev with
  | some (ty, arg) =>
    if c.mirSeq != 0 && s.mir.state = 1 && s.mir.inStep then
      sendMir s (mirHead 2 4 ++ [BitVec.ofNat 8 ty, 0, 0, 0, 0, 0, 0, 0] ++ leBytes 8 c.mirSeq ++ leBytes 8 arg)
    else s
  | none => s

/-- Ends one command of the store: signals, unless they have been applied, final reply, slot released (R38, R44, R52). -/
def finishOne (s : State) (k : Nat) (status progress result : Nat) (data : List Byte) (sat : Bool) (cr : Credit)
    (signals : Bool := true) : State :=
  match s.cmd k with
  | none => s
  | some c =>
    let s := cleanup s k c
    let s := if signals then applySigs s c.raw (status = stOK || status = stDISPUTED) else s
    let s := outcomeEvent s c status progress result
    let s := finalReply s c status sat cr progress result data
    s.delCmd k

/-- Ends a command of the store, and then the CANCEL that waits for it: outcome 2 where it was cancelled, else 0 (R70, R71). -/
def finish (s : State) (k : Nat) (status : Nat) (progress : Nat := 0) (result : Nat := 0) (data : List Byte := [])
    (sat : Bool := false) (cr : Credit := .normal) : State :=
  match s.cmd k with
  | none => s
  | some c =>
    let s := finishOne s k status progress result data sat cr
    match c.cancelBy with
    | some j => finishOne s j stOK 0 (if status = stCANCELLED then 2 else 0) [] false .normal
    | none => s

end Sys2Proof.Machine
end

