-- ==== Sys2Proof/Machine/Settle.lean ====
section
/-! DEFINITION. Runs of tile programs (R174-R180, R186-R190): their parameters, traps and their end; and what follows a change
of a sync object or of the store: waiting commands, waiting tiles and ended runs (R43, R231, R520). -/
namespace Sys2Proof.Machine

/-! ## The parameters of a run (R181, R186) -/

def Cmd.runHandle (c : Cmd) : Nat := if descBit c.raw then c.par 0 2 else c.par 16 2
def Cmd.runWaitUs (c : Cmd) : Nat := if descBit c.raw then c.par 4 4 else c.par 20 4
/-- ARGn of a run; the inline form has no ARG3. -/
def Cmd.runArg (c : Cmd) (n : Nat) : Nat :=
  if descBit c.raw then c.par (8 + 8 * n) 8 else if n < 3 then c.par (24 + 8 * n) 8 else 0
/-- The sync object bound to a slot. -/
def Cmd.runSync (c : Cmd) (slot : Nat) : Nat := if descBit c.raw then c.par (40 + 2 * slot) 2 else 0

def State.prog (s : State) (h : Nat) : Option Prog := tabFind s.churn.progs h
/-- The run that a tile executes. -/
def runOf (s : State) (n : Nat) : Option (Nat × Cmd) :=
  match (s.tile n).run with
  | some k => (s.cmd k).map fun c => (k, c)
  | none => none
/-- The physical tiles of a run, in logical order. -/
def runTiles (s : State) (c : Cmd) : List Nat := match s.prog c.runHandle with
  | some p => p.tiles
  | none => []

/-- Stops a tile at its instruction boundary (R179). -/
def stopTile (s : State) (n : Nat) : State :=
  let t := s.tile n
  if t.st.active then (foldCycles s n).setTile n { (foldCycles s n).tile n with st := .stopped } else s

/-! ## Steps of reduction slots (R246-R248) -/

def State.slot (s : State) (i : Nat) : Option Slot := tabFind s.work.slots i
def State.setSlot (s : State) (i : Nat) (x : Slot) : State :=
  { s with work := { s.work with slots := tabIns s.work.slots i x } }
/-- The contributions of a slot for a step: those of the store. -/
def contribs (s : State) (i step : Nat) : List (Nat × Cmd) :=
  s.store.cmds.filter fun e => opcodeOf e.2.raw == 0x0311 && e.2.par 16 2 == i && e.2.par 20 4 == step
/-- The contribution that stands for the step as an operation: the one that carries its load. -/
def stepLead (s : State) (i step : Nat) : Option (Nat × Cmd) :=
  ((contribs s i step).find? (·.2.loads != [])).orElse fun _ => (contribs s i step).head?
/-- The running step that holds a tile: the slot and its lead. One that is pre-empted holds none. -/
def stepOn (s : State) (n : Nat) : Option (Nat × Nat × Cmd) := s.work.slots.findSome? fun e =>
  if e.2.running && e.2.tiles.contains n then match stepLead s e.1 e.2.k with
    | some (k, c) => if c.st == .preempted then none else some (e.1, k, c)
    | none => none
  else none
/-- Is the tile taken by a run or a step? -/
def tileTaken (s : State) (n : Nat) : Bool := (s.tile n).run.isSome || (stepOn s n).isSome

/-! ## Traps (R178, R179) -/

/-- The PROT code of a trap that is also a fault of the tile (R178, R421); 0 for the others. -/
def trapProt : Nat → Nat
  | 0x03 => 0x02
  | 0x04 => 0x02
  | 0x0A => 0x04
  | 0x0D => 0x03
  | _ => 0

/-- A trap: the tile stops at once and every other tile of its run at its next instruction boundary. DMA_REFUSED is not
counted (R180). `info` is the DETAIL of the fault record, `prot` overrides the PROT code. -/
def trapTile (s : State) (n cause code : Nat) (info : W64 := 0) (prot : Nat := 0) : State :=
  let t := s.tile n
  match t.run with
  | none => s
  | some k =>
    if !t.st.active then s
    else
      let s := foldCycles s n
      -- after IFETCH_UE the code is written again before the next run (R193)
      let s := s.setTile n { s.tile n with st := .trapped cause code t.pc, rewrite := t.rewrite || cause = 3 }
      let s := if cause = 6 then s else cluTrap s (cluOf n)
      let pr := if prot = 0 then trapProt cause else prot
      let s := if pr = 0 then s else raiseFault s (unitOf 3 n) pr 0 info 3
      match s.cmd k with
      | none => s
      | some c => (runTiles s c).foldl stopTile s

/-! ## The end of a run -/

/-- Final status of a trap cause (R178). -/
def trapStatus (cause : Nat) (cancelled : Bool) : Nat :=
  match cause with
  | 0x01 => stMALFORMED
  | 0x02 => stMALFORMED
  | 0x06 => stACCESS
  | 0x07 => if cancelled then stCANCELLED else stFAULT_PENDING
  | 0x08 => stMALFORMED
  | 0x09 => stWAIT_EXPIRED
  | 0x0B => stOFFLINE
  | 0x0C => stCANCELLED
  | _ => stPOISONED

/-- Has the tile ended its part of the run? -/
def TileSt.ended : TileSt → Bool
  | .halted => true
  | .stopped => true
  | .trapped .. => true
  | _ => false

/-- SAT_COUNT of a run (R179). -/
def runSat (s : State) (tiles : List Nat) : Nat := tiles.foldl (fun n t => satAdd 32 n (s.tile t).satc) 0
/-- PROGRESS of a run (R175). -/
def runProgress (s : State) (tiles : List Nat) : Nat :=
  match tiles with
  | [] => 0
  | t :: ts => ts.foldl (fun m n => min m (s.tile n).grans) (s.tile t).grans

/-- The trap of a run: logical index, cause, code, PC. -/
def runTrap (s : State) (tiles : List Nat) : Option (Nat × Nat × Nat × Nat) :=
  (tiles.zip (List.range tiles.length)).findSome? fun e => match (s.tile e.1).st with
    | .trapped cause code pc => some (e.2, cause, code, pc)
    | _ => none

/-- Frees the tiles of a run that is pre-empted (R190): they run it again from instruction 0. -/
def freeTiles (s : State) (tiles : List Nat) : State :=
  tiles.foldl (fun s n => s.setTile n { s.tile n with run := none, st := .idle, e0 := {}, e1 := {}, stopReq := false }) s

/-- Ends or pre-empts a run all of whose tiles have ended and whose engines are quiet (R176, R179, R180, R189, R190). -/
def endRun (s : State) (k : Nat) (c : Cmd) : State :=
  let tiles := runTiles s c
  let prog := runProgress s tiles
  let sat := runSat s tiles
  let result := fun (cause code idx pc : Nat) => cause + 2 ^ 16 * code + 2 ^ 32 * idx + 2 ^ 64 * pc + 2 ^ 96 * sat
  match runTrap s tiles with
  | some (idx, cause, code, pc) =>
    if cause = 6 then
      -- ACCESS_REFUSED after the fixed delay (R119, R180): `flushed` holds the moment, `aux` the cause and address
      let s := s.setCmd k { c with st := .finishing }
      { s with store := { s.store with refusals := s.store.refusals ++ [{
          chan := c.chan, raw := c.raw, txn := c.txn, due := c.flushed, host := c.host, cause := c.aux.getD 0 0
          access := BitVec.ofNat 3 (c.aux.getD 1 0), addr := c.aux.getD 2 0, prio := c.prio, clamped := c.clamped, prog := prog, key := some k }] } }
    else finish s k (trapStatus cause (c.st = .stopping)) prog (result cause code idx pc) [] (sat = 2 ^ 32 - 1)
  | none =>
    if tiles.all fun n => (s.tile n).st == .halted then finish s k stOK prog (result 0 0 0 0) [] (sat = 2 ^ 32 - 1)
    else if c.st = .stopping then finish s k stCANCELLED prog (result 0 0 0 0) [] (sat = 2 ^ 32 - 1)
    else freeTiles (s.setCmd k { c with st := .preempted, progress := prog, startedAt := s.now }) tiles

/-- Is this a run that has ended on every tile, and has every CTL core collected its records (R193) and SCH taken the reports (R464)? Those of a
partition that is out of service SCH knows of. -/
def runEnded (s : State) (c : Cmd) : Bool :=
  opcodeOf c.raw == 0x0381 && c.started && (c.st == .running || c.st == .stopping || c.st == .suspended)
    && !unitDown s (unitOf 5 2)
    && (runTiles s c).all fun n => (s.tile n).st.ended && (s.tile n).quiet && (!unitDown s (unitOf 4 (cluOf n)) || !s.online (n / 1280))

/-! ## What follows a change -/

/-- Marks every held command whose wait list is met and fence satisfied as ready (R43, R520); `startedAt` notes the moment
until the command starts (R187). -/
def markReady (s : State) : State :=
  let f : Nat → Cmd → Cmd := fun _ c =>
    if c.st = .held && waitsOf s c.raw = .met && !fenced s c && tokenOk s c
    then { c with st := .ready, startedAt := s.now } else c
  { s with store := { s.store with cmds := tabMap f s.store.cmds } }

/-- Is the condition of a tile's SWAIT met (R174)? Mode 2 compares with S[A] as it was read. -/
def swaitMet (o : SyncObj) (mode v : Nat) : Bool :=
  if mode = 0 then decide (o.thr.toNat ≤ o.count.toNat) else if mode = 1 then o.count != 0 else decide (v ≤ o.count.toNat)

/-- The value S[A] of the SWAIT at which a tile waits: its instruction word is at PC. -/
def swaitValue (t : Tile) : Nat :=
  (t.S (fieldsTI (tabGet 0 t.imem (t.codeAt + t.pc)).toNat).a).toNat

/-- Re-evaluates one tile that waits in SWAIT: an object with ERR traps it; a met condition lets it go on (R174). -/
def wakeTile (s : State) (n : Nat) : State :=
  let t := s.tile n
  match t.st, runOf s n with
  | .inSwait slot mode _, some (_, c) =>
    let o := s.obj (c.runSync slot)
    if o.err then trapTile s n 0x0C 0
    else if swaitMet o mode (swaitValue t) then
      (foldCycles s n).setTile n { (foldCycles s n).tile n with st := .running, pc := (t.pc + 1) % 1024 }
    else s
  | _, _ => s

/-- Runs of a program that have no final reply yet. -/
def runsOf (s : State) (h : Nat) : Nat :=
  (s.store.cmds.filter fun e => opcodeOf e.2.raw == 0x0381 && e.2.runHandle == h).length

/-- Frees a program's segments and image (R191). -/
def freeProg (s : State) (h : Nat) : State :=
  match s.prog h with
  | none => s
  | some p =>
    let s := p.tiles.foldl (fun s n => s.setTile n { s.tile n with slots := (s.tile n).slots.filter (·.1 != h) }) s
    { s with churn := { s.churn with progs := tabDel s.churn.progs h } }

/-- A program that is closing and has no run left: its handle and the PROG_UNLOAD that waits (R191). -/
def closable (s : State) : Option (Nat × Nat) :=
  s.churn.progs.findSome? fun e => match e.2.unload with
    | some k => if runsOf s e.1 = 0 then some (e.1, k) else none
    | none => none

/-- A KV pool that is closing and that no accepted command names any more (R273). -/
def closablePool (s : State) : Option (Nat × Nat) :=
  s.work.pools.findSome? fun e => match e.2.closing with
    | some k => if s.store.cmds.any fun d => decide (0x0402 ≤ opcodeOf d.2.raw) && decide (opcodeOf d.2.raw ≤ 0x0404)
        && d.2.par 0 2 == e.1 then none else some (e.1, k)
    | none => none

/-- A galley that is closing and whose lock-ups and exports have ended (R291). -/
def closableGal (s : State) : Option (Nat × Nat) :=
  s.work.gals.findSome? fun e => match e.2.closing with
    | some k => if s.store.cmds.any fun d => (opcodeOf d.2.raw == 0x0503 || opcodeOf d.2.raw == 0x0504)
        && d.2.par 16 1 == e.1 then none else some (e.1, k)
    | none => none

/-- A window whose close is complete: every line is written back, or it went down meanwhile (R306, R309). -/
def closableWin (s : State) : Option (Nat × Nat × Nat) :=
  s.coh.wins.findSome? fun e => match e.2.closeKey with
    | some k => if e.2.state = 3 || e.2.trans = [] then some (e.1, k, e.2.wrote) else none
    | none => none
/-- Frees a window; its counters and the cause of its last down stay. -/
def freeWin (s : State) (wi : Nat) : State :=
  let w := s.win wi
  repin (s.setWin wi { cause := w.cause, reqs := w.reqs, retries := w.retries, snoops := w.snoops, ovf := w.ovf })

/-- Ends, one after another, what has come to its end: held commands that wait on an object with ERR (R231), tiles whose SWAIT
is satisfied or erroneous, runs, and unloads and closes that waited for commands; `fuel` bounds the endings. -/
def settleN : Nat → State → State
  | 0, s => s
  | fuel + 1, s =>
    let s := (s.churn.tiles.filter fun e => e.2.st.inWait).foldl (fun s e => wakeTile s e.1) s
    match s.store.cmds.find? fun e => (e.2.st == .held && waitsOf s e.2.raw == .error) || runEnded s e.2 with
    | some (k, c) => settleN fuel (if runEnded s c then endRun s k c else finish s k stCANCELLED)
    | none => match closable s with
      | some (h, k) => settleN fuel (finish (freeProg s h) k stOK)
      | none => match closablePool s with
        | some (p, k) => settleN fuel (finish { s with work := { s.work with pools := tabDel s.work.pools p } } k stOK)
        | none => match closableGal s with
          | some (g, k) => settleN fuel (finish (repin { s with work := { s.work with gals := tabDel s.work.gals g } }) k stOK)
          | none => match closableWin s with
            | some (w, k, n) => settleN fuel (finish (freeWin s w) k stOK 0 n)
            | none => s

/-- Re-evaluates everything that waits after sync objects, tiles, the store or memory have changed (R43, R100, R231, R520). -/
def settle (s : State) : State := markReady (settleN (s.store.cmds.length + 1) (flushZeros s))

end Sys2Proof.Machine
end

