-- ==== Sys2Proof/Machine/Energy.lean ====
section
/-! DEFINITION. Power and energy estimates (R466-R472): in µW, rates in MB/s. -/
namespace Sys2Proof.Machine

/-- Tile power at full load by DVFS level (R468). -/
def tilePower (l : Nat) : Nat := [6000, 9102, 13225, 19531, 24889].getD l 24889
/-- P_FIX (R468). -/
def pFix : Nat := 250000000

/-- Activity in hundredths (R468): by the K format of the pool for ATT_SCORE, 35 for library work without MMA. -/
def mmaActivity (fmt : Nat) : Nat := if fmt = 1 || fmt = 2 then 70 else if decide (3 ≤ fmt) && decide (fmt ≤ 6) || fmt = 9 then 80 else 100
def libActivity (s : State) (c : Cmd) : Nat :=
  if opcodeOf c.raw = 0x0403 then match tabFind s.work.pools (c.par 0 2) with
    | some p => mmaActivity p.kfmt
    | none => 35
  else 35

/-- Streams read and written of an operation whose S counts them together (R66, R234): each carries R_ADM. -/
def streamsOf (c : Cmd) : Nat :=
  match opcodeOf c.raw with
  | 0x0301 => 2
  | 0x0302 => 2
  | 0x0303 => max 1 (c.par 20 4) + 1
  | 0x0108 => 2
  | 0x0109 => 2
  | _ => 1

/-- Power of a load on a slice, per MB/s: 32.3 pJ/B on cream, 36.8 pJ/B on skim (R468). -/
def slicePower (l : Nat × Nat) : Nat := if l.1 < 8 then 323 * l.2 / 10 else if l.1 < 16 then 368 * l.2 / 10 else 0

/-- P of an admitted operation (R468, R469). -/
def opPower (s : State) (c : Cmd) : Nat :=
  let (tiles, lvl) := Config.libTiles (opcodeOf c.raw) c.rAdm
  -- the tiles of a reduction slot are counted with the slot
  (if opcodeOf c.raw = 0x0311 then 0 else tiles) * tilePower lvl * libActivity s c / 100 + streamsOf c * c.loads.foldl (fun n l => n + slicePower l) 0

/-- Power of the tiles of a reduction slot. -/
def slotPower (x : Slot) : Nat := x.ntiles * tilePower 0 * 35 / 100
/-- Σ P over all admitted work (R469): loaded programs at level 0, operations with an admitted rate, slots and galleys. -/
def admittedPower (s : State) : Nat :=
  s.churn.progs.foldl (fun n e => n + e.2.tiles.length * tilePower 0) 0
    + s.store.cmds.foldl (fun n e => if e.2.loads = [] then n else n + opPower s e.2) 0
    + s.work.slots.foldl (fun n e => n + slotPower e.2) 0
    + s.work.gals.foldl (fun n _ => n + Config.galPower) 0

/-- Effective budget in W (R467). -/
def effBudget (s : State) : Nat := s.pwr.pEff
/-- Does new work of power `p` fit the budget (R469)? -/
def powerFits (s : State) (p : Nat) : Bool :=
  decide (pFix + s.pwr.unres + admittedPower s + p ≤ effBudget s * 1000000)
/-- Energy estimate of running work in mJ (R471): P at its planned level × its duration. -/
def workEnergy (s : State) (k : Nat) (c : Cmd) : Nat :=
  if opcodeOf c.raw = 0x0381 then match s.prog c.runHandle with
    | some p =>
      let l := tabGet 0 s.pwr.runLvl k
      p.tiles.length * tilePower l * (p.maxCyc / levelMhz l) / 1000000000
    | none => 0
  else if c.loads = [] || c.rAdm = 0 then 0
  else
    let tiles := if opcodeOf c.raw = 0x0311 then ((s.slot (c.par 16 2)).map slotPower).getD 0 else 0
    (opPower s c + tiles) * (c.size / c.rAdm) / 1000000000

/-- Committed estimates of running work (R471). -/
def committedEnergy (s : State) : Nat :=
  s.store.cmds.foldl (fun n e => if e.2.started then n + workEnergy s e.1 e.2 else n) 0

/-- Does work of estimate `mj` fit E_B less the window and the committed estimates (R471)? A standby decides nothing: the active's events
tell it (R399). -/
def energyFits (s : State) (mj : Nat) : Bool :=
  pairHeld s || decide (s.pwr.window + committedEnergy s + mj ≤ s.pwr.eB * 1000)

/-- The level of each cluster: the highest of the runs it holds (R470). -/
def setLevels (s : State) : State :=
  let lvl : Nat → Nat := fun c => s.churn.tiles.foldl (fun m e =>
    if cluOf e.1 = c then match e.2.run with
      | some k => max m (tabGet 0 s.pwr.runLvl k)
      | none => m
    else m) 0
  -- cycles counted so far belong to the old clock
  let s := (s.churn.tiles.filter fun e => e.2.run.isSome && cluLevel s (cluOf e.1) != lvl (cluOf e.1)).foldl
    (fun s e => foldCycles s e.1) s
  -- a cluster whose frequency changes stops while its PLL relocks, which SAF accepts for up to 4 µs (R32, R34)
  let moved := (List.range 40).filter fun c => cluLevel s c != lvl c
  { s with
    pwr := { s.pwr with levels := (List.range 40).foldl (fun t c => tabSet 0 t c (lvl c)) [] }
    flt := { s.flt with relocking := (s.flt.relocking ++ moved).eraseDups
                        stopUntil := moved.foldl (fun t c => tabSet 0 t c (s.now + us 4)) s.flt.stopUntil
                        wasKhz := moved.foldl (fun t c => tabSet 0 t c (1000 * levelMhz (cluLevel s c))) s.flt.wasKhz } }

end Sys2Proof.Machine
end

