-- ==== Sys2Proof/Machine/Entry.lean ====
section
/-! DEFINITION. The entry of a command: the seven checks of R53, refusals (R54, R119-R121), retry tokens (R62, R63), admission
(R66, R518) and the order tokens of the pair (R394-R398). What one opcode adds is an `OpSpec`. -/
namespace Sys2Proof.Machine

/-- Which form of parameters an opcode takes (R45): inline, a descriptor of the lengths allowed, or either. -/
inductive ParamForm where
  | inline
  | desc (lens : List Nat)
  | either (lens : List Nat)
deriving DecidableEq, Repr

/-- What an opcode adds to the entry checks, and what it does. -/
structure OpSpec where
  form   : ParamForm := .inline
  /-- Step 4: parameters valid, given that they were read. -/
  valid  : State → Cmd → Bool := fun _ _ => true
  /-- Step 5: the CAUSE, access and address of a refusal (R121). -/
  rights : State → Cmd → Option (Nat × Rights × Nat) := fun _ _ => none
  /-- Step 7, and the checks that R98 and others put after step 5: the status of a refusal. -/
  admits  : State → Cmd → Option Nat := fun _ _ => none
  /-- Executed by hardware (R57): metered at step 6 by this many bytes. -/
  charge : Cmd → Option Nat := fun _ => none
  /-- S of a data operation, and its operands (R65, R66). -/
  size   : State → Cmd → Option (Nat × List (List (Nat × Nat))) := fun _ _ => none
  /-- The command whose admitted rate this one shares: an earlier contribution of the same step (R247). -/
  share  : State → Cmd → Option Cmd := fun _ _ => none
  /-- Step 7 once the admitted rate is known: the status of a refusal. -/
  fits   : State → Cmd → Option Nat := fun _ _ => none
  /-- What `aux` holds from entry on: the further rates of the ACCEPTED reply (R270, R286), or the checkpoint of an export. -/
  rates  : State → Cmd → List Nat := fun _ _ => []
  /-- Units or granules of a granular operation; none for one that acts when it is ready. -/
  total  : State → Cmd → Option Nat := fun _ _ => none
  /-- The effect of a command that is ready and not granular, on its store slot. -/
  act    : State → Nat → State := fun s _ => s
  /-- The next granule or unit of a granular operation that runs, on its store slot: with the last it ends. None for runs,
  contributions and lock-ups, which their own events advance. -/
  step   : Option (State → Nat → State) := none

/-! ## Slices (R66, R361) -/

/-- Slices: cream of p is p, skim of p is 8 + p, port n is 16 + n, PCIe is 30. Rates in MB/s. -/
def sliceRate (s : State) (x : Nat) : Nat :=
  if x < 8 then 1228800
  else if x < 16 then
    match (chan0 s (x - 8)).rate with
    | 0 => 204800
    | 1 => 230400
    | 2 => 256000
    | _ => 281600
  else if x < 30 then 184000 else 128000
def sliceOf (ppa : Nat) : Nat := if ppaCream ppa then ppaPart ppa else 8 + ppaPart ppa

/-- Adds bytes to a slice. -/
def addSlice (l : List (Nat × Nat)) (x b : Nat) : List (Nat × Nat) :=
  match l with
  | [] => [(x, b)]
  | (y, c) :: t => if y = x then (y, c + b) :: t else (y, c) :: addSlice t x b

/-- The slices that a span of requester addresses touches, by the extents of the translations; `fuel` bounds the extents. What does not
translate now counts nowhere. -/
def spanSlicesN (h : Nat) : Nat → State → Nat → Nat → List (Nat × Nat) → List (Nat × Nat)
  | 0, _, _, _, l => l
  | fuel + 1, s, a, n, l =>
    if n = 0 then l
    else match extentAt s h a with
      | some e =>
        let k := min n (e.start + e.len - a)
        spanSlicesN h fuel s (a + k) (n - k) (addSlice l (sliceOf (e.ppa + (a - e.start))) k)
      | none => spanSlicesN h fuel s (a + (4096 - a % 4096)) (n - (4096 - a % 4096)) l
/-- Granules that a span can touch, and one more: every extent ends at a granule. -/
def spanFuel (n : Nat) : Nat := n / 4096 + 2
/-- The operand that a span of requester addresses is: its bytes on each slice. -/
def spanSlices (s : State) (h a n : Nat) : List (Nat × Nat) := spanSlicesN h (spanFuel n) s a n []

/-- The extents of a span: requester address, bytes, PPA and RANGE_ID. None where some address does not translate. -/
def extentsN (h : Nat) (s : State) : Nat → Nat → Nat → Option (List (Nat × Nat × Nat × Nat))
  | 0, _, _ => none
  | fuel + 1, a, n =>
    if n = 0 then some []
    else match extentAt s h a with
      | some e =>
        let k := min n (e.start + e.len - a)
        (extentsN h s fuel (a + k) (n - k)).map ((a, k, e.ppa + (a - e.start), e.rid) :: ·)
      | none => none
def extents (s : State) (h a n : Nat) : Option (List (Nat × Nat × Nat × Nat)) := extentsN h s (spanFuel n) a n
/-- A span in physical addresses: its extents of PPA and bytes. -/
def spanExts (s : State) (h a n : Nat) : List (Nat × Nat) := ((extents s h a n).getD []).map fun x => (x.2.2.1, x.2.1)

/-- Does the span from `a` leave range `rid`? Without stage 1 it leaves the range where that ends; with it, where an entry leads to
another range. What translates to nothing is a fault when it is reached. -/
def spanLeavesN (h rid : Nat) (s1 : Bool) (s : State) : Nat → Nat → Nat → Bool
  | 0, _, _ => false
  | fuel + 1, a, n => n != 0 && match extentAt s h a with
    | some e => e.rid != rid || spanLeavesN h rid s1 s fuel (e.start + e.len) (n - (e.start + e.len - a))
    | none => !s1 || spanLeavesN h rid s1 s fuel (a + (4096 - a % 4096)) (n - (4096 - a % 4096))
/-- Does a span leave the range that holds its first byte (R57, R103, R244)? It is judged where the access to its first byte is permitted:
otherwise step 5 or the access decides. -/
def spanLeaves (s : State) (h a n : Nat) (acc : Rights) : Bool := match checkRa s h a acc with
  | .ok _ rid => spanLeavesN h rid (match s.host h with
      | some e => e.s1En
      | none => false) s (spanFuel n) a n
  | _ => false

/-- Slices of one kind: cream, skim, or one port. -/
def sliceKind (x : Nat) : Nat := if x < 8 then 0 else if x < 16 then 1 else x
/-- The slices of a list of operands. -/
def touched (ops : List (List (Nat × Nat))) : List Nat := (ops.flatMap fun o => (o.filter (·.2 != 0)).map (·.1)).eraseDups
/-- The time that operations keep slice `x` per byte counted in S, times S, as a fraction: over the operands, the bytes of an operand on
slices of its kind by the sum of their rates (R66). -/
def sliceTime (s : State) (x : Nat) (ops : List (List (Nat × Nat))) : Nat × Nat :=
  ops.foldl (fun q o =>
    let g := o.filter fun b => sliceKind b.1 == sliceKind x && b.2 != 0
    if g.any (·.1 == x) then
      let r := g.foldl (fun n b => n + sliceRate s b.1) 0
      (q.1 * r + g.foldl (fun n b => n + b.2) 0 * q.2, q.2 * r)
    else q) (0, 1)

/-- The largest rate at which `room x` of the rate of every slice suffices for S bytes: none for an operation that touches no slice. -/
def rateWithin (s : State) (size : Nat) (ops : List (List (Nat × Nat))) (room : Nat → Nat) : Option Nat :=
  (touched ops).foldl (fun m x =>
    let (n, d) := sliceTime s x ops
    let v := room x * size * d / (10 * sliceRate s x * max n 1)
    some (match m with
      | none => v
      | some w => min v w)) none

/-- The idle admitted rate (R66): no slice is loaded beyond 0.9 of its rate. -/
def idleRate (s : State) (size : Nat) (ops : List (List (Nat × Nat))) : Nat :=
  (rateWithin s size ops fun x => 9 * sliceRate s x).getD 0

/-- The loads of an operation on its slices (R66): R_ADM × B ÷ S, where slices that are taken together share by their rates. -/
def loadsOf (s : State) (rAdm size : Nat) (ops : List (List (Nat × Nat))) : List (Nat × Nat) :=
  (touched ops).map fun x =>
    let (n, d) := sliceTime s x ops
    (x, rAdm * sliceRate s x * n / max (d * size) 1)

/-- The sum of the loads on a slice of the commands that satisfy `f`. -/
def loadSum (s : State) (x : Nat) (f : Nat → Cmd → Bool) : Nat :=
  s.store.cmds.foldl (fun n e => if f e.1 e.2 then n + (e.2.loads.filter (·.1 == x)).foldl (fun m l => m + l.2) 0 else n) 0

/-- Chunks of a galley in the cream of partition `p` (R277). -/
def Galley.partChunks (g : Galley) (p : Nat) : Nat :=
  g.ext.foldl (fun n e => if ppaPart e.1 = p then n + e.2 / 2 ^ 22 else n) 0
/-- Ingest rate that a galley reserves on the cream of partition `p`, in MB/s (R277). -/
def Galley.partRate (g : Galley) (p : Nat) : Nat := g.rIng * g.partChunks p / max g.chunks 1
/-- The ingest rates reserved on a slice. -/
def galLoad (s : State) (x : Nat) : Nat := if x < 8 then s.work.gals.foldl (fun n g => n + g.2.partRate x) 0 else 0

/-- R_ADM (R518): the idle rate, lowered by the admitted operations of equal or higher priority, at least a sixteenth. -/
def admittedRate (s : State) (prio size idle : Nat) (ops : List (List (Nat × Nat))) : Nat :=
  let room := fun (x : Nat) => 9 * sliceRate s x - 10 * (galLoad s x + loadSum s x fun _ c => decide (c.prio ≤ prio))
  max ((idle + 15) / 16) (min idle ((rateWithin s size ops room).getD idle))

/-! ## Refusals -/

/-- The HOST_ID logged for a packet from a rank that no rank-table entry binds to an identity (log 40). -/
def noHost : Nat := 65535

/-- An isolation refusal found at entry (R119): nothing happens until the fixed delay has run. -/
def refuseIso (s : State) (c : CmdIn) (host cause : Nat) (acc : Rights) (addr : Nat) (seq : Nat := 0) (vis : Option Nat := none) : State :=
  { s with store := { s.store with refusals := s.store.refusals ++ [{
      chan := c.chan, raw := c.raw, txn := c.txn, due := vis.getD s.now + 16500, host := host, cause := cause, access := acc
      addr := addr, prio := effPrio s c.chan c.raw, clamped := isClamped s c.chan c.raw, seq := seq, ord := s.store.seq }] } }

/-- Any other refusal at entry: one final reply at once, with the LOAD of an item that was charged (R145). -/
def refuse (s : State) (rt : ReplyTo) (status : Nat) (load : Nat := 0) : State := issueReply s rt status load false true .normal 0 0 []

/-- The answer RETRY (R62), with LOAD as R145 says of the item that was charged, or LOAD_REFUSED_RESOURCES where no shared slot can be reserved. -/
def retry (s : State) (rt : ReplyTo) (load : Nat := 0) : State :=
  if sharedFree s = 0 then refuse s rt stRESOURCES load
  else
    let x := s.chan rt.chan
    -- any non-zero value not in use on the channel: free (log 5)
    let t := unusedToken (x.tokens.map (·.value.toNat)) (s.fresh 16).toNat
    let s := (s.setChan rt.chan { x with tokens := x.tokens ++ [{ value := BitVec.ofNat 16 t, expiry := s.now + ms 1, slot := true }] }).bump
    issueReply s rt stRETRY load false true (.token t) 0 0 []

/-- Is the token of the command valid on its channel (R63)? -/
def tokenValid (s : State) (ch : Chan) (raw : W512) : Bool :=
  retryTok raw != 0 && (s.chan ch).tokens.any fun t => t.value.toNat == retryTok raw && decide (s.now < t.expiry)
def dropToken (s : State) (ch : Chan) (v : Nat) : State :=
  let x := s.chan ch
  s.setChan ch { x with tokens := x.tokens.filter fun t => t.value.toNat != v }

/-! ## The checks of R53 -/

/-- Are bytes `[o, o + n)` of the command 0 (R517)? -/
def zeroB (raw : W512) (o n : Nat) : Bool := cmdB raw o n == 0

/-- The reserved fields, counts and modes of step 4 (R39, R42, R55). -/
def formOk (ch : Chan) (raw : W512) : Bool :=
  let b3 := cmdB raw 3 1
  let w := cmdB raw 12 2
  b3 / 32 == 0 && srcOf raw / 2 ^ 22 == 0 && decide (srcOf raw / 2 ^ 20 % 4 < 2) && w / 2 ^ 14 == 0
    && decide (waitN raw ≤ 4) && decide (sigN raw ≤ 4)
    && (waits raw).all (fun e => decide (e.2 ≤ 1)) && (sigs raw).all (fun e => e.2 == 0)
    && zeroB raw (48 + 2 * waitN raw) (8 - 2 * waitN raw) && zeroB raw (56 + 2 * sigN raw) (8 - 2 * sigN raw)
    && (match ch with
      | .ring _ => true
      | .rank _ => !notifyBit raw)

/-- Do the source fields name the channel the command arrived on (R40)? -/
def sourceOk : Chan → W512 → Bool
  | .ring n, raw => srcOf raw == n
  | .rank r, raw => srcOf raw == 2 ^ 20 + r

/-- What reading the descriptor gives (R45, R46, R120). -/
inductive Desc where
  | ok (bs : List Byte)
  | malformed
  | refused
  | offline
deriving DecidableEq, Repr

/-- A fabric descriptor, from the range cache only (R120), line by line. A line that a gate holds (R104) or a window's snoop delays (R301)
cannot be read in time, and counts as one that cannot be read (log 17). -/
def fabDesc (h : Nat) : Nat → State → Nat → List Byte → Desc × State
  | 0, s, _, acc => (.ok acc, s)
  | n + 1, s, a, acc =>
    match rcFind s h a with
    | none =>
      -- a walk loads the entry where the host holds the read right
      (.malformed, match lookup s h a rRead with
        | (.ok _ _, s1) => s1
        | _ => s)
    | some (_, e) =>
      if e.rights &&& rRead = 0 then (.refused, s)
      else match place s e.rid (e.ppa + (a - e.start)) with
        | .held => (.malformed, s)
        | .at_ r _ => match readAt s r 64 with
          | (.ok bs, s1) => fabDesc h n s1 (a + 64) (acc ++ bs)
          | (.offline _, s1) => (.offline, s1)
          | (_, s1) => (.malformed, s1)

/-- Reads the descriptor that the command names (R45, R46, R129). -/
def readDesc (s : State) (c : CmdIn) (h : Nat) : Desc × State :=
  let a := cmdB c.raw 16 8
  let n := cmdB c.raw 24 2
  if a % 64 != 0 || n % 64 != 0 || decide (n < 64) || decide (4096 < n) || !zeroB c.raw 26 22 then (.malformed, s)
  else match c.chan with
    | .rank _ => if decide (2 ^ 52 ≤ a) then (.malformed, s) else fabDesc h (n / 64) s a []
    | .ring _ =>
      match takeUnit s h 2 a (a + n) n c.raw with
      | (some bs, s1) => (.ok bs, s1)
      | (none, s1) => (.malformed, s1)

/-- Does the opcode run in every tenant state (R106): CAP_QUERY and firmware update (R72, R454)? -/
def alwaysOp (op : Nat) : Bool := op == 0x0F00 || (decide (0x0F02 ≤ op) && decide (op ≤ 0x0F06))

/-- What is wrong with where a packet came from (R36, R114): CAUSE 7 for a rank without a rank-table entry, CAUSE 4 for a port that is
neither the first hop of the rank's return route nor its partner. Nothing of the packet is used before this check. -/
def portCause (s : State) (ch : Chan) (port : Nat) : Option Nat := match ch with
  | .ring _ => none
  | .rank r => match s.rankE r with
    | none => some 7
    | some e => if port == e.portA || port == (e.portA ^^^ 1) then none else some 4

/-- May the host identity of the command wait on and signal the objects it names (R37, R228)? One that is not VALID has no rights (R113). -/
def syncRights (s : State) (raw : W512) (h : Nat) : Bool :=
  if (s.host h).isNone then waits raw == [] && sigs raw == []
  else (waits raw).all (fun e => (s.obj e.1).mayWait h) && (sigs raw).all (fun e => (s.obj e.1).maySignal h)

/-- The channel-level part of step 5: source fields (R40), tenant state (R106), host identity (R113), sync objects (R37, R228). -/
def sourceRights (s : State) (c : CmdIn) (h : Nat) : Option Nat :=
  let op := opcodeOf c.raw
  if !sourceOk c.chan c.raw then some 3
  else if s.iso.tenant != 1 && !s.fw.standby && !alwaysOp op then some 6
  else if (s.host h).isNone && s.iso.tenant == 1 && !s.fw.standby && op != 0x0F00 then some 8
  else if !syncRights s c.raw h then some (if (s.host h).isNone then 8 else 1)
  else none

/-- What the entry checks find. -/
inductive Entry where
  /-- Accepted: the command as the store takes it. -/
  | pass (c : Cmd)
  | refused (status : Nat)
  | isolation (cause : Nat) (acc : Rights) (addr : Nat)
  | retry
deriving DecidableEq, Repr

/-- The command as it stands before admission. -/
def toCmd (s : State) (c : CmdIn) (h : Nat) (desc : List Byte) (vis : Nat) : Cmd :=
  { chan := c.chan, raw := c.raw, txn := c.txn, data := c.data, desc := desc, host := h
    prio := effPrio s c.chan c.raw, clamped := isClamped s c.chan c.raw, seq := s.store.seq + 1
    visible := vis, accepted := s.now }

/-- Admission (step 7) and what it fixes: R_ADM and the loads (R66, R518). -/
def entryAdmit (s : State) (sp : OpSpec) (x : Cmd) : Entry :=
  match sp.admits s x with
  | some st => .refused st
  | none =>
    let x := { x with total := (sp.total s x).getD 0, aux := sp.rates s x }
    match sp.share s x, sp.size s x with
    | some d, _ => .pass { x with size := d.size, idle := d.idle, rAdm := d.rAdm }
    | none, none => .pass x
    | none, some (size, ops) =>
      let idle := idleRate s size ops
      let r := admittedRate s x.prio size idle ops
      let x := { x with size := size, idle := idle, rAdm := r, loads := loadsOf s r size ops }
      match sp.fits s x with
      | some st => .refused st
      | none => .pass x

/-- Steps 5 and 7 with the credit check of step 6 (R61-R63), for a command whose first four steps pass. A valid token serves one command:
this one, whatever step 7 or its meter then finds. -/
def entryRest (s : State) (sp : OpSpec) (c : CmdIn) (x : Cmd) : Entry × State :=
  match sp.rights s x with
  | some (cause, acc, addr) => (.isolation cause acc addr, s)
  | none =>
    let n := outstanding s c.chan
    let overs := match c.chan with
      | .ring _ => false
      | .rank _ => decide ((s.chan c.chan).lastCredit.getD (s.chan c.chan).creditMax ≤ n)
    if tokenValid s c.chan c.raw then
      let s := dropToken s c.chan (retryTok c.raw)
      (entryAdmit s sp x, s)
    else if overs then (.retry, s)
    else if n != 0 && sharedFree s == 0 then (.refused stRESOURCES, s)
    else (entryAdmit s sp x, s)

/-- The entry checks of R53 in order, and the state after the descriptor was read. -/
def entryChecks (s : State) (spec : Option OpSpec) (c : CmdIn) (vis : Option Nat := none) : Entry × State :=
  let h := (s.chanHost c.chan).getD 65536
  let op := opcodeOf c.raw
  if s.fw.standby && !alwaysOp op then (.refused stVERSION, s)
  else if cmdB c.raw 2 1 / 16 != 1 then (.refused stVERSION, s)
  else match spec with
    | none => (.refused stOPCODE, s)
    | some sp =>
      let dataLen := if op == 0x0102 then cmdB c.raw 24 4 else 0
      let badData := match c.chan with
        | .ring _ => c.data != []
        | .rank _ => c.data.length != dataLen
      if !formOk c.chan c.raw || tagInUse s c.chan (tagOf c.raw) || badData then (.refused stMALFORMED, s)
      else
        let descOk := match sp.form with
          | .inline => !descBit c.raw
          | .desc _ => descBit c.raw
          | .either _ => true
        let lens := match sp.form with
          | .inline => []
          | .desc l => l
          | .either l => l
        if !descOk then (.refused stMALFORMED, s)
        else
          let (d, s1) := if descBit c.raw then readDesc s c h else (.ok [], s)
          match d with
          | .malformed => (.refused stMALFORMED, s1)
          | .offline => (.refused stOFFLINE, s1)
          | .refused => (.isolation 5 rRead (cmdB c.raw 16 8), s1)
          | .ok bs =>
            if descBit c.raw && lens != [] && !lens.contains bs.length then (.refused stMALFORMED, s1)
            else
              let x := toCmd s1 c h bs (vis.getD s1.now)
              if !sp.valid s1 x then (.refused stMALFORMED, s1)
              else match sourceRights s1 c h with
                | some cause => (.isolation cause 0 0, s1)
                | none => entryRest s1 sp c x

/-! ## Order tokens (R396, R397) -/

/-- The current digest interval: opened by the first token after a cut (R404). -/
def openInterval (s : State) : State :=
  if s.mir.intervals.any (fun i => i.n == s.mir.curInt && !i.cut) then s
  else { s with mir := { s.mir with intervals := s.mir.intervals ++ [{ n := s.mir.curInt, opened := s.now }] } }

/-- Assigns the next SEQ to a mutating command on the active and sends its token (R396, R397): the SEQ and interval given. -/
def assignToken (s : State) (raw : W512) (outcome : Nat) : (Nat × Nat) × State :=
  if s.mir.state != 1 || readClass raw || opcodeOf raw / 256 == 9 then ((0, 0), s)
  else
    let s := openInterval s
    let n := s.mir.seq + 1
    let hw := decide (0x0101 ≤ opcodeOf raw) && decide (opcodeOf raw ≤ 0x0104)
    let bs := mirHead 1 4 ++ leBytes 8 n ++ leBytes 4 (srcOf raw) ++ leBytes 4 (tagOf raw) ++ leBytes 2 (opcodeOf raw)
      ++ [BitVec.ofNat 8 outcome, if hw then 1 else 0] ++ leBytes 4 s.mir.curInt
    let upd := s.mir.intervals.map fun i => if i.n = s.mir.curInt && outcome = 1 then { i with count := i.count + 1 } else i
    let s := { s with mir := { s.mir with seq := n, intervals := upd } }
    ((n, s.mir.curInt), if s.mir.inStep || s.mir.watermark.isSome then sendMir s bs else s)

/-! ## Acceptance -/

/-- Sends the ACCEPTED reply of a stored command, with R_ADM for a data operation (R52, R65) and the further
rates of ATT_SCORE and GAL_LOCKUP (R270, R286). -/
def sendAccepted (s : State) (c : Cmd) : State :=
  if s.mir.state = 3 then s
  else
    let more := opcodeOf c.raw == 0x0403 || opcodeOf c.raw == 0x0503
    issueReply s c.replyTo stACCEPTED (loadOf s c) false false .normal 0
      (c.rAdm + (if more then 2 ^ 32 * c.aux.getD 0 0 + 2 ^ 64 * c.aux.getD 1 0 else 0)) []

/-- Puts a command into the store at the lowest free slot (R38): the slot and the state. -/
def storeCmd (s : State) (c : Cmd) : Nat × State :=
  let k := tabGap s.store.cmds 0
  (k, { s with store := { s.store with cmds := tabIns s.store.cmds k c, seq := s.store.seq + 1 } })

/-! ## Units that a command needs (R427, R429, R464) -/

/-- Does SEC execute the opcode: tables, sync-object control words, firmware update (R448, R464)? -/
def secOp (op : Nat) : Bool :=
  [0x0105, 0x0106, 0x0108, 0x0109, 0x0200, 0x0203, 0x0600, 0x0601, 0x0602].contains op || (decide (0x0F02 ≤ op) && decide (op ≤ 0x0F06))
/-- Does the command need the unit: SCH all but plain hardware opcodes, SEC those it executes, PMC the energy opcodes? -/
def needsUnit (c : Cmd) (u : W32) : Bool :=
  let op := opcodeOf c.raw
  (u == unitOf 5 2 && (!decide (op ≤ 0x0104) || waitN c.raw != 0 || fenceBit c.raw)) || (u == unitOf 5 0 && secOp op)
    || (u == unitOf 5 1 && (op == 0x0F10 || op == 0x0F11))
/-- Is the command held on a core in CONTAINED or RECOVERING (R427)? -/
def heldOn (s : State) (c : Cmd) : Bool := [unitOf 5 0, unitOf 5 1, unitOf 5 2].any fun u => unitDown s u && needsUnit c u

/-- A hardware memory opcode (R57). -/
def memOp (op : Nat) : Bool := decide (0x0101 ≤ op) && decide (op ≤ 0x0104)
/-- Does an earlier command of the channel and priority of the command in slot `k` stand ready, so that it starts first (R60)? A run whose
tiles are busy is not ready yet (R187). -/
def earlierReady (s : State) (k : Nat) (c : Cmd) : Bool :=
  c.ordered && s.store.cmds.any fun e => e.1 != k && e.2.chan == c.chan && e.2.prio == c.prio && e.2.ordered && e.2.st == .ready
    && !e.2.started && decide (e.2.seq < c.seq)
    && (opcodeOf e.2.raw != 0x0381 || (runTiles s e.2).all fun n => (s.tile n).run.isNone)

/-- Tells the requester that its command is accepted, where nothing has told it yet: a command that outlasts its act, but for a
hardware opcode (R52, R64). -/
def tellAccepted (s : State) (k : Nat) : State := match s.cmd k with
  | some c => if c.told || (decide (0x0100 ≤ opcodeOf c.raw) && decide (opcodeOf c.raw ≤ 0x0104)) then s else sendAccepted (s.setCmd k { c with told := true }) c
  | none => s

/-- Acceptance (R43, R52, R58): held while it waits; otherwise a data operation is acknowledged with its rate (R65); a granular one is
made ready, and so is one that another precedes (R60), or a data operation while starts are held (R472); any other acts now. A hardware opcode gets no ACCEPTED. -/
def acceptCmd (s : State) (sp : OpSpec) (c : Cmd) : State :=
  -- a hardware memory opcode has its SEQ from the memory stop that applies it (R396)
  let ((n, iv), s) := if memOp (opcodeOf c.raw) then ((0, 0), s) else assignToken s c.raw 1
  let c := if n = 0 then c else { c with mirSeq := n, mirInt := iv }
  let hw := (sp.charge c).isSome || opcodeOf c.raw == 0x0100
  let mustWait := waitsOf s c.raw != .met || fenced s c || !tokenOk s c
  let stands := (sp.total s c).isSome || earlierReady s (tabGap s.store.cmds 0) c || (s.pwr.hold && c.loads != [])
  if mustWait then
    let (_, s) := storeCmd s { c with told := !hw }
    settle (if hw then s else sendAccepted s c)
  else if heldOn s c then
    let (_, s) := storeCmd s { c with st := .heldUnit, startedAt := s.now, told := !hw }
    if hw then s else sendAccepted s c
  else
    let tell := stands || (sp.size s c).isSome
    let (k, s) := storeCmd s { c with st := .ready, startedAt := s.now, told := tell }
    let s := if tell then sendAccepted s c else s
    if stands then s else sp.act s k

/-- A refusal at entry, with its token where the pair needs one; it waits for the acknowledgement of the token (R396). -/
def refuseTok (s : State) (c : CmdIn) (status : Nat) (load : Nat := 0) : State :=
  let rt := replyTo s c
  let ((n, _), s) := assignToken s c.raw status
  if seqOk s n then (if status = stRETRY then retry s rt load else refuse s rt status)
  else holdReply s { seq := n, chan := c.chan, raw := c.raw, txn := c.txn, prio := rt.prio, clamped := rt.clamped, status := status
                     load := load, ord := s.store.seq }
/-- The same for RETRY. -/
def retryReply (s : State) (c : CmdIn) (load : Nat := 0) : State := refuseTok s c stRETRY load

/-- Does the part serve commands at all: in READY or STANDBY_REFUSED, not held in reset, tripped, in recovery or FAILED (R441,
R442, R453, R460, R476)? -/
def serving (s : State) : Bool :=
  (s.boot.stage == 7 || s.boot.stage == 8) && !s.boot.inReset && !s.flt.recovery && !s.flt.failed && !s.saf.tripped

/-- May the device interface of a ring issue commands: in RUN, where the host has PATH 2 (R128)? -/
def ifaceRuns (s : State) (n : Nat) : Bool := match s.host (s.ring n).ident with
  | some h => h.path != 2 || tabGet 0 s.iso.tdisp (ringFn s n) == 2
  | none => true
/-- Does a channel take commands as far as its device interface is concerned (R128)? -/
def chanRuns (s : State) : Chan → Bool
  | .ring n => ifaceRuns s n
  | .rank _ => true
/-- A mutating copy on a standby waits for its token (R398). -/
def holdCopy (s : State) (c : CmdIn) (vis : Option Nat := none) : State :=
  { s with mir := { s.mir with copies := s.mir.copies ++ [(s.mir.copyNo, c, vis.getD s.now)], copyNo := s.mir.copyNo + 1 } }

/-- The galley whose reserved ingest a MEM_WRITE belongs to (R280): open in INGEST with R_ING not 0. -/
def ingestOf (s : State) (c : Cmd) : Option (Nat × Galley) :=
  if opcodeOf c.raw != 0x0102 then none
  else match checkRa s c.host (cmdB c.raw 16 8) rWrite with
    | .ok ppa _ => s.work.gals.find? fun g => g.2.state == 2 && g.2.rIng != 0 && g.2.holds ppa
    | _ => none

/-- The whole arrival of a command packet. The device that does not serve takes none; a fenced active answers fabric commands
PARTITION_OFFLINE (R411); a standby keeps mutating copies and answers reads PARTITION_OFFLINE (R395, R398), and drops a packet whose port is
wrong, as its active refuses its own copy. `vis` is the moment it became visible (R64), now where it is none. -/
def receive (s : State) (spec : Option OpSpec) (c : CmdIn) (vis : Option Nat := none) : State :=
  let op := opcodeOf c.raw
  let own := op == 0x0900 || op == 0x0903 || op == 0x0F00
  let port := portCause s c.chan c.port
  if !serving s || !chanRuns s c.chan then s
  else if port.isSome then
    if pairHeld s then s else refuseIso s c ((s.chanHost c.chan).getD noHost) (port.getD 0) 0 0 0 vis
  else if s.mir.state == 5 && !own && op != 0x0901 then
    match c.chan with
    | .rank _ => refuse s (replyTo s c) stOFFLINE
    | .ring _ => s
  else if pairHeld s && !own && op != 0x0901 then
    if readClass c.raw then refuse s (replyTo s c) stOFFLINE else holdCopy s c vis
  else match entryChecks s spec c vis with
    | (.refused st, s1) => refuseTok (if st = stENERGY then energyRefused s1 else s1) c st
    | (.isolation cause acc addr, s1) =>
      let ((n, _), s1) := assignToken s1 c.raw stACCESS
      refuseIso s1 c ((s1.chanHost c.chan).getD noHost) cause acc addr n vis
    | (.retry, s1) => retryReply s1 c
    | (.pass x, s1) =>
      match spec with
      | none => s1
      | some sp => match sp.charge x with
        | none => acceptCmd s1 sp x
        | some b =>
          if (ingestOf s1 x).isSome then acceptCmd (chargeReserved s1 x.host b) sp { x with color := 4 }
          else
          let (col, s2) := chargeItem s1 x.host b
          if col = 3 then retryReply s2 c 14 else acceptCmd s2 sp { x with color := col }

/-- The packet of a row: the row fixes the opcode. -/
def withOpcode (c : CmdIn) (op : Nat) : CmdIn :=
  { c with raw := (c.raw &&& ~~~(0xFFFF : W512)) ||| BitVec.ofNat 512 op }

/-! ## Checks that opcodes share -/

/-- Is the issuer the tenant administrator (R96, R113)? -/
def isAdmin (s : State) (h : Nat) : Bool := match s.host h with
  | some e => e.admin
  | none => false
/-- Step 5 of an *admin* opcode: anyone else is an isolation refusal (log 10: CAUSE 1). -/
def adminOnly (s : State) (c : Cmd) : Option (Nat × Rights × Nat) := if isAdmin s c.host then none else some (1, 0, 0)

/-- Step 5 of an address: the first granule at `a` (R53). Only a refusal counts; faults and offline partitions come later. -/
def rightsAt (s : State) (h a : Nat) (acc : Rights) : Option (Nat × Rights × Nat) :=
  match checkRa s h a acc with
  | .refused cause => some (cause, acc, a)
  | _ => none
/-- The first refusal of a list of checks. -/
def firstRefusal : List (Option (Nat × Rights × Nat)) → Option (Nat × Rights × Nat)
  | [] => none
  | some x :: _ => some x
  | none :: t => firstRefusal t

/-- A requester or intermediate address field: bits [63:52] are 0 (R78). -/
def addrOk (a : Nat) : Bool := decide (a < 2 ^ 52)

end Sys2Proof.Machine
end

