-- ==== Sys2Proof/Machine/Hwmem.lean ====
section
/-! DEFINITION. The hardware memory opcodes (R57, R58, R138, R372) and what any operation does when an access does not
complete: suspension by a translation fault (R99-R101) and a refusal found late (R119). -/
namespace Sys2Proof.Machine

/-! ## Accesses that do not complete -/

/-- Reply slots promised to a ring's commands (R76): two at acceptance, one once ACCEPTED is written. -/
def rqReserved (s : State) (ch : Chan) : Nat :=
  s.store.cmds.foldl (fun n e => if e.2.chan == ch then n + (if e.2.told then 1 else 2) else n) 0
    + 2 * (s.store.refusals.filter fun r => r.chan == ch && r.key.isNone).length

/-- Sends SUSPENDED with the saved position (R76, R99); on a ring only into a slot beyond all reservations. -/
def sendSuspended (s : State) (c : Cmd) : State :=
  let room := match c.chan with
    | .ring n => decide (rqReserved s c.chan < rqFree (s.ring n))
    | .rank _ => true
  if room && s.mir.state != 3 then issueReply s c.replyTo stSUSPENDED (loadOf s c) false false .normal c.progress 0 []
  else s

/-- The next FAULT_ID: incrementing, skipping 0 (R100). -/
def nextFid (s : State) : W32 := if s.xlt.lastFid + 1 = 0 then 1 else s.xlt.lastFid + 1

/-- Raises a translation fault (R99-R101): counted, with its own FAULT_ID and escalation time. The command, if it was
running, is suspended at the granule boundary and its requester told. -/
def raiseXlt (s : State) (k : Nat) (tile : Option (Nat × Bool)) (host ga kind : Nat) (acc : Rights) : State :=
  let fid := nextFid s
  let owner := match s.host host with
    | some e => e.s1Owner
    | none => 0
  let f : XFault := { id := fid, key := k, tile := tile, ga := ga / 4096 * 4096, host := host, owner := owner, kind := kind
                      access := acc, expiry := s.now + ms s.xlt.escalateMs }
  let s := { s with xlt := { s.xlt with lastFid := fid, faults := satAdd 32 s.xlt.faults 1, pending := s.xlt.pending ++ [f] } }
  match tile with
  | some _ => s
  | none =>
    let s := tellAccepted s k
    match s.cmd k with
    | none => s
    | some c => sendSuspended (s.setCmd k { c with st := .suspended }) c

/-- A refusal found at a later granule (R119): the command ends ACCESS_REFUSED after the fixed delay. -/
def lateRefusal (s : State) (k cause : Nat) (acc : Rights) (addr : Nat) : State :=
  match s.cmd k with
  | none => s
  | some c =>
    let s := s.setCmd k { c with st := .finishing }
    { s with store := { s.store with refusals := s.store.refusals ++ [{
        chan := c.chan, raw := c.raw, txn := c.txn, due := s.now + 16500, host := c.host, cause := cause, access := acc
        addr := addr, prio := c.prio, clamped := c.clamped, prog := c.progress, key := some k }] } }

/-- RA of a poisoned line in RESULT bytes 24-31 (R236, R372). -/
def poisonResult (ra : Nat) : Nat := ra / 64 * 64 * 2 ^ 64

/-- What becomes of a command whose access at `ra` did not complete; a held access leaves it to be started again. -/
def stopAt (s : State) (k ra : Nat) (acc : Rights) (why : Acc Unit) : State :=
  match s.cmd k with
  | none => s
  | some c => match why with
    | .ok () => s
    | .held => tellAccepted (s.setCmd k { c with st := .ready }) k
    | .refused cause => lateRefusal s k cause acc ra
    | .fault kind => raiseXlt s k none c.host ra kind acc
    | .offline _ => settle (finish s k stOFFLINE c.progress)
    | .poisoned => settle (finish s k stPOISONED c.progress (poisonResult ra))

/-! ## The opcodes -/

/-- The start of an access of a command: nothing seen and no stop used yet. -/
def beginAccess (s : State) : State := { s with mir := { s.mir with saw := false }, qos := { s.qos with used := [] } }
/-- Runs `f` with writes counted in the digest interval of the command (R404). -/
def underSeq (c : Cmd) (f : State → State) (s : State) : State :=
  let s := beginAccess s
  let s1 := f { s with mir := { s.mir with cur := if c.mirSeq = 0 then none else some c.mirInt } }
  { s1 with mir := { s1.mir with cur := none } }

/-- OK, or DISPUTED where a read lay in a disputed range (R407). -/
def okStatus (s : State) : Nat := if s.mir.saw then stDISPUTED else stOK

/-- Delivers data to a host buffer of a ring, under PATH 3 with its seal record after the buffer (R57, R129). -/
def toBuf (s : State) (h buf : Nat) (bs : List Byte) : State := putUnit s h 3 buf (buf + bs.length) bs

/-- The data of a MEM_WRITE: the packet's, or the host buffer's. -/
def writeData (s : State) (c : Cmd) (len : Nat) : Option (List Byte) × State :=
  match c.chan with
  | .rank _ => (some c.data, s)
  | .ring _ => takeUnit s c.host 3 (cmdB c.raw 32 8) (cmdB c.raw 32 8 + len) len c.raw

/-- The value of an atomic operation on `w` bytes (R57). -/
def atomicOp (w op old x : Nat) : Nat :=
  let m := 2 ^ (8 * w)
  let sgn := fun (v : Nat) => decide (m / 2 ≤ v)
  let sLt := fun (a b : Nat) => if sgn a == sgn b then decide (a < b) else sgn a
  match op with
  | 0 => (old + x) % m
  | 1 => old &&& x
  | 2 => old ||| x
  | 3 => old ^^^ x
  | 4 => x
  | 5 => if old < x then x else old
  | 6 => if x < old then x else old
  | 7 => if sLt old x then x else old
  | _ => if sLt x old then x else old

/-- The read-modify-write of an atomic at requester address `a`: the previous value (R57, R382). -/
def atomicRa (s : State) (h a w : Nat) (f : Nat → Nat) : Acc Nat × State :=
  match lookup s h a rAtomic with
  | (.ok ppa rid, s1) => if wrShut s1 ppa then (.refused 2, s) else match place s1 rid ppa with
    | .held => (.held, s1)
    | .at_ r ws => match readAt (noteStops (seeDisputed s1 rid) r [0]) r w with
      | (.ok bs, s2) =>
        let old := leNat bs
        match writePlaces (leBytes w (f old)) ws s2 with
        | (.ok (), s3) => (.ok old, s3)
        | (r, s3) => (match r with
            | .ok () => .ok old
            | .held => .held
            | .refused c => .refused c
            | .fault k => .fault k
            | .offline p => .offline p
            | .poisoned => .poisoned, s3)
      | (.offline p, s2) => (.offline p, s2)
      | (.poisoned, s2) => (.poisoned, s2)
      | (_, s2) => (.held, s2)
  | (.refused c, s1) => (.refused c, s1)
  | (.fault k, s1) => (.fault k, s1)
  | (.offline p, s1) => (.offline p, s1)
  | (.held, s1) => (.held, s1)

/-- Notes on a command the stops that its access has used (R145). -/
def markUsed (s : State) (k : Nat) : State := match s.cmd k with
  | some c => s.setCmd k (notePoints s c)
  | none => s

/-- A hardware opcode at its memory stop takes effect. -/
def memApply (s : State) (k : Nat) : State :=
  match s.cmd k with
  | none => s
  | some c =>
    let op := opcodeOf c.raw
    let a := cmdB c.raw 16 8
    if op = 0x0100 then settle (finish s k stOK)
    else if op = 0x0101 then
      let len := cmdB c.raw 24 4
      match readGran (beginAccess s) c.host a len with
      | (.ok bs, s1) =>
        let s1 := match c.chan with
          | .ring _ => toBuf s1 c.host (cmdB c.raw 32 8) bs
          | .rank _ => s1
        let data := match c.chan with
          | .ring _ => []
          | .rank _ => bs
        settle (finish (markUsed s1 k) k (okStatus s1) 0 0 data)
      | (.stop ra w, s1) => stopAt s1 k ra rRead w
    else if op = 0x0102 then
      let len := cmdB c.raw 24 4
      match writeData s c len with
      | (none, s1) => settle (finish s1 k stMALFORMED)
      | (some bs, s1) => underSeq c (fun s1 => match writeGran s1 c.host a bs with
          | (.ok (), s2) => settle (finish (rtWrite (markUsed s2 k) c.host a bs.length) k stOK)
          | (.stop ra w, s2) => stopAt s2 k ra rWrite w) s1
    else
      let w := cmdB c.raw 25 1
      let f := fun old => if op = 0x0103 then atomicOp w (cmdB c.raw 24 1) old (cmdB c.raw 32 w)
        else if old = cmdB c.raw 32 w then cmdB c.raw 40 w else old
      underSeq c (fun s1 => match atomicRa s1 c.host a w f with
        | (.ok old, s2) => settle (finish (markUsed s2 k) k (okStatus s2) 0 old)
        | (r, s2) => stopAt s2 k a rAtomic r.void) s

/-- What a copy or digest of the pair reads of a line: its data as corrected, and of a poisoned line, whose mark is the member's own (R393),
the stored bytes (log 33). -/
def copyData (s : State) (a : Nat) : List Byte × State :=
  match readLine s a with
  | (some d, s1) => (d, s1)
  | (none, s1) => (rawLine s a, s1)
/-- Sends the 4 KiB block that holds an address as resynchronisation data (R403, R415). -/
def sendBlock (s : State) (ppa : Nat) : State :=
  let a := ppa / 4096 * 4096
  let (bs, s) := (List.range 64).foldl (fun (bs, s) i => let (d, s) := copyData s (a + 64 * i); (bs ++ d, s)) ([], s)
  sendMir s (mirHead 9 514 ++ leBytes 8 a ++ bs)
/-- A hardware opcode below the watermark of a copy phase sends a record of the line it wrote (R415). -/
def resyncLine (s : State) (h a : Nat) : State :=
  match s.mir.watermark, lookup s h a 0 with
  | some w, (.ok ppa _, _) => if ppa < w && s.mir.state == 1 then sendBlock s ppa else s
  | _, _ => s

/-- Service of a hardware opcode at its memory stop. A mutating one takes its SEQ there, and its effect waits until the standby has its
token (R396). -/
def memService (s : State) (k : Nat) : State :=
  match s.cmd k with
  | none => s
  | some c =>
    let op := opcodeOf c.raw
    if s.mir.state != 1 || c.mirSeq != 0 || op ≤ 0x0101 then memApply s k
    else
      let ((n, iv), s) := assignToken s c.raw 1
      let c := { c with mirSeq := n, mirInt := iv, opState := 1, st := .queued }
      if tokenOk s c then resyncLine (memApply (s.setCmd k c) k) c.host (cmdB c.raw 16 8) else s.setCmd k c

/-- The commands that wait for the acknowledgement of their tokens at a memory stop, in SEQ order. -/
def tokenWaiters (s : State) : List Nat :=
  let l := s.store.cmds.filter fun e => e.2.st == .queued && e.2.opState == 1 && e.2.mirSeq != 0 && tokenOk s e.2
  (l.mergeSort fun a b => decide (a.2.mirSeq ≤ b.2.mirSeq)).map (·.1)
/-- Sends the first `n` responses that waited for the standby (R393). -/
def sendAnswers (s : State) (n : Nat) : State :=
  (s.mir.answers.take n).foldl (fun s a => s.send (.sec a.1 a.2.1 a.2.2.1 a.2.2.2)) { s with mir := { s.mir with answers := s.mir.answers.drop n } }
/-- What may go on once tokens are acknowledged or the standby is out of step (R396): replies and refusals that were held, hardware
opcodes at their stops, and every held command. -/
def releaseTokens (s : State) : State :=
  if s.mir.state = 3 then settle s
  else
    -- with no standby in step, SEC answers what it had forwarded (R393)
    let s := if s.mir.inStep then s else sendAnswers s s.mir.answers.length
    let (go, stay) := s.mir.replyLog.partition fun r => seqOk s r.seq
    let s := { s with mir := { s.mir with replyLog := stay } }
    let s := go.foldl (fun s r => if r.status = stRETRY
      then retry s r.replyTo r.load else sendLogged s r (if r.status = stACCESS then .refusal else .normal)) s
    settle ((tokenWaiters s).foldl (fun s k => match s.cmd k with
      | some c => memApply (s.setCmd k { c with opState := 0 }) k
      | none => s) s)
/-- The link layer acknowledged packets on a mirror port (R318): the tokens among them, and the requests forwarded to the standby, which
SEC then answers (R393, log 33). -/
def ackTokens (s : State) (ps : List Pkt) : State :=
  let s := sendAnswers s (ps.filter fun p => p.ptype == 8 && leAt p.body 0 1 == 7).length
  let one : Nat → Pkt → Nat := fun m p => if p.ptype = 8 && leAt p.body 0 1 = 1 then max m (leAt p.body 8 8) else m
  let n := ps.foldl one s.mir.acked
  if n = s.mir.acked then s else releaseTokens { s with mir := { s.mir with acked := n } }

/-- The scheduling point of a hardware opcode: the memory stop of its first line (R141), where it translates now. -/
def stopPoint (s : State) (h a : Nat) : Option Nat :=
  match checkRa s h a 0 with
  | .ok ppa _ => if backed s ppa then some (10 * ppaPart ppa + stopOf s ppa) else none
  | _ => none

/-- Enqueues an item at a memory stop (R138, R143): the finish time of its class in the instance of its colour. -/
def enqueueItem (s : State) (pt : Nat) (it : QItem) : State :=
  if it.color = 0 then s.setPoint pt { s.point pt with items := (s.point pt).items ++ [it] }
  else
    let (f, x) := wfqStamp (s.point pt) s.qos.weights it.tc (it.color = 2) it.bytes
    s.setPoint pt { x with items := x.items ++ [{ it with f := f }] }

/-- The eligibility of a reserved ingest write at partition `p` (R142, R280), and the galley's pace afterwards. -/
def ingestPace (s : State) (g : Galley) (p bytes : Nat) : Nat × Galley :=
  let at_ := max s.now (tabGet 0 g.elig p)
  (at_, { g with elig := tabIns g.elig p (at_ + bytes * 1000 / max (g.partRate p) 1) })

/-- Effect of a ready hardware opcode: served at once where it is green and nothing waits at its stop; otherwise it enters
the queue of its class and colour (R138, R141; log 11). A write of a galley's reserved ingest enters the reserved tier. -/
def memAct (s : State) (k : Nat) : State :=
  match s.cmd k with
  | none => s
  | some c =>
    let a := cmdB c.raw 16 8
    match stopPoint s c.host a with
    | none => memService s k
    | some pt =>
      let tc := tcOfPrio c.prio
      let bytes := if opcodeOf c.raw ≤ 0x0102 then roundUp (cmdB c.raw 24 4) 64 else 64
      let (elig, s) := match (if c.color = 4 then ingestOf s c else none) with
        | some (i, g) =>
          let (t, g) := ingestPace s g (pt / 10) bytes
          (t, { s with work := { s.work with gals := tabIns s.work.gals i g } })
        | none => (0, s)
      let s := s.setCmd k { c with points := [112 + 8 * pt + tc] }
      if c.color != 2 && decide (elig ≤ s.now) && (s.point pt).items.isEmpty then memService s k
      else
        let c := { c with points := [112 + 8 * pt + tc], st := .queued }
        enqueueItem (s.setCmd k c) pt { tc := tc, color := c.color % 4, bytes := bytes, f := 0, since := s.now, work := .cmd k
                                        tag := BitVec.ofNat 32 (tagOf c.raw), src := BitVec.ofNat 32 (srcOf c.raw), elig := elig }

def memLenOk (c : Cmd) : Bool :=
  let len := cmdB c.raw 24 4
  addrOk (cmdB c.raw 16 8) && decide (1 ≤ len) && decide (len ≤ 4096) && zeroB c.raw 28 4 && zeroB c.raw 40 8
    && addrOk (cmdB c.raw 16 8 + len - 1)
    && (match c.chan with
      | .ring _ => true
      | .rank _ => zeroB c.raw 32 8)

/-- ADDR aligned to WIDTH, and the high halves of 4-byte operands 0 (R57). -/
def atomicOk (c : Cmd) (cas : Bool) : Bool :=
  let w := cmdB c.raw 25 1
  addrOk (cmdB c.raw 16 8) && (w == 4 || w == 8) && cmdB c.raw 16 8 % max w 1 == 0 && zeroB c.raw 26 6
    && (if cas then zeroB c.raw 24 1 && (w == 8 || (zeroB c.raw 36 4 && zeroB c.raw 44 4))
        else decide (cmdB c.raw 24 1 ≤ 8) && zeroB c.raw 40 8 && (w == 8 || zeroB c.raw 36 4))

def specNop : OpSpec := { valid := fun _ c => zeroB c.raw 16 32, act := memService }
def specMemRead : OpSpec := {
  valid := fun s c => memLenOk c && !spanLeaves s c.host (cmdB c.raw 16 8) (cmdB c.raw 24 4) rRead
  rights := fun s c => rightsAt s c.host (cmdB c.raw 16 8) rRead
  charge := fun c => some (roundUp (cmdB c.raw 24 4) 64)
  act := memAct }
def specMemWrite : OpSpec := {
  valid := fun s c => memLenOk c && !spanLeaves s c.host (cmdB c.raw 16 8) (cmdB c.raw 24 4) rWrite
  rights := fun s c => rightsAt s c.host (cmdB c.raw 16 8) rWrite
  charge := fun c => some (roundUp (cmdB c.raw 24 4) 64)
  act := memAct }
def specMemAtomic : OpSpec := {
  valid := fun _ c => atomicOk c false
  rights := fun s c => rightsAt s c.host (cmdB c.raw 16 8) rAtomic
  charge := fun _ => some 64
  act := memAct }
def specMemCas : OpSpec := {
  valid := fun _ c => atomicOk c true
  rights := fun s c => rightsAt s c.host (cmdB c.raw 16 8) rAtomic
  charge := fun _ => some 64
  act := memAct }

/-- MEM_READ (R57). -/
def execMemRead (c : CmdIn) (s : State) : Host.Outcome State Fault Refusal :=
  done (receive s (some specMemRead) (withOpcode c 0x0101))
/-- MEM_WRITE (R57). -/
def execMemWrite (c : CmdIn) (s : State) : Host.Outcome State Fault Refusal :=
  done (receive s (some specMemWrite) (withOpcode c 0x0102))
/-- MEM_ATOMIC (R57). -/
def execMemAtomic (c : CmdIn) (s : State) : Host.Outcome State Fault Refusal :=
  done (receive s (some specMemAtomic) (withOpcode c 0x0103))
/-- MEM_CAS (R57). -/
def execMemCas (c : CmdIn) (s : State) : Host.Outcome State Fault Refusal :=
  done (receive s (some specMemCas) (withOpcode c 0x0104))

end Sys2Proof.Machine
end

