-- ==== Sys2Proof/Machine/Granule.lean ====
section
/-! DEFINITION. What the granular operations share (R67-R70, R137, R139, R234-R236): the spans of granules, how a granule that does
not complete ends, its charge, and the halt of a channel's near-memory stream. -/
namespace Sys2Proof.Machine

/-- 4 KiB granules that a span touches. -/
def granules (a n : Nat) : Nat := if n = 0 then 0 else (a + n - 1) / 4096 + 1 - a / 4096
/-- The offset in the span at which granule `i` starts. -/
def granOff (a i : Nat) : Nat := if i = 0 then 0 else (a / 4096 + i) * 4096 - a
/-- The bytes of the span in granule `i`. -/
def granLen (a n i : Nat) : Nat := min (granOff a (i + 1)) n - granOff a i

/-- Is this an opcode whose channel a poisoned read halts (R236, R269)? -/
def nmoOp (op : Nat) : Bool := (decide (0x0300 ≤ op) && decide (op ≤ 0x0303)) || (decide (0x0402 ≤ op) && decide (op ≤ 0x0404))

/-- Ends the near-memory operations of a halted channel that have not started (R236); `fuel` bounds them. -/
def haltSweepN (ch : Chan) : Nat → State → State
  | 0, s => s
  | fuel + 1, s =>
    if !(s.chan ch).halted then s
    else match s.store.cmds.find? fun e => e.2.chan == ch && nmoOp (opcodeOf e.2.raw) && !e.2.started with
      | some (k, _) =>
        let s1 := finish s k stHALTED
        let x := s1.chan ch
        haltSweepN ch fuel (s1.setChan ch { x with haltCount := satAdd 32 x.haltCount 1 })
      | none => s
def haltSweep (s : State) (ch : Chan) : State := settle (haltSweepN ch (s.store.cmds.length + 1) s)

/-- A poisoned read of an operation (R236): it ends with the address of the line, and its channel halts. -/
def poisonStop (s : State) (k ra : Nat) : State :=
  match s.cmd k with
  | none => s
  | some c =>
    let s := finish s k stPOISONED c.progress (poisonResult ra)
    let x := s.chan c.chan
    let s := if x.halted then s else s.setChan c.chan { x with halted := true, haltCount := 0 }
    haltSweep s c.chan

/-- A granule of `bytes` bytes starts (R137, R139): it is charged as reserved traffic, and its stops are among those used (R145). -/
def granStart (s : State) (k bytes : Nat) : State :=
  match s.cmd k with
  | none => s
  | some c => (chargeReserved s c.host bytes).setCmd k { notePoints s c with color := 1, stuck := false }

/-- What becomes of a running operation whose granule of `bytes` bytes did not complete at `ra`: held, it tries again; a fault suspends it;
a refusal, a poisoned line and an offline partition end it. Where every translation had succeeded, the granule has started (R137). -/
def stopGran (s : State) (k ra : Nat) (acc : Rights) (w : Acc Unit) (bytes : Nat) : State :=
  match w with
  | .held => match s.cmd k with
    | some c => s.setCmd k { c with stuck := true }
    | none => s
  | .poisoned => poisonStop (granStart s k bytes) k ra
  | .offline p => stopAt (if p < 8 then granStart s k bytes else s) k ra acc (.offline p)
  | w => stopAt s k ra acc w

/-- A granule is done: charged (R137, R139), and counted. -/
def granDone (s : State) (k bytes : Nat) (f : Cmd → Cmd := id) : State :=
  let s := granStart s k bytes
  match s.cmd k with
  | none => s
  | some c => s.setCmd k (f { c with progress := c.progress + 1, disputed := c.disputed || s.mir.saw })

/-- Final status of an operation that ran to its end (R407). -/
def endStatus (c : Cmd) : Nat := if c.disputed then stDISPUTED else stOK

/-- Ends a granular operation whose last granule is done. -/
def endIfLast (s : State) (k : Nat) (result : Cmd → Nat) (sat : Cmd → Bool := fun _ => false) : State :=
  match s.cmd k with
  | none => s
  | some c => if c.total ≤ c.progress then settle (finish s k (endStatus c) c.progress (result c) [] (sat c)) else s

/-- An operand span of the bulk operations: 64-byte aligned, a multiple of 64 long, in the address space (R234). -/
def spanOk (a n : Nat) : Bool := a % 64 == 0 && n % 64 == 0 && decide (64 ≤ n) && decide (n ≤ 2 ^ 44) && decide (a + n ≤ 2 ^ 52)
/-- Do two operand spans only partly overlap, or are they equal where that is not permitted (R235)? -/
def spansOk (a n b m : Nat) (equalOk : Bool) : Bool := disjointSpans a n b m || (equalOk && a == b && n == m)

/-- Reads a span of any length. -/
def readAll (s : State) (h a n : Nat) : Span (List Byte) × State := readGran s h a n
/-- Reads several spans. -/
def readMany (h : Nat) : List (Nat × Nat) → State → List (List Byte) → Span (List (List Byte)) × State
  | [], s, acc => (.ok acc, s)
  | (a, n) :: t, s, acc => match readAll s h a n with
    | (.ok bs, s1) => readMany h t s1 (acc ++ [bs])
    | (.stop ra w, s1) => (.stop ra w, s1)
def writeAll (s : State) (h a : Nat) (bs : List Byte) : Span Unit × State := writeGran s h a bs

end Sys2Proof.Machine
end

