-- ==== Sys2Proof/Machine/Points.lean ====
section
/-! DEFINITION. Scheduling points: what a memory stop selects (R141-R143), and the reserved tier that paces the granules of admitted
operations (R142). -/
namespace Sys2Proof.Machine

/-! ## Selection at a scheduling point (R141, R143) -/

/-- Rate of a scheduling point in MB/s: cream stops an eighth, skim stops a half of their slice; ports; PCIe. -/
def pointRate (s : State) (pt : Nat) : Nat :=
  if pt < 80 then (if pt % 10 < 8 then sliceRate s (pt / 10) / 8 else sliceRate s (8 + pt / 10) / 2)
  else if pt < 94 then 184000 else 128000

/-- The reserved loads that a memory stop paces: its equal share of its slice's sum (R142). -/
def stopReserved (s : State) (pt : Nat) : Nat :=
  let x := if pt % 10 < 8 then pt / 10 else 8 + pt / 10
  (loadSum s x (fun _ c => c.st == .running) + galLoad s x) / (if pt % 10 < 8 then 8 else 2)

/-- Refills the caps of TC7 and TC6, 1 % of the rate each with a burst of 4 KiB, and the reserved bucket, of 16 KiB. -/
def Point.refill (x : Point) (now rate reserved : Nat) : Point :=
  let d := now - x.capAt
  { x with cap7 := min 4096000 (x.cap7 + rate * d / 100), cap6 := min 4096000 (x.cap6 + rate * d / 100)
           resTok := min 16384000 (x.resTok + reserved * d), capAt := now }

/-- The head of each class queue of a colour, by smallest finish time; equal times: the higher class (R143). -/
def wfqHead (items : List QItem) (color : Nat) (classes : List Nat) : Option QItem :=
  (classes.filterMap fun tc => items.find? fun i => i.tc == tc && i.color == color).foldl (fun b i => match b with
    | none => some i
    | some x => if i.f.toNat < x.f.toNat || (i.f == x.f && decide (x.tc < i.tc)) then some i else some x) none

/-- The next item of the reserved tier: eligible, by eligibility time, then lower TAG, then lower SRC (R142). -/
def reservedHead (items : List QItem) (now tokens : Nat) : Option QItem :=
  (items.filter fun i => i.color == 0 && i.tc < 6 && decide (i.elig ≤ now) && decide (1000 * i.bytes ≤ tokens)).foldl (fun b i =>
    match b with
    | none => some i
    | some x =>
      let before := decide (i.elig < x.elig) || (i.elig == x.elig && (decide (i.tag.toNat < x.tag.toNat)
        || (i.tag == x.tag && decide (i.src.toNat < x.src.toNat))))
      if before then some i else some x) none

/-- The next item of a point in the order of R141. -/
def selectItem (x : Point) (now : Nat) : Option QItem :=
  let capped := fun (tc cap : Nat) => (x.items.find? (·.tc == tc)).filter fun i => decide (1000 * i.bytes ≤ cap)
  [capped 7 x.cap7, capped 6 x.cap6, reservedHead x.items now x.resTok, x.items.find? (fun i => i.tc == 5 && i.color == 1),
    wfqHead x.items 1 [0, 1, 2, 3, 4], wfqHead x.items 2 [0, 1, 2, 3, 4, 5]].findSome? id

/-- Takes the selected item from a point. -/
def Point.take (x : Point) (i : QItem) : Point :=
  let x := { x with items := x.items.erase i }
  let x := if i.tc = 7 then { x with cap7 := x.cap7 - 1000 * i.bytes }
    else if i.tc = 6 then { x with cap6 := x.cap6 - 1000 * i.bytes }
    else if i.color = 0 then { x with resTok := x.resTok - 1000 * i.bytes }
    else if i.color = 2 then { x with vY := i.f }
    else if i.tc = 5 then x else { x with vG := i.f }
  x.onEmpty

/-! ## The reserved tier (R142) -/

/-- Opcodes that their own rows advance: runs and lock-ups. -/
def ownRows (op : Nat) : Bool := op == 0x0381 || op == 0x0503
/-- Do two commands load a common slice? -/
def shareSlice (c d : Cmd) : Bool := c.loads.any fun l => d.loads.any fun m => l.1 == m.1

/-- A granule's eligibility time: the first is eligible when its operation starts, and each later one G ÷ R_ADM after the one before it. -/
def granElig (c : Cmd) : Nat := c.startedAt + 1000 * c.progress * c.size / max (c.total * c.rAdm) 1

/-- What the next granule of an operation moves at each memory stop of its slices, on average: its share of S by the loads (R142). -/
def granStops (c : Cmd) : List (Nat × Nat) :=
  c.loads.flatMap fun l =>
    let b := l.2 * c.size / max (c.total * c.rAdm) 1
    if l.1 < 8 then (List.range 8).map fun j => (10 * l.1 + j, b / 8)
    else if l.1 < 16 then [(10 * (l.1 - 8) + 8, b / 2), (10 * (l.1 - 8) + 9, b / 2)] else []

/-- Does a granule of `d` come before one of `c`: by eligibility time, then lower TAG, then lower SRC? -/
def granBefore (d c : Cmd) : Bool :=
  let a := (granElig d, tagOf d.raw, srcOf d.raw)
  let b := (granElig c, tagOf c.raw, srcOf c.raw)
  decide (a.1 < b.1) || (a.1 == b.1 && (decide (a.2.1 < b.2.1) || (a.2.1 == b.2.1 && decide (a.2.2 < b.2.2))))

/-- The tokens of a granule at a stop, in thousandths of a byte: one larger than the burst takes the whole burst. -/
def granTokens (b : Nat) : Nat := min (1000 * b) 16384000

/-- Is it the turn of the next granule of the command in slot `k` (R142): eligible, with tokens at each of its stops, and no other
granule before it at one of them? -/
def granTurn (s : State) (k : Nat) (c : Cmd) : Bool :=
  c.loads == [] || (decide (granElig c ≤ s.now)
    && (granStops c).all (fun e => decide (granTokens e.2 ≤ ((s.point e.1).refill s.now (pointRate s e.1) (stopReserved s e.1)).resTok))
    && !s.store.cmds.any fun e => e.1 != k && !ownRows (opcodeOf e.2.raw) && (e.2.st == .running || e.2.st == .stopping) && !e.2.stuck && shareSlice c e.2
      && decide (granElig e.2 ≤ s.now) && granBefore e.2 c)

/-- After a unit of a command that stood as `c`: its tokens are taken, where it was not held by a gate or a window nor stopped by a
translation fault. -/
def granPace (c : Cmd) (s : State) (k : Nat) : State :=
  if (s.cmd k).any fun d => d.stuck || d.st == .suspended then s else
  (granStops c).foldl (fun s e =>
    let x := (s.point e.1).refill s.now (pointRate s e.1) (stopReserved s e.1)
    s.setPoint e.1 { x with resTok := x.resTok - granTokens e.2 }) s

end Sys2Proof.Machine
end

