-- ==== Sys2Proof/Machine/Fit.lean ====
section
/-! DEFINITION. When operations start and continue (R142, R518), and their pre-emption (R67) and cancellation (R70, R71). -/
namespace Sys2Proof.Machine

/-- Does the load of the command in slot `k` fit on every slice beside what runs there (R142, R518)? -/
def loadFits (s : State) (k : Nat) (c : Cmd) : Bool :=
  c.loads.all fun l => decide (10 * (loadSum s l.1 (fun j d => j != k && (d.st == .running || d.st == .stopping)) + galLoad s l.1 + l.2) ≤ 9 * sliceRate s l.1)

/-- The running operation that is pre-empted first for `c`: of lower priority on a slice of `c`, lowest priority first,
within a priority the one that started most recently (R518). -/
def victim (s : State) (c : Cmd) : Option (Nat × Cmd) :=
  s.store.cmds.foldl (fun best e =>
    if e.2.st != .running || decide (e.2.prio ≤ c.prio) || !shareSlice c e.2 then best
    else match best with
      | none => some e
      | some b => if b.2.prio < e.2.prio || (b.2.prio == e.2.prio && decide (b.2.startedAt < e.2.startedAt)) then some e else best) none

/-- Pre-empts an operation between granules (R67, R68); silent. -/
def preempt (s : State) (k : Nat) (c : Cmd) : State := s.setCmd k { c with st := .preempted }

/-- Makes room for the command in slot `k`: pre-empts only as many operations as the fit needs; none where it does not fit even
then, and nothing is pre-empted. `fuel` bounds the operations. -/
def makeRoom (k : Nat) (c : Cmd) : Nat → State → Option State
  | 0, s => if loadFits s k c then some s else none
  | fuel + 1, s =>
    if loadFits s k c then some s
    else match victim s c with
      | some (j, d) => makeRoom k c fuel (preempt s j d)
      | none => none

/-- Does an operation wait for rate: granular, ready or stopped between granules? A contribution does once its step has all its marks. -/
def waitsRate (s : State) (c : Cmd) : Bool :=
  c.loads != [] && (c.st == .ready || c.st == .preempted || c.st == .resuming)
    && (c.started || opcodeOf c.raw != 0x0311
      || (s.slot (c.par 16 2)).any fun x => c.par 20 4 == x.k && decide (x.n ≤ x.marked.length))

/-- The order in which free rate is offered (R518): priority, then those that have started, then acceptance. -/
def offeredBefore (d c : Cmd) : Bool :=
  decide (d.prio < c.prio) || (d.prio == c.prio &&
    ((d.started && !c.started) || (d.started == c.started && decide (d.seq < c.seq))))

/-- Is free rate offered to another operation first: one of its own priority on a shared slice, or one of higher priority that
fits? -/
def overtakes (s : State) (k : Nat) (c : Cmd) : Bool :=
  s.store.cmds.any fun e => e.1 != k && waitsRate s e.2 && shareSlice c e.2 && offeredBefore e.2 c
    && (e.2.prio == c.prio || (makeRoom e.1 e.2 s.store.cmds.length s).isSome)

/-- Starts or continues an operation where its load fits (R518); `none` leaves it held. The first start of one that SCH runs as library runs
counts in the clusters of its choice (R194, R234, R270; log 15). -/
def startOp (s : State) (k : Nat) (c : Cmd) : Option State :=
  if overtakes s k c then none
  else (makeRoom k c s.store.cmds.length s).map fun s1 =>
    let s1 := if c.started || !nmoOp (opcodeOf c.raw) then s1
      else (((Config.libClusters (opcodeOf c.raw) c.rAdm c.seq).filter fun n => decide (n < 40)).eraseDups).foldl cluRun s1
    s1.setCmd k { c with st := .running, started := true, startedAt := if c.started then c.startedAt else s.now }

/-- Ends a command whose cancellation was pending at its granule boundary (R70); the CANCEL's reply follows. -/
def endCancelled (s : State) (k : Nat) : State :=
  match s.cmd k with
  | none => s
  | some c => settle (finish s k stCANCELLED c.progress)
/-- After a unit of a command that stood as `c`: a pending cancellation takes effect where the unit is done, or where a fault
suspended the command (R70, R71). -/
def afterUnit (c : Cmd) (s : State) (k : Nat) : State :=
  match s.cmd k with
  | some d => if c.st == .stopping && (decide (c.progress < d.progress) || d.st == .suspended) then endCancelled s k else s
  | none => s

end Sys2Proof.Machine
end

