-- ==== Sys2Proof/Machine/Rows.lean ====
section
/-! DEFINITION. Blocked rows in the pool (R200-R202): their sizes, their elements, and the quantisation of a block as MX
(R210-R215). -/
namespace Sys2Proof.Machine

/-- Bits per element in a row (R202). -/
def rowBits (fmt : Nat) : Nat := if fmt = 5 || fmt = 6 then 6 else if fmt = 11 then 3 else container fmt
/-- Bytes of a row of `l` elements under a scaling (1 MX, 2 ZB16; R202). -/
def rowSize (fmt scm l : Nat) : Nat :=
  let d := l * rowBits fmt / 8
  if scm = 1 then roundUp (d + l / 32) 64 else roundUp (roundUp (d + l / 16) 4 + 4) 64

/-- The container of element `n` of a row. -/
def rowElem (fmt : Nat) (row : Nat) (n : Nat) : Nat :=
  let x := row / 2 ^ (n * rowBits fmt) % 2 ^ rowBits fmt
  fixContainer fmt x
/-- The divisor of the block that holds element `n` (R200, R201); none where it is poisoned. -/
def rowDivisor (fmt scm l : Nat) (bs : List Byte) (n : Nat) : Option (Nat × Int) :=
  let d := l * rowBits fmt / 8
  if scm = 1 then divisor false fmt (leAt bs (d + n / 32) 1) 0
  else divisor true fmt (leAt bs (d + n / 16) 1) (leAt bs (roundUp (d + l / 16) 4) 4)

/-- A row's elements dequantised to FP32 (R214): each with what it adds to SATC. -/
def deqRow (fmt scm l : Nat) (bs : List Byte) : List Conv :=
  let data := leNat (bs.take (l * rowBits fmt / 8))
  (List.range l).map fun n => deqElem fmt (rowDivisor fmt scm l bs n) (rowElem fmt data n)

/-- A quantised MX block (R248): scale code, element codes, the residual-side DEQ of each, LFSR, SATC and FLC increments. -/
structure QBlock where
  scale : Nat
  codes : List Nat
  deqs  : List Nat
  sat   : Nat
  flush : Nat
deriving Repr

/-- Quantises a block of FP32 codes to an MX format: VAMAX, SCALE, CVTQ, and DEQ of the result (R210-R214). `sr` selects
stochastic rounding from the LFSR state `lfsr`. -/
def quantBlock (fmt : Nat) (sr : Bool) (lfsr : Nat) (xs : List Nat) : QBlock :=
  let c := scaleMx fmt (amaxOf (xs.map f32))
  let d := mxScale fmt c
  let (cs, _, sat, fl) := convertList (cvtqElem fmt d) (if sr then 1 else 0) xs lfsr
  { scale := c, codes := cs, deqs := cs.map fun x => (deqElem fmt d x).code, sat := sat, flush := fl }

/-- The bytes of an MX row from its blocks (R202). -/
def mxRowBytes (fmt l : Nat) (blocks : List QBlock) : List Byte :=
  let codes := blocks.flatMap fun b => b.codes.map (· % 2 ^ rowBits fmt)
  padTo (rowSize fmt 1 l) (leBytes (l * rowBits fmt / 8) (packElems (rowBits fmt) codes)
    ++ blocks.map fun b => BitVec.ofNat 8 b.scale)

/-- Cuts a list into blocks of `n`; `fuel` bounds the blocks. -/
def blocksOf {α : Type} (n : Nat) : Nat → List α → List (List α)
  | 0, _ => []
  | fuel + 1, l => match l with
    | [] => []
    | x :: t => (x :: t).take n :: blocksOf n fuel ((x :: t).drop n)

/-- FP32 codes in a byte string, or BF16 codes widened. -/
def f32List (bs : List Byte) : List Nat := (List.range (bs.length / 4)).map fun i => leAt bs (4 * i) 4
def bf16List (bs : List Byte) : List Nat := (List.range (bs.length / 2)).map fun i => (convert 1 0 .rne false (leAt bs (2 * i) 2)).code
def f32Bytes (l : List Nat) : List Byte := l.flatMap (leBytes 4)

/-- Residuals of a block: x − DEQ(q), +0 throughout where the block is poisoned (R248, R249). -/
def residuals (xs : List Nat) (b : QBlock) : List Nat :=
  if b.scale = 255 then xs.map fun _ => 0 else List.zipWith f32Sub xs b.deqs

end Sys2Proof.Machine
end

