-- ==== Sys2Proof/Machine/Attention.lean ====
section
/-! DEFINITION. Attention scoring (R253-R273): KV pools, appending and digests, and ATT_SCORE. -/
namespace Sys2Proof.Machine

/-! ## Pools (R253-R257) -/

def State.pool (s : State) (p : Nat) : Option Pool := tabFind s.work.pools p
/-- Bits of a key or value element. -/
def kvBits (fmt : Nat) : Nat := if fmt = 7 then 4 else 8
def Pool.pk (p : Pool) : Nat := kvBits p.kfmt
def Pool.pv (p : Pool) : Nat := kvBits p.vfmt
def Pool.pageB (p : Pool) : Nat := roundUp (64 * p.d * (p.pk + p.pv) / 8) 4096
def Pool.units (p : Pool) : Nat := p.layers * p.hkv * p.pages
def Pool.unit (p : Pool) (l h n : Nat) : Nat := (l * p.hkv + h) * p.pages + n
def Pool.page (p : Pool) (u : Nat) : Nat := p.pageBase + u * p.pageB
def Pool.vPlane (p : Pool) (u : Nat) : Nat := p.page u + 64 * p.d * p.pk / 8
def Pool.scl (p : Pool) (u : Nat) : Nat := p.sclBase + u * 4 * p.d
def Pool.dig (p : Pool) (plane u : Nat) : Nat := p.digBase + (plane * p.units + u) * p.d

/-- A positive, finite, normal FP32 code. -/
def posNormal (x : Nat) : Bool := decide (0x00800000 ≤ x) && decide (x < 0x7F800000)

def poolOf (c : Cmd) : Pool :=
  { host := c.host, layers := c.par 0 2, hkv := c.par 2 2, d := c.par 4 2, kfmt := c.par 6 1, vfmt := c.par 7 1
    pages := c.par 8 4, dinv := BitVec.ofNat 32 (c.par 12 4), pageBase := c.par 16 8, digBase := c.par 24 8, sclBase := c.par 32 8 }

/-- The lowest free handle (R253). -/
def freePool (s : State) : Option Nat :=
  let h := tabGap s.work.pools 1
  if 255 < h then none else some h
def attOpenAct (s : State) (k : Nat) : State :=
  match s.cmd k with
  | none => s
  | some c =>
    match freePool s with
    | none => settle (finish s k stRESOURCES)
    | some h =>
      let p := poolOf c
      settle (finish { s with work := { s.work with pools := tabIns s.work.pools h p } } k stOK 0 (h + 2 ^ 32 * p.pageB))

def specAttPoolOpen : OpSpec := {
  form := .desc [64]
  valid := fun _ c =>
    let p := poolOf c
    decide (1 ≤ p.layers) && decide (p.layers ≤ 256) && decide (1 ≤ p.hkv) && decide (p.hkv ≤ 64) && [64, 128, 256].contains p.d
      && (p.kfmt == 3 || p.kfmt == 7) && (p.vfmt == 3 || p.vfmt == 7) && decide (1 ≤ p.pages) && decide (p.pages ≤ 2 ^ 26)
      && posNormal p.dinv.toNat && p.pageBase % 4096 == 0 && p.digBase % 4096 == 0 && p.sclBase % 4096 == 0
      && decide (p.pageBase + p.units * p.pageB ≤ 2 ^ 52) && decide (p.digBase + 3 * p.units * p.d ≤ 2 ^ 52)
      && decide (p.sclBase + p.units * 4 * p.d ≤ 2 ^ 52) && c.par 40 24 == 0
  -- every command on the pool reads its regions (log 17)
  rights := fun s c => firstRefusal ([c.par 16 8, c.par 24 8, c.par 32 8].map fun a => rightsAt s c.host a rRead)
  admits := fun s _ => if (freePool s).isSome then none else some stRESOURCES
  act := attOpenAct }

/-- Closes a pool: the reply follows the commands already accepted (R273). -/
def attCloseAct (s : State) (k : Nat) : State :=
  match s.cmd k with
  | none => s
  | some c => match s.pool (c.par 16 1) with
    | none => settle (finish s k stMALFORMED)
    | some p =>
      if p.closing.isSome then settle (finish s k stMALFORMED)
      else tellAccepted (settle ((({ s with work := { s.work with pools := tabIns s.work.pools (c.par 16 1) { p with closing := some k } } }) :
        State).setCmd k { c with st := .finishing })) k
def specAttPoolClose : OpSpec := {
  valid := fun _ c => zeroB c.raw 17 31
  rights := fun s c => match s.pool (c.par 16 1) with
    | some p => if p.host = c.host && p.closing.isNone then none else some (1, 0, 0)
    | none => some (1, 0, 0)
  act := attCloseAct }

/-- Step 5 of a command that names a pool: open and not closing (R253). -/
def poolRights (s : State) (c : Cmd) : Option (Nat × Rights × Nat) :=
  match s.pool (c.par 0 2) with
  | some p => if p.closing.isNone then none else some (1, 0, 0)
  | none => some (1, 0, 0)

/-- LAYER, HEAD0 and HEADS within the pool (R258, R264); true where the pool is not open, which step 5 refuses. -/
def headsOk (s : State) (c : Cmd) : Bool :=
  match s.pool (c.par 0 2) with
  | some p => decide (c.par 2 2 < p.layers) && decide (c.par 4 2 < p.hkv) && decide (1 ≤ c.par 6 2)
      && decide (c.par 4 2 + c.par 6 2 ≤ p.hkv)
  | none => true

/-! ## What the operations share -/

/-- A block-table entry's page; none for a hole (R257). -/
def tablePage (p : Pool) (x : Nat) : Option Nat :=
  let n := x % 2 ^ 26
  if bitOf x 31 && field x 30 26 == 0 && decide (n < p.pages) then some n else none

/-- The operand that a region is of which `bytes` are read or written, in proportion to what lies on each slice. -/
def regionSlices (s : State) (h a n bytes : Nat) : List (Nat × Nat) :=
  (spanSlices s h a n).map fun e => (e.1, e.2 * bytes / max n 1)

/-- Tiles that SCH can choose from (R184): those of the partitions in service that are not offline. -/
def tilesUp (s : State) : Nat :=
  1280 * (allParts.filter s.online).length - (s.churn.tiles.filter fun e => e.2.offline && s.online (e.1 / 1280)).length
/-- Admission of a library operation by R184 (R270): the tiles that its rate needs (log 15), and its power estimate (R469). -/
def libFits (s : State) (c : Cmd) : Option Nat :=
  if tilesUp s < (Config.libTiles (opcodeOf c.raw) c.rAdm).1 then some stRESOURCES
  else if !powerFits s (opPower s c) then some stENERGY
  else none

/-! ## Quantised vectors -/

/-- Quantises a vector of FP32 codes in groups of 32 with RNE (R259): the groups. -/
def quantVec (fmt : Nat) (xs : List Nat) : List QBlock := (blocksOf 32 (xs.length / 32) xs).map (quantBlock fmt false 0)
/-- The packed bytes of a quantised vector. -/
def vecBytes (fmt d : Nat) (q : List QBlock) : List Byte :=
  leBytes (d * kvBits fmt / 8) (packElems (kvBits fmt) (q.flatMap (·.codes)))

/-- The dequantised vector of a slot: FP32 codes from its packed bytes and its scale bytes (R214). -/
def deqVec (fmt d : Nat) (data scales : List Byte) : List Nat :=
  let x := leNat data
  (List.range d).map fun i =>
    (deqElem fmt (mxScale fmt (leAt scales (i / 32) 1)) (x / 2 ^ (i * kvBits fmt) % 2 ^ kvBits fmt)).code

/-- Bytes of slot `t` in a plane of 64 slots. -/
def slotBytes (w t : Nat) (plane : List Byte) : List Byte := (plane.drop (t * w)).take w

/-! ## Digests (R260) -/

/-- A directed rounding to E4M3, saturating: `up` towards +∞. -/
def dirE4m3 (up : Bool) (v : FV) : Conv :=
  match v with
  | .nan => { code := 0x7F }
  | .inf n => { code := (if n then 0x80 else 0) + 0x7E, sat := true }
  | .fin neg m e =>
    let g := e4m3.roundMag .rtz m 1 e
    -- away from zero where the direction asks for it and the value lies off the grid
    let exact := match e4m3.value g with
      | .fin _ gm ge => (FV.fin false gm ge).eqv (.fin false m e)
      | _ => false
    let off := if g ≤ e4m3.top then !exact else true
    let g := if off && (up != neg) then g + 1 else g
    let s := if neg then 0x80 else 0
    if e4m3.top < g then { code := s + e4m3.top, sat := true } else { code := s + g }

/-- One dimension of a digest: mean, lower and upper bound, with their saturations. -/
def digestDim (dinv : Nat) (xs : List Nat) : Conv × Conv × Conv :=
  if (xs.map f32).any FV.isNan then ({ code := 0x7F }, { code := 0x7F }, { code := 0x7F })
  else
    let inv := (fp32.conv .rne true false 1 xs.length 0).code
    let m := f32Mul (reduceF32 0 xs) inv
    let d := f32 dinv
    let p := (f32 m).mul d
    let mean := match p with
      | .fin neg k e => e4m3.conv .rne false neg k 1 e
      | .inf n => e4m3.convInf false n
      | .nan => { code := 0x7F }
    (mean, dirE4m3 false ((f32 (reduceF32 2 xs)).mul d), dirE4m3 true ((f32 (reduceF32 1 xs)).mul d))

/-- The digest of a block from its dequantised keys, slot by slot: the three planes and DIGEST_SAT. -/
def digestOf (dinv d : Nat) (keys : List (List Nat)) : List Byte × List Byte × List Byte × Nat :=
  let dims := (List.range d).map fun i => digestDim dinv (keys.map fun k => k.getD i 0)
  let b := fun (f : Conv × Conv × Conv → Conv) => dims.map fun x => BitVec.ofNat 8 (f x).code
  let n := fun (c : Conv) => if c.sat then 1 else 0
  (b (·.1), b (·.2.1), b (·.2.2), dims.foldl (fun t x => t + n x.1 + n x.2.1 + n x.2.2) 0)

/-- The dequantised keys of `n` slots from their packed bytes and their scale bytes. -/
def unitKeys (p : Pool) (n : Nat) (data scales : List Byte) : List (List Nat) := (List.range n).map fun t =>
  deqVec p.kfmt p.d (slotBytes (p.d * p.pk / 8) t data) (slotBytes (p.d / 32) t scales)
/-- What reads the keys of the first `n` slots of a unit: their elements and their scales. -/
def keySpans (p : Pool) (u n : Nat) : List (Nat × Nat) := [(p.page u, n * (p.d * p.pk / 8)), (p.scl u, n * (p.d / 32))]
/-- The digest of a unit from its keys: what is written, and DIGEST_SAT. -/
def digestWrites (p : Pool) (u : Nat) (keys : List (List Nat)) : List (Nat × List Byte) × Nat :=
  let (mean, lo, hi, sat) := digestOf p.dinv.toNat p.d keys
  ([(p.dig 0 u, mean), (p.dig 1 u, lo), (p.dig 2 u, hi)], sat)
/-- Bytes of the keys of `n` slots, and of a digest. -/
def keyBytes (p : Pool) (n : Nat) : Nat := n * (p.d * p.pk / 8) + n * (p.d / 32)
/-- Slices of the pages, scales and digests of the heads of a command, of which `pages`, `scales` and `digs` bytes are moved. -/
def poolSlices (s : State) (c : Cmd) (p : Pool) (pages scales digs : Nat) : List (List (Nat × Nat)) :=
  let u := p.unit (c.par 2 2) (c.par 4 2) 0
  let n := c.par 6 2 * p.pages
  [regionSlices s c.host (p.page u) (n * p.pageB) pages, regionSlices s c.host (p.scl u) (n * 4 * p.d) scales]
    ++ (List.range 3).map fun i => regionSlices s c.host (p.dig i u) (n * p.d) (digs / 3)

/-! ## ATT_APPEND (R258-R261) -/

def appFirst (c : Cmd) : Nat := c.par 8 4 / 64
def appBlocks (c : Cmd) : Nat := (c.par 8 4 + c.par 12 4 - 1) / 64 + 1 - appFirst c
def srcBits (c : Cmd) : Nat := if c.par 16 1 = 0 then 32 else 16

/-- The FP32 codes of a source vector. -/
def srcVec (c : Cmd) (bs : List Byte) : List Nat := if c.par 16 1 = 0 then f32List bs else bf16List bs

/-- One unit of ATT_APPEND: block `bi` of those touched, head `hh` of the command, in page `pg`. -/
structure AppUnit where
  u   : Nat
  /-- Its first new token, how many there are, and the slot that the first one takes. -/
  t0  : Nat
  cnt : Nat
  s0  : Nat
  hh  : Nat
deriving DecidableEq, Repr
def appUnit (c : Cmd) (p : Pool) (bi hh pg : Nat) : AppUnit :=
  let b := appFirst c + bi
  let t0 := 64 * b - c.par 8 4
  { u := p.unit (c.par 2 2) (c.par 4 2 + hh) pg, t0 := t0, cnt := min (64 * b + 64) (c.par 8 4 + c.par 12 4) - c.par 8 4 - t0
    s0 := (c.par 8 4 + t0) % 64, hh := hh }

/-- Everything that a unit reads: the keys stored before, and the new keys and values. -/
def AppUnit.reads (x : AppUnit) (c : Cmd) (p : Pool) : List (Nat × Nat) :=
  let len := p.d * srcBits c / 8
  let src := fun (base : Nat) => (List.range x.cnt).map fun i => (base + ((x.t0 + i) * c.par 6 2 + x.hh) * len, len)
  keySpans p x.u x.s0 ++ src (c.par 32 8) ++ src (c.par 40 8)
/-- Everything that it writes (R259, R260): keys, values and scales of the new slots, then the digest of the block; SAT_COUNT and DIGEST_SAT. -/
def AppUnit.writes (x : AppUnit) (c : Cmd) (p : Pool) (l : List (List Byte)) : List (Nat × List Byte) × Nat × Nat :=
  let quant := fun (fmt o : Nat) => ((l.drop o).take x.cnt).map fun v => quantVec fmt (srcVec c v)
  let qk := quant p.kfmt 2
  let qv := quant p.vfmt (2 + x.cnt)
  let scales := fun (q : List (List QBlock)) => q.flatten.map fun b => BitVec.ofNat 8 b.scale
  let keys := unitKeys p x.s0 (l.getD 0 []) (l.getD 1 []) ++ qk.map fun q => q.flatMap (·.deqs)
  let (dig, dsat) := digestWrites p x.u keys
  ([(p.page x.u + x.s0 * (p.d * p.pk / 8), qk.flatMap (vecBytes p.kfmt p.d)), (p.vPlane x.u + x.s0 * (p.d * p.pv / 8), qv.flatMap (vecBytes p.vfmt p.d)),
    (p.scl x.u + x.s0 * (p.d / 32), scales qk), (p.scl x.u + 2 * p.d + x.s0 * (p.d / 32), scales qv)] ++ dig,
    (qk ++ qv).flatten.foldl (fun m b => m + b.sat) 0, dsat)
/-- Bytes that it reads and writes, but for the table. -/
def AppUnit.bytes (x : AppUnit) (c : Cmd) (p : Pool) : Nat :=
  2 * x.cnt * p.d * srcBits c / 8 + x.cnt * p.d * (p.pk + p.pv) / 8 + x.cnt * p.d / 16 + keyBytes p x.s0 + 3 * p.d

/-- The pages of the blocks touched, none for a hole: the table is read once, before anything is written (R258). -/
def appPages (s : State) (c : Cmd) (p : Pool) : Span (List (Option Nat)) × State :=
  if c.aux != [] then (.ok (c.aux.map some), s)
  else match readAll s c.host (c.par 24 8 + 4 * appFirst c) (4 * appBlocks c) with
    | (.stop ra w, s1) => (.stop ra w, s1)
    | (.ok tab, s1) => (.ok ((List.range (appBlocks c)).map fun i => tablePage p (leAt tab (4 * i) 4)), s1)

def appendStep (s : State) (k : Nat) : State :=
  match s.cmd k with
  | none => s
  | some c => match s.pool (c.par 0 2) with
    | none => s
    | some p => underSeq c (fun s =>
      let table := if c.aux = [] then 4 * appBlocks c else 0
      match appPages s c p with
      | (.stop ra w, s1) => stopGran s1 k ra rRead w table
      | (.ok pages, s1) =>
        let heads := c.par 6 2
        match (if pages.any Option.isNone then none else pages.getD (c.progress / heads) none) with
        | none => settle (finish s1 k stMALFORMED c.progress)
        | some pg =>
          let x := appUnit c p (c.progress / heads) (c.progress % heads) pg
          let bytes := x.bytes c p + table
          match readMany c.host (x.reads c p) s1 [] with
          | (.stop ra w, s2) => stopGran s2 k ra rRead w bytes
          | (.ok l, s2) =>
            let (ws, sat, dsat) := x.writes c p l
            match writeMany s2 c.host ws with
            | (.stop ra w, s3) => stopGran s3 k ra rWrite w bytes
            | (.ok (), s3) =>
              endIfLast (granDone s3 k bytes fun c =>
                  { c with sat := satAdd 32 c.sat sat, count := satAdd 32 c.count dsat, aux := pages.filterMap id }) k
                (fun c => c.progress + 2 ^ 32 * c.count + 2 ^ 96 * c.sat)
                (fun c => c.sat = 2 ^ 32 - 1 || c.count = 2 ^ 32 - 1)) s

/-- S of ATT_APPEND and its operands (R261). -/
def appSize (s : State) (c : Cmd) (p : Pool) : Nat × List (List (Nat × Nat)) :=
  let n := c.par 12 4
  let hd := c.par 6 2
  let old := hd * (c.par 8 4 % 64)
  let src := n * hd * p.d * srcBits c / 8
  let pages := n * hd * p.d * (p.pk + p.pv) / 8 + old * (p.d * p.pk / 8)
  let scales := n * hd * p.d / 16 + old * (p.d / 32)
  let digs := 3 * p.d * appBlocks c * hd
  let table := 4 * appBlocks c
  (2 * src + pages + scales + digs + table,
    [spanSlices s c.host (c.par 32 8) src, spanSlices s c.host (c.par 40 8) src, spanSlices s c.host (c.par 24 8 + 4 * appFirst c) table]
      ++ poolSlices s c p pages scales digs)

def specAttAppend : OpSpec := {
  form := .desc [64]
  valid := fun s c => headsOk s c && decide (1 ≤ c.par 12 4) && decide (c.par 12 4 ≤ 65536)
    && decide (c.par 8 4 + c.par 12 4 ≤ 2 ^ 24) && decide (c.par 16 1 ≤ 1) && c.par 17 7 == 0 && c.par 48 16 == 0
    && [24, 32, 40].all fun o => c.par o 8 % 64 == 0 && addrOk (c.par o 8)
  rights := fun s c => firstRefusal (poolRights s c :: [24, 32, 40].map fun o => rightsAt s c.host (c.par o 8) rRead)
  size := fun s c => (s.pool (c.par 0 2)).map (appSize s c)
  fits := libFits
  total := fun _ c => some (appBlocks c * c.par 6 2)
  step := some appendStep }

/-! ## ATT_REDIGEST (R263) -/

/-- Blocks that ATT_REDIGEST touches. -/
def redigBlocks (c : Cmd) : Nat := min (c.par 12 4) ((c.par 16 4 + 63) / 64 - c.par 8 4)

def redigestStep (s : State) (k : Nat) : State :=
  match s.cmd k with
  | none => s
  | some c => match s.pool (c.par 0 2) with
    | none => s
    | some p => underSeq c (fun s =>
      let finishUp := fun (s : State) => endIfLast s k
        (fun c => (c.progress - c.flushed) + 2 ^ 32 * c.count + 2 ^ 64 * c.flushed)
        (fun c => c.count = 2 ^ 32 - 1 || c.flushed = 2 ^ 32 - 1)
      if c.total ≤ c.progress then finishUp s
      else
        let b := c.par 8 4 + c.progress / c.par 6 2
        match readAll s c.host (c.par 24 8 + 4 * b) 4 with
        | (.stop ra w, s1) => stopGran s1 k ra rRead w 4
        | (.ok tab, s1) => match tablePage p (leNat tab) with
          | none => finishUp (granDone s1 k 4 fun c => { c with flushed := satAdd 32 c.flushed 1 })
          | some pg =>
            let u := p.unit (c.par 2 2) (c.par 4 2 + c.progress % c.par 6 2) pg
            let n := min 64 (c.par 16 4 - 64 * b)
            let bytes := 4 + keyBytes p n + 3 * p.d
            match readMany c.host (keySpans p u n) s1 [] with
            | (.stop ra w, s2) => stopGran s2 k ra rRead w bytes
            | (.ok l, s2) =>
              let (ws, dsat) := digestWrites p u (unitKeys p n (l.getD 0 []) (l.getD 1 []))
              match writeMany s2 c.host ws with
              | (.stop ra w, s3) => stopGran s3 k ra rWrite w bytes
              | (.ok (), s3) => finishUp (granDone s3 k bytes fun c => { c with count := satAdd 32 c.count dsat })) s

/-- S of ATT_REDIGEST and its operands (R261, R263). -/
def redigSize (s : State) (c : Cmd) (p : Pool) : Nat × List (List (Nat × Nat)) :=
  let hd := c.par 6 2
  let blocks := redigBlocks c
  let tokens := hd * (min (c.par 16 4) (64 * (c.par 8 4 + blocks)) - 64 * c.par 8 4)
  let pages := tokens * (p.d * p.pk / 8)
  let scales := tokens * (p.d / 32)
  let digs := 3 * p.d * blocks * hd
  let table := 4 * blocks * hd
  (pages + scales + digs + table, regionSlices s c.host (c.par 24 8 + 4 * c.par 8 4) (4 * blocks) table :: poolSlices s c p pages scales digs)

def specAttRedigest : OpSpec := {
  form := .desc [64]
  valid := fun s c => headsOk s c && decide (1 ≤ c.par 12 4) && decide (c.par 12 4 ≤ 2 ^ 18)
    && c.par 20 4 == 0 && c.par 32 32 == 0 && c.par 24 8 % 64 == 0 && addrOk (c.par 24 8)
  rights := fun s c => firstRefusal [poolRights s c, rightsAt s c.host (c.par 24 8) rRead]
  size := fun s c => (s.pool (c.par 0 2)).map (redigSize s c)
  fits := libFits
  total := fun _ c => some (redigBlocks c * c.par 6 2)
  step := some redigestStep }

/-! ## ATT_SCORE (R264-R271) -/

def scoreNq (c : Cmd) : Nat := c.par 8 1 * c.par 9 1
def scoreB0 (c : Cmd) : Nat := c.par 16 4 / 64
def scoreBlocks (c : Cmd) : Nat := (c.par 20 4 + 63) / 64 - scoreB0 c
def outBits (c : Cmd) : Nat := if bitOf (c.par 11 1) 1 then 16 else 32

/-- One chunk of a chain of MMAs (R265): s + the exact sum of the terms, rounded once. -/
def chainStep (acc : Nat) (ys : List FV) : Nat := toF32 (sumExact (f32 acc :: ys))
/-- A chain over chunks of eight terms. -/
def chain (ys : List FV) : Nat := (blocksOf 8 (ys.length / 8 + 1) ys).foldl chainStep 0

/-- The score of a block for one query: in MODE 0 over the mean plane, in MODE 1 over both bounds (R265). -/
def blockScore (mode : Nat) (q : List FV) (planes : List (List Byte)) : Nat :=
  let d := fun (i : Nat) => (planes.getD i []).map fun b => e4m3.value b.toNat
  chain (if mode = 0 then List.zipWith FV.mul q (d 0)
    else List.zipWith (fun a b => FV.maxv a b) (List.zipWith FV.mul q (d 0)) (List.zipWith FV.mul q (d 1)))

/-- Does block (i, g) rank before (j, f) (R266)? NaNs last, ties by index. -/
def rankBefore (x y : Nat × Nat) : Bool :=
  match f32 x.2, f32 y.2 with
  | .nan, .nan => decide (x.1 < y.1)
  | .nan, _ => false
  | _, .nan => true
  | a, b => b.lt a || (a.eqv b && decide (x.1 < y.1))
def insRank (x : Nat × Nat) : List (Nat × Nat) → List (Nat × Nat)
  | [] => [x]
  | y :: t => if rankBefore x y then x :: y :: t else y :: insRank x t

/-- The selection of a group in the order of its list: sinks, then the others by rank (R266). -/
def selection (kSel sink : Nat) (scored : List (Nat × Nat)) : List Nat :=
  ((scored.take sink).map (·.1) ++ ((scored.drop sink).foldl (fun l x => insRank x l) []).map (·.1)).take kSel

/-- Inserts an index into an ascending list. -/
def insAsc (x : Nat) : List Nat → List Nat
  | [] => [x]
  | y :: t => if x < y then x :: y :: t else y :: insAsc x t

/-- What the attention of one query needs of a key token: its index and its dequantised key and value. -/
abbrev KvTok := Nat × List Nat × List Nat

/-- One query over the selected tokens in slot order, 64 to a block (R267): M, L and O as FP32 codes. An invisible slot has p = +0; slots at
and beyond TOK_END are no key tokens (R259; log 17). -/
def attendRow (q : List FV) (smScale d : Nat) (visible : Nat → Bool) (blocks : List (List KvTok)) : Nat × Nat × List Nat :=
  let z := blocks.map fun b => b.map fun t =>
    (if visible t.1 then some (f32Mul (chain (List.zipWith (fun a k => a.mul (f32 k)) q t.2.1)) smScale) else none, t.2.2)
  let zs := z.flatMap fun b => b.filterMap (·.1)
  if zs = [] then (0xFF800000, 0, List.replicate d 0)
  else
    let m := reduceF32 1 zs
    let mv := f32 m
    if mv.isNan || mv.isInf then (m, fp32.nan, List.replicate d fp32.nan)
    else
      let p := z.map fun b => b.map fun t => match t.1 with
        | some x => ((convert 0 1 .rne true (exp2F32 (f32Sub x m))).code * 65536, t.2)
        | none => (0, t.2)
      let chunks := p.flatMap fun b => blocksOf 8 (b.length / 8 + 1) b
      let l := chunks.foldl (fun acc ch => chainStep acc (ch.map fun t => f32 t.1)) 0
      let o := (List.range d).map fun i => chunks.foldl (fun acc ch =>
        chainStep acc (ch.map fun t => (f32 t.1).mul (f32 (t.2.getD i 0)))) 0
      (m, l, o)

/-- The keys and values of a selected block for the scored span: its stored slots below TOK_END. -/
def readBlock (s : State) (c : Cmd) (p : Pool) (hh b pg : Nat) : Span (List KvTok) × State :=
  let u := p.unit (c.par 2 2) (c.par 4 2 + hh) pg
  let n := min 64 (c.par 20 4 - 64 * b)
  let kw := p.d * p.pk / 8
  let vw := p.d * p.pv / 8
  let sw := p.d / 32
  match readMany c.host [(p.page u, n * kw), (p.vPlane u, n * vw), (p.scl u, n * sw), (p.scl u + 2 * p.d, n * sw)] s [] with
  | (.stop ra w, s1) => (.stop ra w, s1)
  | (.ok l, s1) => (.ok ((List.range n).map fun t =>
      (64 * b + t, deqVec p.kfmt p.d (slotBytes kw t (l.getD 0 [])) (slotBytes sw t (l.getD 2 [])),
        deqVec p.vfmt p.d (slotBytes vw t (l.getD 1 [])) (slotBytes sw t (l.getD 3 [])))), s1)

def readBlocks (c : Cmd) (p : Pool) (hh : Nat) : List (Nat × Nat) → State → List (List KvTok) → Span (List (List KvTok)) × State
  | [], s, acc => (.ok acc, s)
  | (b, pg) :: t, s, acc => match readBlock s c p hh b pg with
    | (.stop ra w, s1) => (.stop ra w, s1)
    | (.ok l, s1) => readBlocks c p hh t s1 (acc ++ [l])

/-- The digest planes of the eligible blocks. -/
def readDigests (c : Cmd) (p : Pool) (hh : Nat) : List (Nat × Nat) → State → List (List (List Byte)) → Span (List (List (List Byte))) × State
  | [], s, acc => (.ok acc, s)
  | (_, pg) :: t, s, acc =>
    let u := p.unit (c.par 2 2) (c.par 4 2 + hh) pg
    let spans := if c.par 10 1 = 0 then [(p.dig 0 u, p.d)] else [(p.dig 1 u, p.d), (p.dig 2 u, p.d)]
    match readMany c.host spans s [] with
    | (.stop ra w, s1) => (.stop ra w, s1)
    | (.ok l, s1) => readDigests c p hh t s1 (acc ++ [l])

/-- The outputs of a group as bytes, and the saturations of the conversion to BF16. -/
def outRows (c : Cmd) (rows : List (Nat × Nat × List Nat)) : List Byte × Nat :=
  if outBits c = 32 then (rows.flatMap fun r => f32Bytes r.2.2, 0)
  else
    let cs := rows.flatMap fun r => r.2.2.map fun x => convert 0 1 .rne false x
    (cs.flatMap fun x => leBytes 2 x.code, (cs.filter (·.sat)).length)

def auxAdd (c : Cmd) (i n : Nat) : List Nat :=
  let l := c.aux ++ List.replicate (5 - c.aux.length) 0
  l.set i (satAdd 32 (l.getD i 0) n)

/-- The attention stream of a head: the page and digest reads of an ATT_SCORE at the real-time port (R384). -/
def streamReads (s : State) (c : Cmd) (p : Pool) (hh : Nat) (elig chosen : List (Nat × Nat)) : State :=
  let unit := fun (pg : Nat) => p.unit (c.par 2 2) (c.par 4 2 + hh) pg
  let digs := elig.flatMap fun e => if c.par 10 1 = 0 then [(p.dig 0 (unit e.2), p.d)] else [(p.dig 1 (unit e.2), p.d), (p.dig 2 (unit e.2), p.d)]
  let pages := chosen.flatMap fun e =>
    let n := min 64 (c.par 20 4 - 64 * e.1)
    [(p.page (unit e.2), n * (p.d * p.pk / 8)), (p.vPlane (unit e.2), n * (p.d * p.pv / 8))]
  (digs ++ pages).foldl (fun s e => rtSpan s c.host 1 false e.1 e.2) s

def scoreStep (s : State) (k : Nat) : State :=
  match s.cmd k with
  | none => s
  | some c => match s.pool (c.par 0 2) with
    | none => s
    | some p => underSeq c (fun s =>
      let hh := c.progress
      let nq := scoreNq c
      match readMany c.host [(c.par 32 8 + 4 * scoreB0 c, 4 * scoreBlocks c), (c.par 40 8 + hh * nq * 2 * p.d, nq * 2 * p.d)] s [] with
      | (.stop ra w, s1) => stopGran s1 k ra rRead w (nq * 2 * p.d)
      | (.ok l, s1) =>
        let tab := l.getD 0 []
        let elig := (List.range (scoreBlocks c)).filterMap fun i =>
          (tablePage p (leAt tab (4 * i) 4)).map fun pg => (scoreB0 c + i, pg)
        let holes := scoreBlocks c - elig.length
        let q := blocksOf p.d nq ((bf16List (l.getD 1 [])).map f32)
        match readDigests c p hh elig s1 [] with
        | (.stop ra w, s2) => stopGran s2 k ra rRead w (nq * 2 * p.d)
        | (.ok digs, s2) =>
          let scored := (elig.zip digs).map fun e =>
            (e.1.1, reduceF32 1 (q.map fun row => blockScore (c.par 10 1) row e.2))
          let nans := (scored.filter fun e => (f32 e.2).isNan).length
          let sel := selection (c.par 12 2) (c.par 14 1) scored
          let asc := sel.foldl (fun l x => insAsc x l) []
          let chosen := elig.filter fun e => asc.contains e.1
          match readBlocks c p hh chosen s2 [] with
          | (.stop ra w, s3) => stopGran s3 k ra rRead w (nq * 2 * p.d)
          | (.ok blocks, s3) =>
            let rows := ((List.range nq).zip q).map fun e =>
              attendRow e.2 (c.par 28 4) p.d (fun j => !bitOf (c.par 11 1) 0 || decide (j ≤ c.par 24 4 + e.1 / c.par 8 1)) blocks
            let (o, sat) := outRows c rows
            let st := rows.flatMap fun r => leBytes 4 r.1 ++ leBytes 4 r.2.1
            let selB := (sel ++ List.replicate (c.par 12 2 - sel.length) 0xFFFFFFFF).flatMap (leBytes 4)
            let ws := [(c.par 48 8 + hh * nq * p.d * outBits c / 8, o), (c.par 56 8 + hh * nq * 8, st)]
              ++ (if c.par 64 8 = 0 then [] else [(c.par 64 8 + hh * 4 * c.par 12 2, selB)])
            match writeMany s3 c.host ws with
            | (.stop ra w, s4) => stopGran s4 k ra rWrite w (nq * 2 * p.d)
            | (.ok (), s4) =>
              let s4 := streamReads s4 c p hh elig chosen
              let planes := if c.par 10 1 = 0 then 1 else 2
              let bytes := 4 * scoreBlocks c + nq * 2 * p.d + elig.length * planes * p.d
                + sel.length * (p.pageB + 4 * p.d) + ws.foldl (fun n w => n + w.2.length) 0
              endIfLast (granDone s4 k bytes fun c =>
                  { c with
                    sat := satAdd 32 c.sat sat
                    aux := auxAdd { c with aux := auxAdd { c with aux := auxAdd c 2 holes } 3 nans } 4 sel.length }) k
                (fun c => c.aux.getD 2 0 + 2 ^ 32 * c.aux.getD 3 0 + 2 ^ 64 * c.aux.getD 4 0 + 2 ^ 96 * c.sat)
                (fun c => (c.sat :: c.aux.drop 2).any (· == 2 ^ 32 - 1))) s

/-- The page region of the heads of an ATT_SCORE, and the bytes that it will read of it at most. -/
def scorePages (p : Pool) (c : Cmd) : Nat × Nat × Nat :=
  (p.page (p.unit (c.par 2 2) (c.par 4 2) 0), c.par 6 2 * p.pages * p.pageB,
    c.par 6 2 * min (c.par 12 2) (scoreBlocks c) * p.pageB)

/-- The slices of a region in the groups that are added together (R270): those of one kind, each group with all of `bytes`. -/
def kindGroups (l : List (Nat × Nat)) (bytes : Nat) : List (List (Nat × Nat)) :=
  ((l.map fun e => sliceKind e.1).eraseDups).map fun kd =>
    let g := l.filter fun e => sliceKind e.1 == kd
    let t := g.foldl (fun n e => n + e.2) 0
    g.map fun e => (e.1, e.2 * bytes / max t 1)
/-- 0.9 × the lowest slice rate over regions, slices of several partitions within one region added together (R270). -/
def regionRate (s : State) (h : Nat) (regions : List (Nat × Nat)) : Nat :=
  (regions.flatMap fun r => (kindGroups (spanSlices s h r.1 r.2) r.2).map fun g => 9 * g.foldl (fun n e => n + sliceRate s e.1) 0 / 10).foldl
    (fun m v => if m = 0 then v else min m v) 0

def specAttScore : OpSpec := {
  form := .desc [128]
  valid := fun s c =>
    let al := fun (o : Nat) => c.par o 8 % 64 == 0 && addrOk (c.par o 8)
    headsOk s c && decide (1 ≤ c.par 8 1) && decide (c.par 8 1 ≤ 16) && decide (1 ≤ c.par 9 1) && decide (c.par 9 1 ≤ 64)
      && decide (scoreNq c ≤ 64) && decide (c.par 10 1 ≤ 1) && decide (c.par 11 1 ≤ 3) && decide (1 ≤ c.par 12 2)
      && decide (c.par 12 2 ≤ 4096) && decide (c.par 14 1 ≤ 16) && decide (c.par 14 1 ≤ c.par 12 2) && c.par 15 1 == 0
      && c.par 16 4 % 64 == 0 && decide (c.par 16 4 < c.par 20 4) && decide (c.par 20 4 ≤ 2 ^ 24) && posNormal (c.par 28 4)
      && al 32 && al 40 && al 48 && al 56 && (c.par 64 8 == 0 || al 64) && c.par 72 56 == 0
  rights := fun s c => firstRefusal ([poolRights s c, rightsAt s c.host (c.par 32 8) rRead, rightsAt s c.host (c.par 40 8) rRead,
    rightsAt s c.host (c.par 48 8) rWrite, rightsAt s c.host (c.par 56 8) rWrite]
    ++ (if c.par 64 8 = 0 then [] else [rightsAt s c.host (c.par 64 8) rWrite]))
  size := fun s c => (s.pool (c.par 0 2)).map fun p =>
    let (a, n, bytes) := scorePages p c
    (bytes, kindGroups (spanSlices s c.host a n) bytes)
  fits := libFits
  rates := fun s c => match s.pool (c.par 0 2) with
    | none => []
    | some p =>
      let u := p.unit (c.par 2 2) (c.par 4 2) 0
      let n := c.par 6 2 * p.pages
      let digs := if c.par 10 1 = 0 then [(p.dig 0 u, n * p.d)] else [(p.dig 1 u, n * p.d), (p.dig 2 u, n * p.d)]
      let rows := c.par 6 2 * scoreNq c
      [regionRate s c.host digs, regionRate s c.host [(c.par 32 8, 4 * (scoreB0 c + scoreBlocks c)), (p.scl u, n * 4 * p.d),
        (c.par 40 8, rows * 2 * p.d), (c.par 48 8, rows * p.d * outBits c / 8), (c.par 56 8, rows * 8),
        (c.par 64 8, if c.par 64 8 = 0 then 0 else c.par 6 2 * 4 * c.par 12 2)]]
  total := fun _ c => some (c.par 6 2)
  step := some scoreStep }

def execAttPoolOpen (c : CmdIn) (s : State) : Host.Outcome State Fault Refusal :=
  done (receive s (some specAttPoolOpen) (withOpcode c 0x0400))
def execAttPoolClose (c : CmdIn) (s : State) : Host.Outcome State Fault Refusal :=
  done (receive s (some specAttPoolClose) (withOpcode c 0x0401))
def execAttAppend (c : CmdIn) (s : State) : Host.Outcome State Fault Refusal :=
  done (haltSweep (receive s (some specAttAppend) (withOpcode c 0x0402)) c.chan)
def execAttScore (c : CmdIn) (s : State) : Host.Outcome State Fault Refusal :=
  done (haltSweep (receive s (some specAttScore) (withOpcode c 0x0403)) c.chan)
def execAttRedigest (c : CmdIn) (s : State) : Host.Outcome State Fault Refusal :=
  done (haltSweep (receive s (some specAttRedigest) (withOpcode c 0x0404)) c.chan)

end Sys2Proof.Machine
end

