-- ==== Sys2Proof/Machine/Issue.lean ====
section
/-! DEFINITION. Which instruction words are valid (R158-R183), and the issue of one instruction by a tile (R160, R161). -/
namespace Sys2Proof.Machine

/-! ## Validity (R183) -/

/-- What one operation uses: register files of D, A, B, C (0 none, 1 scalar, 2 vector, 3 accumulator, 4 loop counter), the
formats allowed in FMT, and the bits of IMM it uses. -/
structure OpRow where
  op   : Nat
  d    : Nat := 0
  a    : Nat := 0
  b    : Nat := 0
  c    : Nat := 0
  fmts : List Nat := [0]
  mask : Nat := 0
deriving DecidableEq, Repr

/-- Element formats of R211. -/
def quantFmts : List Nat := [3, 4, 5, 6, 7, 9, 10, 11, 12, 13]
/-- Formats of VADD to VMIN (R168). -/
def arithFmts : List Nat := [0, 1, 2, 8, 9]

/-- The control and scalar rows of R160. -/
def opRowsA : List OpRow :=
  [{ op := 0x00 }, { op := 0x01 }, { op := 0x02, mask := 0xFFFF }, { op := 0x03, mask := 0x3FF },
   { op := 0x04, a := 1, b := 1, mask := 0x703FF }, { op := 0x05, d := 4, mask := 0xFFFFFFFF }, { op := 0x06, d := 4, a := 1 },
   { op := 0x07, d := 4, mask := 0x3FF }, { op := 0x08 },
   { op := 0x10, d := 1, a := 1, b := 1 }, { op := 0x11, d := 1, a := 1, b := 1 }, { op := 0x12, d := 1, a := 1, b := 1 },
   { op := 0x13, d := 1, a := 1, b := 1 }, { op := 0x14, d := 1, a := 1, b := 1 }, { op := 0x15, d := 1, a := 1, b := 1 },
   { op := 0x16, d := 1, a := 1, mask := 0xFFFFFFFF }, { op := 0x17, d := 1, a := 1, mask := 0x3F },
   { op := 0x18, d := 1, a := 1, mask := 0x3F }, { op := 0x19, d := 1, a := 1, mask := 0x3F },
   { op := 0x1A, d := 1, mask := 0xFFFFFFFF }, { op := 0x1B, d := 1, mask := 0xFFFFFFFF }, { op := 0x1C, d := 1, mask := 0xF },
   { op := 0x20, d := 2, a := 1, mask := 0xFFFF }, { op := 0x21, d := 2, a := 1, mask := 0xFFFF },
   { op := 0x22, d := 3, a := 1, mask := 0xFFFF }, { op := 0x23, d := 3, a := 1, mask := 0xFFFF },
   { op := 0x24, d := 1, a := 1, mask := 0xFFFF }, { op := 0x25, d := 1, a := 1, mask := 0xFFFF }]

/-- The matrix, conversion, vector, DMA and synchronisation rows of R160. Field A of SWAIT and SSIG is used, as the table lists it, in the modes
that do not read S[A] as well (log 14). -/
def opRowsB : List OpRow :=
  [{ op := 0x30, a := 1, b := 1, c := 1, mask := 0x13F }, { op := 0x31, a := 1, b := 1, c := 1, mask := 0x13F },
   { op := 0x32, mask := 0x10F },
   { op := 0x40, d := 3, a := 2, b := 2, c := 1, fmts := [1, 2, 3, 4, 5, 6, 7, 9, 10, 11, 12, 13], mask := 0xF0007 },
   { op := 0x41, d := 3 }, { op := 0x42, d := 3, a := 3, b := 3, fmts := [0, 8] }, { op := 0x43, d := 3, a := 3, b := 2 },
   { op := 0x44, d := 3, a := 2 }, { op := 0x45, d := 2, a := 3 },
   { op := 0x50, d := 2, a := 2, fmts := [0, 1, 2, 3, 4, 5, 6, 7, 8, 9, 10, 11, 12, 13], mask := 0xFF70 },
   { op := 0x51, d := 1, a := 2, b := 1, fmts := [0, 1, 2] }, { op := 0x52, d := 1, a := 1, fmts := quantFmts, mask := 1 },
   { op := 0x53, d := 2, a := 2, b := 1, fmts := quantFmts, mask := 0xFB0 },
   { op := 0x54, d := 2, a := 2, b := 1, fmts := quantFmts, mask := 0xF80 },
   { op := 0x55, a := 1, b := 1 }, { op := 0x56, d := 2, a := 2, fmts := [5, 6, 11] }, { op := 0x57, d := 2, a := 2, fmts := [5, 6, 11] },
   { op := 0x60, d := 2, a := 2, b := 2, fmts := [0, 1, 2, 3, 4, 5, 6, 7, 8, 9, 10, 11, 12, 13, 14], mask := 7 },
   { op := 0x61, d := 2, a := 2, b := 2, c := 2 },
   { op := 0x62, d := 2, a := 2, b := 2, fmts := arithFmts }, { op := 0x63, d := 2, a := 2, b := 2, fmts := arithFmts },
   { op := 0x64, d := 2, a := 2, b := 2, fmts := arithFmts }, { op := 0x65, d := 2, a := 2, b := 2, fmts := arithFmts },
   { op := 0x66, d := 2, a := 2, b := 2, fmts := arithFmts }, { op := 0x67, d := 2, a := 2 },
   { op := 0x68, d := 2, a := 1, fmts := [0, 1, 2, 3, 4, 5, 6, 7, 8, 9, 10, 11, 12, 13, 14] },
   { op := 0x70, d := 1, a := 2, fmts := [0, 1, 2, 3, 4, 5, 6, 7], mask := 3 }, { op := 0x71, d := 2, a := 3, mask := 3 },
   { op := 0x78, a := 1, mask := 0x3F }, { op := 0x79, a := 1, mask := 0x2F }, { op := 0x7A, d := 1, mask := 0xF }]

/-- Is a register field within its file (R158)? -/
def regOk (file r : Nat) : Bool :=
  match file with
  | 0 => r == 0
  | 2 => true
  | 4 => decide (r < 4)
  | _ => decide (r < 16)

/-- The limits of PART (R165) for container widths `w1` and `w2`. -/
def partOk (w1 w2 part : Nat) : Bool := decide (part < max w1 w2 / min w1 w2)

/-- The values that R157 to R174 declare MALFORMED, operation by operation. -/
def valuesOk (op codeN syncN : Nat) (i : TI) : Bool :=
  let m := fun hi lo => immBits i hi lo
  let fmt := i.fmt.toNat
  match op with
  | 0x03 => decide (m 9 0 < codeN)
  | 0x04 => decide (m 9 0 < codeN) && decide (m 18 16 < 6)
  | 0x07 => decide (m 9 0 < codeN)
  | 0x1C => decide (m 3 0 ≤ 11)
  | 0x40 => m 1 0 != 3 && !(m 1 0 == 2 && decide (12 ≤ fmt)) && (m 1 0 != 0 || (i.c == 0 && m 19 16 == 0))
  | 0x50 => decide (m 15 12 ≤ 13) && m 5 4 != 3 && partOk (container fmt) (container (m 15 12)) (m 11 8)
      && (m 6 6 == 0 || decide (m 15 12 ≤ 4))
  | 0x53 => m 5 4 != 3 && partOk 32 (container fmt) (m 11 8)
  | 0x54 => partOk 32 (container fmt) (m 11 8)
  | 0x60 => decide (m 2 0 ≤ 5)
  | 0x70 => m 1 0 != 3
  | 0x71 => m 1 0 != 3
  | 0x78 => m 5 4 != 3 && decide (m 3 0 < syncN)
  | 0x79 => decide (m 3 0 < syncN)
  | 0x7A => decide (m 3 0 < syncN)
  | _ => true

/-- Is an instruction word valid in a program of CODE_N instructions and SYNC_N slots (R183)? -/
def instrOk (codeN syncN w : Nat) : Bool :=
  let i := fieldsTI w
  match (opRowsA ++ opRowsB).find? fun r => r.op == field w 63 56 with
  | none => false
  | some r => regOk r.d i.d.toNat && regOk r.a i.a.toNat && regOk r.b i.b.toNat && regOk r.c i.c.toNat
      && r.fmts.contains i.fmt.toNat && i.imm.toNat &&& r.mask == i.imm.toNat && valuesOk r.op codeN syncN i

/-! ## Issue -/

/-- Does the tile fetch this instruction now (R160, R177): it runs, and its next word is this one? A PC beyond the segment
fetches nothing (log 14). While the cluster's PLL relocks its clock stands still (R32). -/
def fetches (s : State) (n op : Nat) (i : TI) : Bool :=
  let t := s.tile n
  t.st == .running && t.run.isSome && !s.flt.relocking.contains (cluOf n) && decide (t.pc < t.seg.2.2.1) && tabGet 0 t.imem (t.codeAt + t.pc) == encodeTI op i
/-- The error of the word that a tile fetches. -/
def Tile.fetchErr (t : Tile) : BitVec 72 := tabGet 0 t.imemErr (t.codeAt + t.pc)
/-- Does the tile issue this instruction now: it fetches it, and the word is good? -/
def issues (s : State) (n op : Nat) (i : TI) : Bool := fetches s n op i && (s.tile n).fetchErr == 0
/-- A single-bit error of the word fetched is corrected, written back and counted (R155); an event that is logged as corrected (R425). -/
def mendFetch (s : State) (n : Nat) : State :=
  let t := s.tile n
  let s := cluCe (s.setTile n { t with imemErr := tabSet 0 t.imemErr (t.codeAt + t.pc) 0 }) (cluOf n) true
  corrected s (unitOf 3 n) 2 (flipAt t.fetchErr) 0

/-- PC to the next instruction. -/
def Tile.next (t : Tile) : Tile := { t with pc := (t.pc + 1) % 1024 }
def Tile.jump (t : Tile) (target : Nat) : Tile := { t with pc := target }

/-- An event of tile `n` in which it issues operation `op`: the effect `f`, or nothing where it does not issue. A word with a single-bit
error is corrected and issues; one with more traps IFETCH_UE (R155, R178). -/
def issue (n op : Nat) (i : TI) (f : State → State) (s : State) : Host.Outcome State Fault Refusal :=
  onInst (decide (n < 10240)) (
    if issues s n op i then f s
    else if !fetches s n op i then s
    else if flips (s.tile n).fetchErr = 1 then f (mendFetch s n)
    else settle (trapTile s n 3 0 0))

/-- An instruction that changes only the tile's own registers and memories. -/
def issueReg (n op : Nat) (i : TI) (g : Tile → Tile) (s : State) : Host.Outcome State Fault Refusal :=
  issue n op i (fun s => s.setTile n (g (s.tile n)).next) s

/-- Re-evaluates a tile that waits for its engines: DWAIT, GRAN with a stop request, and HALT (R171, R173, R175, R176). -/
def wakeDma (s : State) (n : Nat) : State :=
  let t := s.tile n
  match t.st with
  | .inDwait e m =>
    if (t.eng e).halted then trapTile s n 5 0
    else if (t.eng e).queue.length ≤ m then s.setTile n { t.next with st := .running } else s
  | .inHalt =>
    if t.e0.halted || t.e1.halted then trapTile s n 5 0
    else if t.drained then (foldCycles s n).setTile n { (foldCycles s n).tile n with st := .halted } else s
  | .inGran => if t.drained then stopTile s n else s
  | _ => s

end Sys2Proof.Machine
end

