-- ==== Sys2Proof/Machine/Progs.lean ====
section
/-! DEFINITION. Program commands (R181-R192): loading, placement, the start of a run, unloading and querying. -/
namespace Sys2Proof.Machine

/-! ## Images (R182, R183) -/

/-- The instruction words of an image. -/
def imageCode (img : List Byte) (codeN : Nat) : List Nat := (List.range codeN).map fun i => leAt img (64 + 8 * i) 8

/-- Is the image well-formed (R182, R183)? -/
def imageOk (img : List Byte) : Bool :=
  let codeN := leAt img 8 2
  let kib := leAt img 10 2
  let initLen := leAt img 12 2
  let syncN := leAt img 14 2
  leAt img 0 4 == 0x4E524843 && leAt img 4 1 == 1 && decide (leAt img 6 2 ≤ 1)
    && decide (1 ≤ codeN) && decide (codeN ≤ 896) && decide (1 ≤ kib) && decide (kib ≤ 56)
    && initLen % 64 == 0 && decide (initLen ≤ kib * 1024) && decide (syncN ≤ 16)
    && decide (1 ≤ leAt img 16 8) && decide (leAt img 16 8 ≤ 2 ^ 40)
    && leAt img 24 40 == 0 && img.length == 64 + 8 * codeN + initLen
    && (imageCode img codeN).all (instrOk codeN syncN)

/-! ## Placement (R184, R185) -/

/-- The lowest start at or above `lo` of a free stretch of `n` below `hi`, given the used stretches; `fuel` bounds the tries. -/
def freeStretch (used : List (Nat × Nat)) (n hi : Nat) : Nat → Nat → Option Nat
  | 0, _ => none
  | fuel + 1, lo =>
    if hi < lo + n then none
    else match used.find? fun u => !disjointSpans lo n u.1 u.2 with
      | some u => freeStretch used n hi fuel (max (lo + 1) (u.1 + u.2))
      | none => some lo

/-- Where a program fits on a tile: code index and scratch KiB index, where the tile qualifies (R184). -/
def tileFit (s : State) (n codeN kib : Nat) : Option (Nat × Nat) :=
  let t := s.tile n
  let u := (s.unit (unitOf 3 n)).state
  if t.offline || u == 1 || u == 2 || decide (4 ≤ t.slots.length) then none
  else
    match freeStretch (t.slots.map fun e => (e.2.1, e.2.2.1)) codeN 1024 8 128,
        freeStretch (t.slots.map fun e => (e.2.2.2.1, e.2.2.2.2)) kib 56 8 0 with
    | some c, some k => some (c, k)
    | _, _ => none

/-- The `need` qualifying tiles of lowest number among `cand`, with their places. -/
def pickTiles (s : State) (codeN kib : Nat) : List Nat → Nat → List (Nat × Nat × Nat)
  | [], _ => []
  | n :: ns, need =>
    if need = 0 then []
    else match tileFit s n codeN kib with
      | some (c, k) => (n, c, k) :: pickTiles s codeN kib ns (need - 1)
      | none => pickTiles s codeN kib ns need

/-- Partitions of a mask, ascending. -/
def maskParts (mask : Nat) : List Nat := allParts.filter fun p => bitOf mask p

/-- The placement of TILES over the masked partitions (R185): equal shares, the remainder to the lowest; none where it fails. -/
def placeTiles (s : State) (tiles mask codeN kib : Nat) : Option (List (Nat × Nat × Nat)) :=
  let ps := maskParts mask
  let m := ps.length
  let l := ((List.range m).zip ps).foldl (fun (acc : List (Nat × Nat × Nat)) e =>
    let share := tiles / m + (if e.1 < tiles % m then 1 else 0)
    if s.online e.2 then acc ++ pickTiles s codeN kib ((List.range 1280).map (· + 1280 * e.2)) share else acc) []
  if l.length = tiles then some l else none

/-- Bytes of the program store of a partition (R184). -/
def progStore (s : State) (p : Nat) : Nat :=
  s.churn.progs.foldl (fun n e => if e.2.tiles.any (fun t => tilePart t == p) then n + e.2.image.length else n) 0

/-- Writes code into the instruction memory of a tile; the words are good again. -/
def putCode (t : Tile) (codeAt : Nat) (code : List Nat) : Tile :=
  { t with
    imem := ((List.range code.length).zip code).foldl (fun m w => tabSet 0 m (codeAt + w.1) (BitVec.ofNat 64 w.2)) t.imem
    imemErr := t.imemErr.filter fun e => !(decide (codeAt ≤ e.1) && decide (e.1 < codeAt + code.length)) }
/-- The scratch words from physical address `a` are to be written: they hold no error any more. -/
def clearScratch (t : Tile) (a n : Nat) : Tile :=
  { t with scratchPoison := t.scratchPoison.filter fun w => !touchesWord a n w
           scratchErr := t.scratchErr.filter fun e => !touchesWord a n e.1 }
/-- Writes the program into one tile: code, zeroed scratch, its slot (R185). -/
def loadTile (h codeN kib : Nat) (code : List Nat) (s : State) (e : Nat × Nat × Nat) : State :=
  let t := s.tile e.1
  let lo := e.2.2 * 1024
  let t := clearScratch (putCode t e.2.1 code) lo (kib * 1024)
  s.setTile e.1 { t with
    scratch := t.scratch.filter fun b => !(decide (lo ≤ b.1) && decide (b.1 < lo + kib * 1024))
    slots := t.slots ++ [(h, e.2.1, codeN, e.2.2, kib)] }

/-- Effect of PROG_LOAD (R183-R185). -/
def progLoadAct (s : State) (k : Nat) : State :=
  match s.cmd k with
  | none => s
  | some c =>
    let ra := c.par 16 8
    let len := c.par 24 4
    match readGran s c.host ra len with
    | (.stop a w, s1) => stopAt s1 k a rRead w
    | (.ok img, s1) =>
      if !imageOk img then settle (finish s1 k stMALFORMED)
      else
        let codeN := leAt img 8 2
        let kib := leAt img 10 2
        let tiles := c.par 28 2
        let h := tabGap s1.churn.progs 1
        match placeTiles s1 tiles (c.par 30 1) codeN kib with
        | none => settle (finish s1 k stRESOURCES)
        | some l =>
          -- a copy for every partition that receives a tile
          let full := ((l.map fun e => tilePart e.1).eraseDups).any fun p => decide (2 ^ 24 < progStore s1 p + img.length)
          if 4095 < h || full then settle (finish s1 k stRESOURCES)
          else if !powerFits s1 (tiles * tilePower 0) then settle (finish (energyRefused s1) k stENERGY)
          else
            let s2 := l.foldl (loadTile h codeN kib (imageCode img codeN)) s1
            let p : Prog := { host := c.host, image := img, codeN := codeN, scrKib := kib, initLen := leAt img 12 2
                              syncN := leAt img 14 2, maxCyc := leAt img 16 8, restart := leAt img 6 2 == 1
                              tiles := l.map (·.1) }
            let s3 := { s2 with churn := { s2.churn with progs := tabIns s2.churn.progs h p } }
            settle (finish s3 k stOK 0 (h + 2 ^ 32 * l.length))

/-- The clusters that receive tiles (R185): as the image's header and the tiles stand at entry. Where the header cannot be read or no place
is found, the load ends without effect and the count is that of an empty pool. -/
def loadClusters (s : State) (c : Cmd) : Nat :=
  let (codeN, kib) := match (readGran s c.host (c.par 16 8) 64).1 with
    | .ok hd => (leAt hd 8 2, leAt hd 10 2)
    | .stop _ _ => (1, 1)
  match placeTiles s (c.par 28 2) (c.par 30 1) codeN kib with
  | some l => ((l.map fun e => cluOf e.1).eraseDups).length
  | none => (c.par 28 2 + 255) / 256

def specProgLoad : OpSpec := {
  valid := fun _ c => addrOk (c.par 16 8) && c.par 16 8 % 64 == 0 && decide (1 ≤ c.par 28 2) && decide (c.par 28 2 ≤ 10240)
    && c.par 30 1 != 0 && zeroB c.raw 31 17 && decide (64 ≤ c.par 24 4) && decide (c.par 24 4 ≤ 64 + 8 * 896 + 57344)
    && addrOk (c.par 16 8 + c.par 24 4 - 1)
  rights := fun s c => rightsAt s c.host (c.par 16 8) rRead
  size := fun s c => some (c.par 24 4 * loadClusters s c, [spanSlices s c.host (c.par 16 8) (c.par 24 4)])
  act := progLoadAct }

/-! ## Runs (R186-R188) -/

/-- Step 5 of a command that names a handle: only the identity that loaded the program (R181; CAUSE 1, log 10). -/
def handleRights (s : State) (h host : Nat) : Option (Nat × Rights × Nat) :=
  match s.prog h with
  | some p => if p.host = host then none else some (1, 0, 0)
  | none => some (1, 0, 0)

/-- Does some instruction of a program name a slot with one of the operations `ops`? -/
def usesSlot (p : Prog) (ops : List Nat) (slot : Nat) : Bool :=
  (imageCode p.image p.codeN).any fun w => ops.contains (field w 63 56) && field w 3 0 == slot

/-- The rights on the sync objects of a run, by what the program does with each slot (R186; DEDUCED, log 14). -/
def slotRights (s : State) (c : Cmd) : Option (Nat × Rights × Nat) :=
  match s.prog c.runHandle with
  | none => some (1, 0, 0)
  | some p =>
    let ok := fun (i : Nat) =>
      let o := s.obj (c.runSync i)
      (o.mayWait c.host || o.maySignal c.host)
        && (!usesSlot p [0x78, 0x7A] i || o.mayWait c.host) && (!usesSlot p [0x79] i || o.maySignal c.host)
    if (List.range p.syncN).all ok then none else some (1, 0, 0)

/-- Does the form of a run fit its program (R186, R191): exactly SYNC_N slots given, inline only with none, and a handle that is not
closing? A handle that is not the issuer's is judged at step 5. -/
def runFits (s : State) (c : Cmd) : Bool := match s.prog c.runHandle with
  | some p => p.host != c.host || (p.state != 2 && (descBit c.raw || p.syncN == 0)
      && (List.range 16).all fun i => decide (i < p.syncN) || c.runSync i == 0)
  | none => true

def specProgRun : OpSpec := {
  form := .either [128]
  valid := fun s c => (if descBit c.raw then c.par 2 2 == 0 && c.par 72 56 == 0 else zeroB c.raw 18 2) && runFits s c
  rights := fun s c => firstRefusal [handleRights s c.runHandle c.host, slotRights s c]
  admits := fun s c => match s.prog c.runHandle with
    | some p => if p.state = 3 then some stOFFLINE else none
    | none => none
  total := fun _ _ => some 0
  act := fun s _ => s }

/-- A tile at the start of a run (R156, R187). After an IFETCH_UE the code of its
segments is written again first (R193). -/
def startTile (k : Nat) (p : Prog) (h resume : Nat) (s : State) (e : Nat × Nat) : State :=
  let t := s.tile e.1
  let seg := (t.slots.find? fun x => x.1 == h).getD (0, 0, 0, 0, 0)
  let scrAt := seg.2.2.2.1 * 1024
  let again : Tile → Nat × Nat × Nat × Nat × Nat → Tile := fun t x => match s.prog x.1 with
    | some q => putCode t x.2.1 (imageCode q.image q.codeN)
    | none => t
  let t := if t.rewrite then t.slots.foldl again t else t
  let t := clearScratch t scrAt p.initLen
  s.setTile e.1 { t with
    a := [], v := [], s := [], l := [], pc := 0, lfsr := 0, satc := 0, flc := 0
    scratch := memPutL t.scratch scrAt ((p.image.drop (64 + 8 * p.codeN)).take p.initLen)
    e0 := {}, e1 := {}, st := .running, run := some k, logical := e.2, codeAt := seg.2.1, scrAt := scrAt, rewrite := false
    cycles := 0, work := 0, startAt := s.now, grans := resume, stopReq := false }

/-- Did another run that shares tiles become otherwise ready earlier, so that it starts first (R187)? A pre-empted one is ready from its
pre-emption on. -/
def earlierRun (s : State) (k : Nat) (c : Cmd) (tiles : List Nat) : Bool :=
  s.store.cmds.any fun e => e.1 != k && opcodeOf e.2.raw == 0x0381 && (e.2.st == .ready || e.2.st == .preempted)
    && (runTiles s e.2).any tiles.contains
    && (decide (e.2.startedAt < c.startedAt) || (e.2.startedAt == c.startedAt && decide (e.2.seq < c.seq)))

/-- Asks the RESTARTABLE runs of lower priority on these tiles to stop at GRAN (R67, R190); a reduction step of lower priority is pre-empted
between its granules (R248). -/
def preemptRuns (s : State) (c : Cmd) (tiles : List Nat) : State :=
  let step : State → Nat → State := fun s n => match stepOn s n with
    | some (_, k, d) => if decide (c.prio < d.prio) && d.st == .running then s.setCmd k { d with st := .preempted } else s
    | none => s
  let ask : State → Nat → State := fun s n => match runOf s n with
    | some (_, d) => match s.prog d.runHandle with
      | some p => if p.restart && decide (c.prio < d.prio) && d.st == .running then
          (runTiles s d).foldl (fun s m => s.setTile m { s.tile m with stopReq := true }) s else s
      | none => s
    | none => s
  tiles.foldl ask (tiles.foldl step s)

/-- Are the CTL cores of the tiles' clusters, and the tiles themselves, serving (R427)? -/
def ctlServes (s : State) (tiles : List Nat) : Bool :=
  tiles.all fun n =>
    let u := (s.unit (unitOf 4 (cluOf n))).state
    let v := (s.unit (unitOf 3 n)).state
    u != 1 && u != 2 && v != 1 && v != 2

/-- RUN_START (R187): an idle set of tiles takes the run, after the energy check of R471. -/
def runStart (s : State) (k : Nat) : State :=
  match s.cmd k with
  | none => s
  | some c =>
    if opcodeOf c.raw != 0x0381 || !(c.st == .ready || c.st == .preempted) then s
    else match s.prog c.runHandle with
      | none => s
      | some p =>
        if p.state = 3 then settle (finish s k stOFFLINE c.progress)
        else if s.pwr.hold || !ctlServes s p.tiles || earlierRun s k c p.tiles then s
        else if p.tiles.any (tileTaken s) then preemptRuns s c p.tiles
        else if !c.started && !energyFits s (p.tiles.length * tilePower 0 * (p.maxCyc / 600) / 1000000000)
        then settle (finish (energyRefused s) k stENERGY)
        else
          let s := s.setCmd k { c with st := .running, started := true, startedAt := s.now, opState := c.progress }
          let s := (p.tiles.zip (List.range p.tiles.length)).foldl (startTile k p c.runHandle c.progress) s
          let s := ((p.tiles.map cluOf).eraseDups).foldl cluRun s
          -- a run starts at its floor (R470)
          setLevels { s with pwr := { s.pwr with runLvl := tabSet 0 s.pwr.runLvl k 0 } }

def execProgLoad (c : CmdIn) (s : State) : Host.Outcome State Fault Refusal :=
  done (receive s (some specProgLoad) (withOpcode c 0x0380))
def execProgRun (c : CmdIn) (s : State) : Host.Outcome State Fault Refusal :=
  done (receive s (some specProgRun) (withOpcode c 0x0381))
def execRunStart (k : Nat) (s : State) : Host.Outcome State Fault Refusal := done (runStart s k)

/-! ## Unload and query (R181, R191) -/

/-- PROG_UNLOAD: the handle closes; its reply follows the last run (R191). A second unload of a closing handle is MALFORMED. -/
def progUnloadAct (s : State) (k : Nat) : State :=
  match s.cmd k with
  | none => s
  | some c =>
    let h := c.par 16 2
    match s.prog h with
    | none => settle (finish s k stMALFORMED)
    | some p =>
      if p.unload.isSome then settle (finish s k stMALFORMED)
      else
        let s := { s with churn := { s.churn with
          progs := tabIns s.churn.progs h { p with state := 2, unload := some k } } }
        tellAccepted (settle (s.setCmd k { c with st := .finishing })) k

def specProgUnload : OpSpec := {
  valid := fun _ c => zeroB c.raw 18 30
  rights := fun s c => handleRights s (c.par 16 2) c.host
  act := progUnloadAct }

def progQueryAct (s : State) (k : Nat) : State :=
  match s.cmd k with
  | none => s
  | some c => match s.prog (c.par 16 2) with
    | none => settle (finish s k stMALFORMED)
    | some p =>
      settle (finish s k stOK 0 (p.state + 2 ^ 32 * p.tiles.length + 2 ^ 64 * runsOf s (c.par 16 2)))

def specProgQuery : OpSpec := {
  valid := fun _ c => zeroB c.raw 18 30
  rights := fun s c => handleRights s (c.par 16 2) c.host
  act := progQueryAct }

def execProgUnload (c : CmdIn) (s : State) : Host.Outcome State Fault Refusal :=
  done (receive s (some specProgUnload) (withOpcode c 0x0382))
def execProgQuery (c : CmdIn) (s : State) : Host.Outcome State Fault Refusal :=
  done (receive s (some specProgQuery) (withOpcode c 0x0383))

end Sys2Proof.Machine
end

