-- ==== Sys2Proof/Machine/SyncCmds.lean ====
section
/-! DEFINITION. Sync commands (R232) and the arrival of updates at their objects (R229-R231). -/
namespace Sys2Proof.Machine

/-- Step 5 of a sync command: the object's right (R228), CAUSE 1 (log 10). -/
def needRight (ok : Bool) : Option (Nat × Rights × Nat) := if ok then none else some (1, 0, 0)

def idxOk (c : Cmd) : Bool := decide (c.par 16 2 < 16384)

/-- The update that a sync command sends to its object. -/
def updOf (c : Cmd) : SyncUpd :=
  let src := BitVec.ofNat 32 (srcOf c.raw)
  let tag := BitVec.ofNat 32 (tagOf c.raw)
  match opcodeOf c.raw with
  | 0x0600 => .config src tag (c.par 18 2) (bitOf (c.par 20 1) 0) (bitOf (c.par 20 1) 1) (BitVec.ofNat 64 (c.par 24 8))
      (BitVec.ofNat 32 (c.par 32 4))
  | 0x0602 => .set src tag (bitOf (c.par 18 1) 0) (bitOf (c.par 18 1) 1) (BitVec.ofNat 64 (c.par 24 8)) (BitVec.ofNat 32 (c.par 32 4))
  | 0x0603 => .add src tag (BitVec.ofNat 64 (c.par 24 8))
  | _ => .release

/-- A sync command that is ready sends its update (R229) and waits for it. -/
def syncAct (s : State) (k : Nat) : State :=
  match s.cmd k with
  | none => s
  | some c => postUpd (s.setCmd k { c with st := .finishing }) (c.par 16 2) (updOf c)

def syncReadAct (s : State) (k : Nat) : State :=
  match s.cmd k with
  | none => s
  | some c =>
    let o := s.obj (c.par 16 2)
    settle (finish s k stOK 0 (o.count.toNat + 2 ^ 64 * o.thr.toNat + 2 ^ 96 * (flag o.err 0 + flag o.sat 1) + 2 ^ 104 * o.errCnt) []
      (o.sat || o.errCnt == 255))

def specSyncConfig : OpSpec := {
  valid := fun _ c => idxOk c && decide (c.par 20 1 < 4) && zeroB c.raw 21 3 && zeroB c.raw 36 12
  rights := adminOnly, act := syncAct }
def specSyncRelease : OpSpec := { valid := fun _ c => idxOk c && zeroB c.raw 18 30, rights := adminOnly, act := syncAct }
def specSyncSet : OpSpec := {
  valid := fun _ c => idxOk c && decide (c.par 18 1 < 4) && zeroB c.raw 19 5 && zeroB c.raw 36 12
  rights := fun s c => needRight ((s.obj (c.par 16 2)).maySignal c.host), act := syncAct }
def specSyncAdd : OpSpec := {
  valid := fun _ c => idxOk c && zeroB c.raw 18 6 && zeroB c.raw 32 16
  rights := fun s c => needRight ((s.obj (c.par 16 2)).maySignal c.host), act := syncAct }
def specSyncRead : OpSpec := {
  valid := fun _ c => idxOk c && zeroB c.raw 18 30
  rights := fun s c => needRight ((s.obj (c.par 16 2)).mayWait c.host), act := syncReadAct }

def execSyncConfig (c : CmdIn) (s : State) : Host.Outcome State Fault Refusal :=
  done (receive s (some specSyncConfig) (withOpcode c 0x0600))
def execSyncRelease (c : CmdIn) (s : State) : Host.Outcome State Fault Refusal :=
  done (receive s (some specSyncRelease) (withOpcode c 0x0601))
def execSyncSet (c : CmdIn) (s : State) : Host.Outcome State Fault Refusal :=
  done (receive s (some specSyncSet) (withOpcode c 0x0602))
def execSyncAdd (c : CmdIn) (s : State) : Host.Outcome State Fault Refusal :=
  done (receive s (some specSyncAdd) (withOpcode c 0x0603))
def execSyncRead (c : CmdIn) (s : State) : Host.Outcome State Fault Refusal :=
  done (receive s (some specSyncRead) (withOpcode c 0x0604))

/-! ## Updates arrive (R229, R230) -/

/-- The place of an update in the order of R230: class, then SRC, then TAG. -/
def SyncUpd.order : SyncUpd → Nat × Nat × Nat
  | .config src tag .. => (0, src.toNat, tag.toNat)
  | .set src tag .. => (1, src.toNat, tag.toNat)
  | .add src tag _ => (2, src.toNat, tag.toNat)
  | .signal _ => (3, 0, 0)
  | .error => (3, 0, 0)
  | .release => (4, 0, 0)

def SyncUpd.le (a b : SyncUpd) : Bool :=
  let x := a.order
  let y := b.order
  decide (x.1 < y.1) || (x.1 == y.1 && (decide (x.2.1 < y.2.1) || (x.2.1 == y.2.1 && decide (x.2.2 ≤ y.2.2))))

/-- Inserts an update behind those that go before it or tie with it. -/
def insUpd (u : SyncUpd) : List SyncUpd → List SyncUpd
  | [] => [u]
  | v :: t => if v.le u then v :: insUpd u t else u :: v :: t
def sortUpds (l : List SyncUpd) : List SyncUpd := l.foldl (fun acc u => insUpd u acc) []

/-- The command of the store that sent an update of object `idx`. -/
def senderOf (s : State) (idx : Nat) (u : SyncUpd) : Option Nat :=
  let of := fun (op : Nat) (src tag : Option W32) =>
    (s.store.cmds.find? fun e => e.2.st == .finishing && opcodeOf e.2.raw == op && e.2.par 16 2 == idx
      && (src.all fun x => x.toNat == srcOf e.2.raw) && (tag.all fun x => x.toNat == tagOf e.2.raw)).map (·.1)
  match u with
  | .config src tag .. => of 0x0600 (some src) (some tag)
  | .set src tag .. => of 0x0602 (some src) (some tag)
  | .add src tag _ => of 0x0603 (some src) (some tag)
  | .release => of 0x0601 none none
  | _ => none

/-- Applies one update and, where a command sent it, ends that command; SYNC_SET and SYNC_ADD return the previous counter. -/
def deliver (idx : Nat) (s : State) (u : SyncUpd) : State :=
  let prev := (s.obj idx).count.toNat
  let k := senderOf s idx u
  let s1 := applyUpd s idx u
  match k with
  | none => s1
  | some k =>
    let returns := match u with
      | .set .. => true
      | .add .. => true
      | _ => false
    finish s1 k stOK 0 (if returns then prev else 0) [] (returns && (s.obj idx).sat)

/-- SYNC_UPDATE_APPLY (R229, R230): the updates on their way to an object reach it. -/
def execSyncUpdateApply (idx : Nat) (s : State) : Host.Outcome State Fault Refusal :=
  onInst (decide (idx < 16384))
    (let ups := (s.sync.inFlight.filter (·.1 == idx)).map (·.2)
     if ups = [] then s
     else
       let s := { s with sync := { s.sync with inFlight := s.sync.inFlight.filter (·.1 != idx) } }
       settle ((sortUpds ups).foldl (deliver idx) s))

end Sys2Proof.Machine
end

