-- ==== Sys2Proof/Machine/RedSlots.lean ====
section
/-! DEFINITION. The compressed all-reduce (R243-R251): slots, contributions and steps. -/
namespace Sys2Proof.Machine

/-! ## Opening (R243-R245) -/

/-- The first refusal over the extents of a span (R244): every granule must hold the rights `acc`. -/
def spanRightsN (h : Nat) (acc : Rights) (s : State) : Nat → Nat → Nat → Option (Nat × Rights × Nat)
  | 0, _, _ => none
  | fuel + 1, a, n =>
    if n = 0 then none
    else match (lookup s h a acc).1 with
      | .refused c => some (c, acc, a)
      | _ =>
        let k := match extentAt s h a with
          | some e => min n (e.start + e.len - a)
          | none => min n (4096 - a % 4096)
        spanRightsN h acc s fuel (a + k) (n - k)
def spanRights (h : Nat) (acc : Rights) (s : State) (a n : Nat) : Option (Nat × Rights × Nat) := spanRightsN h acc s (spanFuel n) a n

/-- Does the span lie wholly in one range? -/
def oneRange (s : State) (h a n : Nat) : Bool := match checkRa s h a 0 with
  | .ok _ rid => !spanLeavesN h rid false s (spanFuel n) a n
  | _ => false

def rowS (x : Slot) : Nat := rowSize x.fmt x.scm x.l
def rowO (x : Slot) : Nat := rowSize x.ofmt 1 x.l

/-- The slot that the descriptor of a RED_SLOT_OPEN describes (R243). -/
def slotOf (c : Cmd) : Slot :=
  { host := c.host, n := c.par 0 2, ntiles := c.par 2 2, l := c.par 4 4, fmt := c.par 8 1, scm := c.par 9 1, ofmt := c.par 10 1
    sr := c.par 11 1 == 1, ufNum := c.par 12 1, outRes := bitOf (c.par 13 1) 0, cres := bitOf (c.par 13 1) 1
    seed := BitVec.ofNat 32 (c.par 16 4), mul := BitVec.ofNat 32 (c.par 20 4), arrive := c.par 24 2, limitMs := c.par 26 2
    dep := c.par 32 8, out := c.par 40 8, res := c.par 48 8, cresBase := c.par 56 8, tiles := [] }

/-- The regions of a slot with their sizes: DEP, OUT, RES, CRES (R244). -/
def slotRegions (x : Slot) : List (Nat × Nat) :=
  [(x.dep, x.n * rowS x), (x.out, 2 * rowO x)] ++ (if x.outRes then [(x.res, 8 * x.l)] else [])
    ++ (if x.cres then [(x.cresBase, 8 * x.n * x.l)] else [])

def shardFmts : List Nat := [3, 4, 5, 6, 7, 9, 10]

/-- Do the regions satisfy R244 in size and alignment: OUT, RES and CRES in one range each, and every row of DEP? -/
def regionsOk (s : State) (x : Slot) : Bool :=
  (slotRegions x).all (fun r => r.1 % 4096 == 0) && ((slotRegions x).drop 1).all (fun r => oneRange s x.host r.1 r.2)
    && (List.range x.n).all fun i => oneRange s x.host (x.dep + i * rowS x) (rowS x)

/-- Why a slot cannot be opened (R245). -/
def redOpenStop (s : State) (c : Cmd) : Option Nat :=
  let x := slotOf c
  if decide (255 < tabGap s.work.slots 0) || (placeTiles s x.ntiles (c.par 14 1) 0 0).isNone || !regionsOk s x then some stRESOURCES
  else if !powerFits s (slotPower x) then some stENERGY
  else none

def redOpenAct (s : State) (k : Nat) : State :=
  match s.cmd k with
  | none => s
  | some c =>
    let x := slotOf c
    let i := tabGap s.work.slots 0
    match redOpenStop s c, placeTiles s x.ntiles (c.par 14 1) 0 0 with
    | some st, _ => settle (finish (if st = stENERGY then energyRefused s else s) k st)
    | none, none => s
    | none, some l =>
      let s1 := l.foldl (loadTile (0x10000 + i) 0 0 []) s
      settle (finish (s1.setSlot i { x with tiles := l.map (·.1) }) k stOK 0 i)

def specRedSlotOpen : OpSpec := {
  form := .desc [128]
  valid := fun _ c =>
    let x := slotOf c
    decide (1 ≤ x.n) && decide (x.n ≤ 1024) && decide (1 ≤ x.ntiles) && decide (x.ntiles ≤ 10240)
      && x.l % 1024 == 0 && decide (1024 ≤ x.l) && decide (x.l ≤ 2 ^ 24) && shardFmts.contains x.fmt && shardFmts.contains x.ofmt
      && (x.scm == 1 || x.scm == 2) && decide (c.par 11 1 ≤ 1) && decide (x.ufNum ≤ 16) && decide (c.par 13 1 ≤ 3)
      && c.par 14 1 != 0 && c.par 15 1 == 0 && decide (x.arrive < 16384) && decide (1 ≤ x.limitMs) && decide (x.limitMs ≤ 60000)
      && c.par 28 4 == 0 && (x.outRes || x.res == 0) && (x.cres || x.cresBase == 0) && c.par 64 64 == 0
      && (!x.cres || x.scm == 1) && !(f32 x.mul.toNat).isNan && !(f32 x.mul.toNat).isInf
      && (slotRegions x).all fun r => decide (r.1 + r.2 ≤ 2 ^ 52)
  rights := fun s c =>
    let x := slotOf c
    firstRefusal ((slotRegions x).map (fun r => spanRights c.host (rRead ||| rWrite) s r.1 r.2)
      ++ [needRight ((s.obj x.arrive).maySignal c.host)])
  admits := redOpenStop
  act := redOpenAct }

/-! ## Contributions (R246, R247, R249) -/

/-- Bytes that a step reads and writes, and its operands (R66, R247). -/
def stepSize (s : State) (x : Slot) : Nat × List (List (Nat × Nat)) :=
  let r := if x.outRes then 4 * x.l else 0
  let res := fun (j : Nat) => if x.outRes then [spanSlices s x.host (x.res + (j % 2) * 4 * x.l) (4 * x.l)] else []
  (x.n * rowS x + r + rowO x + r,
    [spanSlices s x.host x.dep (x.n * rowS x), spanSlices s x.host (x.out + (x.k % 2) * rowO x) (rowO x)] ++ res x.k ++ res (x.k + 1))

/-- The seed of a block of the current step (R248, R249). -/
def blockSeed (x : Slot) (blk b : Nat) : Nat := seedOf ((x.seed.toNat + x.k) % 2 ^ 32) blk (b % x.ntiles)

/-- Quantises values as a contribution or an output, from block `b0` on: the blocks and the residuals (R248, R249). `base` offsets the block
index. -/
def quantRow (x : Slot) (fmt base b0 : Nat) (vals : List Nat) : List QBlock × List Nat :=
  let blks := blocksOf 32 (vals.length / 32) vals
  let q := ((List.range blks.length).zip blks).map fun e => quantBlock fmt x.sr (blockSeed x (base + (b0 + e.1)) (b0 + e.1)) e.2
  (q, (blks.zip q).flatMap fun e => residuals e.1 e.2)

/-- Bytes that a deposit moves. -/
def depositBytes (x : Slot) (kind : Nat) : Nat := match kind with
  | 0 => 2 * rowS x
  | 1 => 0
  | 2 => 4 * x.l + 8 * x.l + rowS x
  | _ => 2 * x.l + 8 * x.l + rowS x

/-- Where a deposit stopped: the identity and the right of the access, its address, and how. -/
structure DepStop where
  host : Nat
  acc  : Rights
  ra   : Nat
  why  : Acc Unit
deriving Repr

/-- A deposit (R246, R249): nothing for SRC_KIND 1, else the copy or the quantisation, whose row and residuals are written together. -/
def deposit (s : State) (x : Slot) (c : Cmd) : Option DepStop × State :=
  let i := c.par 18 2
  let kind := c.par 32 1
  let row := x.dep + i * rowS x
  let src := c.par 24 8
  let wrote : Span Unit × State → Option DepStop × State := fun r => match r with
    | (.stop ra w, s) => (some { host := c.host, acc := rWrite, ra := ra, why := w }, s)
    | (.ok (), s) => (none, s)
  if kind = 1 then (none, s)
  else if kind = 0 then match readAll s c.host src (rowS x) with
    | (.stop ra w, s1) => (some { host := c.host, acc := rRead, ra := ra, why := w }, s1)
    | (.ok bs, s1) => wrote (writeAll s1 c.host row bs)
  else
    let copy := fun (j : Nat) => x.cresBase + (j % 2) * x.n * 4 * x.l + i * 4 * x.l
    match readAll s c.host src ((if kind = 2 then 4 else 2) * x.l) with
    | (.stop ra w, s1) => (some { host := c.host, acc := rRead, ra := ra, why := w }, s1)
    | (.ok g, s1) => match readAll s1 x.host (copy x.k) (4 * x.l) with
      | (.stop ra w, s2) => (some { host := x.host, acc := rRead, ra := ra, why := w }, s2)
      | (.ok old, s2) =>
        let xs := List.zipWith f32Add (if kind = 2 then f32List g else bf16List g) (f32List old)
        let (q, res) := quantRow x x.fmt ((i + 1) * 2 ^ 20) 0 xs
        wrote (writeAs s2 [(c.host, row, mxRowBytes x.fmt x.l q), (x.host, copy (x.k + 1), f32Bytes res)])

/-- A slot between its steps: no marks, and nothing of a step. -/
def Slot.rest (x : Slot) : Slot := { x with marked := [], running := false, scales := [], poisoned := 0, under := 0, sat := 0 }

/-- Abandons a step of a slot (R250): its contributions end with the status given, but for those whose refusal is under way; the marks of
the current step clear. -/
def abandonStep (s : State) (i step status : Nat) (arriveErr : Bool) : State :=
  match s.slot i with
  | none => s
  | some x =>
    let s := ((contribs s i step).filter (·.2.st != .finishing)).foldl (fun s e => finish s e.1 status) s
    let s := if step = x.k then s.setSlot i x.rest else s
    settle (if arriveErr then postUpd s x.arrive .error else s)

/-- Starts the step of a slot once all its indices are marked (R246, R247), its tiles are free, its energy estimate fits (R471) and its load
fits (R518). -/
def tryStep (s : State) (i : Nat) : State :=
  match s.slot i with
  | none => s
  | some x => match stepLead s i x.k with
    | none => s
    | some (k, c) =>
      -- the rate fixed at acceptance stays where the contribution that carried it has ended
      let c := if c.loads != [] then c else { c with loads := loadsOf s c.rAdm c.size (stepSize s x).2 }
      if x.running || s.pwr.hold || decide (x.marked.length < x.n) then s
      else if !energyFits s (workEnergy s k c) then abandonStep (energyRefused s) i x.k stENERGY false
      else if x.tiles.any (tileTaken s) then preemptRuns s c x.tiles
      else match startOp s k c with
        | none => s
        | some s1 =>
          let s1 := (contribs s1 i x.k).foldl (fun s e => s.setCmd e.1 { e.2 with st := .running, started := true, startedAt := s.now }) s1
          ((x.tiles.map cluOf).eraseDups).foldl cluRun (s1.setSlot i { x with running := true })
/-- OPERATION_START of a contribution: its step starts, or its pre-empted or resumed lead goes on where the tiles are free. -/
def redStart (s : State) (k : Nat) (c : Cmd) : State :=
  if !c.started then tryStep s (c.par 16 2)
  else match s.slot (c.par 16 2) with
    | none => s
    | some x => if c.st == .preempted && x.tiles.any (tileTaken s) then preemptRuns s c x.tiles else (startOp s k c).getD s

/-- CONTRIBUTION_ARRIVE (R246): the deposit of a ready contribution of the current step completes; its index is marked and
ARRIVE counts it. -/
def contributionArrive (s : State) (i index : Nat) : State :=
  match s.slot i with
  | none => s
  | some x =>
    match (contribs s i x.k).find? fun e => e.2.par 18 2 == index && e.2.st == .ready with
    | none => s
    | some (k, c) =>
      if x.marked.contains index || x.running then s
      else
        let s := beginAccess s
        let charged := fun (s : State) => chargeReserved s c.host (depositBytes x (c.par 32 1))
        match deposit { s with mir := { s.mir with cur := if c.mirSeq = 0 then none else some c.mirInt } } x c with
        | (none, s1) =>
          let s1 := { s1 with mir := { s1.mir with cur := none } }
          let first := if x.marked = [] then s.now else x.firstAt
          let c1 := notePoints s1 { c with disputed := s1.mir.saw, color := if c.par 32 1 = 1 then c.color else 1 }
          let s2 := ((charged s1).setCmd k c1).setSlot i { x with marked := index :: x.marked, firstAt := first }
          tryStep (postUpd s2 x.arrive (.signal 1)) i
        | (some d, s1) =>
          let s1 := { s1 with mir := { s1.mir with cur := none } }
          match d.why with
          | .poisoned => abandonStep (charged s1) i x.k stPOISONED false
          | .offline p => abandonStep (if p < 8 then charged s1 else s1) i x.k stOFFLINE false
          | .fault kind => raiseXlt s1 k none d.host d.ra kind d.acc
          | w => stopAt s1 k d.ra d.acc w
def execContributionArrive (slot index : Nat) (s : State) : Host.Outcome State Fault Refusal :=
  onInst (decide (slot < 256)) (contributionArrive s slot index)

/-- Checks of a contribution against its slot (R246): index, step, no second one, CRES for SRC_KIND 2 and 3. -/
def contribOk (s : State) (c : Cmd) : Bool :=
  match s.slot (c.par 16 2) with
  | none => true
  | some x =>
    let step := c.par 20 4
    decide (c.par 18 2 < x.n) && (step == x.k || step == x.k + 1) && (decide (c.par 32 1 ≤ 1) || x.cres)
      && !(contribs s (c.par 16 2) step).any fun e => e.2.par 18 2 == c.par 18 2

/-- Frees a slot and its tiles, ending the contributions that have not started (R251). -/
def freeSlot (s : State) (i : Nat) (x : Slot) : State :=
  let cs := s.store.cmds.filter fun e => opcodeOf e.2.raw == 0x0311 && e.2.par 16 2 == i
  let s := (cs.filter (·.2.st != .finishing)).foldl (fun s e => finish s e.1 stCANCELLED) s
  let s := x.tiles.foldl (fun s n => s.setTile n { s.tile n with slots := (s.tile n).slots.filter (·.1 != 0x10000 + i) }) s
  { s with work := { s.work with slots := tabDel s.work.slots i } }
/-- Completes the close of a slot that no step keeps running. -/
def closeSlot (s : State) (i : Nat) : State :=
  match s.slot i with
  | none => s
  | some x => match x.closing with
    | some k => if x.running then s else settle (finish (freeSlot s i x) k stOK)
    | none => s

/-! ## The step (R248) -/

/-- The spans of granule `g`, of 1,024 elements, in the row at `row`: its elements, and their scales (R202). -/
def granSpans (x : Slot) (row g : Nat) : List (Nat × Nat) :=
  let b := 128 * rowBits x.fmt
  let d := x.l * rowBits x.fmt / 8
  if x.scm = 1 then [(row + b * g, b), (row + d + 32 * g, 32)]
  else [(row + b * g, b), (row + d + 64 * g, 64), (row + roundUp (d + x.l / 16) 4, 4)]
/-- Everything that granule `g` of the current step reads: of every row of DEP, and of the residuals. -/
def granReads (x : Slot) (g : Nat) : List (Nat × Nat) :=
  ((List.range x.n).flatMap fun i => granSpans x (x.dep + i * rowS x) g)
    ++ if x.outRes then [(x.res + (x.k % 2) * 4 * x.l + 4096 * g, 4096)] else []

/-- The values t of 1,024 elements of a step before quantisation, and the saturations of the dequantisation (R248). -/
def stepValues (x : Slot) (rows : List (List Byte)) (res : List Nat) : List Nat × Nat :=
  let deq := rows.map (deqRow x.fmt x.scm 1024)
  let sat := deq.foldl (fun n r => n + (r.filter (·.sat)).length) 0
  let sums := match deq with
    | [] => []
    | r :: t => t.foldl (fun acc row => List.zipWith f32Add acc (row.map (·.code))) (r.map (·.code))
  let u := if (f32 x.mul.toNat).isZero then sums else sums.map (f32Mul · x.mul.toNat)
  (if x.outRes then List.zipWith f32Add u res else u, sat)

/-- What granule `g` gives: the blocks of OUT, the residuals, and the saturations. -/
def granResult (x : Slot) (g : Nat) (read : List (List Byte)) : List QBlock × List Nat × Nat :=
  let parts := if x.scm = 1 then 2 else 3
  let (t, satD) := stepValues x ((blocksOf parts x.n (read.take (parts * x.n))).map List.flatten) (f32List ((read.drop (parts * x.n)).headD []))
  let (q, res) := quantRow x x.ofmt 0 (32 * g) t
  (q, res, satD + q.foldl (fun n b => n + b.sat) 0)

/-- What granule `g` writes: its elements of OUT and its residuals, and with the last granule the scales of the whole row. -/
def granWrites (x : Slot) (g : Nat) (q : List QBlock) (res : List Nat) : List (Nat × List Byte) :=
  let out := x.out + (x.k % 2) * rowO x
  let b := 128 * rowBits x.ofmt
  let d := x.l * rowBits x.ofmt / 8
  let codes := q.flatMap fun e => e.codes.map (· % 2 ^ rowBits x.ofmt)
  [(out + b * g, leBytes b (packElems (rowBits x.ofmt) codes))]
    ++ (if x.outRes then [(x.res + ((x.k + 1) % 2) * 4 * x.l + 4096 * g, f32Bytes res)] else [])
    ++ (if x.l ≤ 1024 * (g + 1) then [(out + d, padTo (rowO x - d) (x.scales ++ q.map fun e => BitVec.ofNat 8 e.scale))] else [])

/-- Bytes of a granule of a step, its scales of OUT included. -/
def granSize (x : Slot) (g : Nat) : Nat :=
  (granReads x g).foldl (fun n e => n + e.2) 0 + 128 * rowBits x.ofmt + 32 + if x.outRes then 4096 else 0

/-- The contributions of a step all stand where their lead does. -/
def spreadLead (s : State) (i step k : Nat) : State :=
  match s.cmd k with
  | none => s
  | some c => (contribs s i step).foldl (fun s e =>
      if e.1 = k then s else s.setCmd e.1 { e.2 with progress := c.progress, disputed := e.2.disputed || c.disputed, points := c.points, color := c.color }) s

/-- GRANULE_COMPLETE of the lead of a running step: the next 1,024 elements (R248). A translation fault suspends the lead, and with it the
step (R99); a poisoned line or an offline partition abandons it (R250). -/
def slotStep (s : State) (k : Nat) : State :=
  match s.cmd k with
  | none => s
  | some c =>
    let i := c.par 16 2
    match s.slot i with
    | none => s
    | some x =>
      if !x.running || (stepLead s i x.k).map (·.1) != some k || decide (x.l / 1024 ≤ c.progress) then s
      else
        let g := c.progress
        let cs := contribs s i x.k
        let fail := fun (s : State) (ra : Nat) (acc : Rights) (w : Acc Unit) => match w with
          | .poisoned => closeSlot (abandonStep (granStart s k (granSize x g)) i x.k stPOISONED false) i
          | .offline p => closeSlot (abandonStep (if p < 8 then granStart s k (granSize x g) else s) i x.k stOFFLINE false) i
          | .fault kind => raiseXlt s k none x.host ra kind acc
          | .refused cause => closeSlot ((cs.foldl (fun s e => lateRefusal s e.1 cause acc ra) s).setSlot i x.rest) i
          | w => stopGran s k ra acc w (granSize x g)
        underSeq { c with mirSeq := cs.foldl (fun m e => max m e.2.mirSeq) 0, mirInt := cs.foldl (fun m e => max m e.2.mirInt) 0 } (fun s =>
          match readMany x.host (granReads x g) s [] with
          | (.stop ra w, s1) => fail s1 ra rRead w
          | (.ok read, s1) =>
            let (q, res, sat) := granResult x g read
            match writeMany s1 x.host (granWrites x g q res) with
            | (.stop ra w, s2) => fail s2 ra rWrite w
            | (.ok (), s2) =>
              let x := { x with scales := x.scales ++ q.map fun e => BitVec.ofNat 8 e.scale
                                poisoned := x.poisoned + (q.filter (·.scale == 255)).length
                                under := x.under + (q.filter fun b => decide (x.ufNum * 32 < b.flush * 16)).length
                                sat := satAdd 32 x.sat sat }
              spreadLead ((granDone s2 k (granSize x g)).setSlot i x) i x.k k) s

def specRedContribute : OpSpec := {
  valid := fun s c => decide (c.par 16 2 < 256) && decide (c.par 32 1 ≤ 3) && zeroB c.raw 33 15 && addrOk (c.par 24 8)
    && (c.par 32 1 != 1 || c.par 24 8 == 0) && contribOk s c
  rights := fun s c => match s.slot (c.par 16 2) with
    | none => some (1, 0, 0)
    | some x => firstRefusal [if c.par 32 1 = 1 then none else rightsAt s c.host (c.par 24 8) rRead,
        rightsAt s c.host (x.dep + c.par 18 2 * rowS x) rWrite]
  admits := fun s c => match s.slot (c.par 16 2) with
    | some x => if x.closing.isSome then some stMALFORMED else none
    | none => none
  size := fun s c => (s.slot (c.par 16 2)).map (stepSize s)
  share := fun s c => ((contribs s (c.par 16 2) (c.par 20 4)).head?).map (·.2)
  total := fun s c => (s.slot (c.par 16 2)).map fun x => x.l / 1024
  step := some slotStep }

/-- Ends a completed step (R247): k advances, then the signal lists, then the replies. -/
def stepDone (s : State) (i : Nat) (x : Slot) : State :=
  let cs := contribs s i x.k
  let s := s.setSlot i { x.rest with k := x.k + 1 }
  let result := x.k % 2 ^ 32 + 2 ^ 32 * x.poisoned + 2 ^ 64 * x.under + 2 ^ 96 * x.sat
  let status := if cs.any (·.2.disputed) then stDISPUTED else stOK
  let s := cs.foldl (fun s e => applySigs s e.2.raw true) s
  settle (cs.foldl (fun s e => finishOne s e.1 status (x.l / 1024) result [] (x.sat == 2 ^ 32 - 1) .normal false) s)

/-- REDUCTION_STEP_COMPLETE (R247): a running step whose granules are all done. -/
def stepComplete (s : State) (i : Nat) : State :=
  match s.slot i with
  | none => s
  | some x =>
    if x.running && (stepLead s i x.k).any (fun e => e.2.st == .running && decide (x.l / 1024 ≤ e.2.progress)) then closeSlot (stepDone s i x) i
    else s
def execReductionStepComplete (slot : Nat) (s : State) : Host.Outcome State Fault Refusal :=
  onInst (decide (slot < 256)) (stepComplete s slot)

/-- STEP_LIMIT_EXPIRY (R250). -/
def execStepLimitExpiry (slot : Nat) (s : State) : Host.Outcome State Fault Refusal :=
  onInst (decide (slot < 256)) (match s.slot slot with
    | some x => if !pairHeld s && !x.running && x.marked != [] && decide (x.marked.length < x.n) && decide (x.firstAt + ms x.limitMs ≤ s.now)
        then abandonStep s slot x.k stWAIT_EXPIRED true else s
    | none => s)

/-! ## Close and query (R251) -/

def slotRightsOf (s : State) (c : Cmd) : Option (Nat × Rights × Nat) :=
  match s.slot (c.par 16 1) with
  | some x => if x.host = c.host then none else some (1, 0, 0)
  | none => some (1, 0, 0)

def redCloseAct (s : State) (k : Nat) : State :=
  match s.cmd k with
  | none => s
  | some c => match s.slot (c.par 16 1) with
    | none => settle (finish s k stMALFORMED)
    | some x =>
      if x.closing.isSome then settle (finish s k stMALFORMED)
      else tellAccepted (closeSlot ((s.setCmd k { c with st := .finishing }).setSlot (c.par 16 1) { x with closing := some k }) (c.par 16 1)) k
def redQueryAct (s : State) (k : Nat) : State :=
  match s.cmd k with
  | none => s
  | some c => match s.slot (c.par 16 1) with
    | none => settle (finish s k stMALFORMED)
    | some x =>
      let st := if x.running then 3 else if x.marked = [] then 1 else 2
      settle (finish s k stOK 0 (x.k % 2 ^ 32 + 2 ^ 32 * x.marked.length + 2 ^ 64 * st))

def specRedSlotClose : OpSpec := { valid := fun _ c => zeroB c.raw 17 31, rights := slotRightsOf, act := redCloseAct }
def specRedSlotQuery : OpSpec := { valid := fun _ c => zeroB c.raw 17 31, rights := slotRightsOf, act := redQueryAct }

def execRedSlotOpen (c : CmdIn) (s : State) : Host.Outcome State Fault Refusal :=
  done (receive s (some specRedSlotOpen) (withOpcode c 0x0310))
def execRedContribute (c : CmdIn) (s : State) : Host.Outcome State Fault Refusal :=
  done (receive s (some specRedContribute) (withOpcode c 0x0311))
def execRedSlotClose (c : CmdIn) (s : State) : Host.Outcome State Fault Refusal :=
  done (receive s (some specRedSlotClose) (withOpcode c 0x0312))
def execRedSlotQuery (c : CmdIn) (s : State) : Host.Outcome State Fault Refusal :=
  done (receive s (some specRedSlotQuery) (withOpcode c 0x0313))

end Sys2Proof.Machine
end

