-- ==== Sys2Proof/Machine/CohCmds.lean ====
section
/-! DEFINITION. Coherence messages of agents, their timers, and the window commands (R297-R310). -/
namespace Sys2Proof.Machine

/-! ## Tokens and the order of a line (R298, R302) -/

/-- Does a request with the token wait at a memory stop? -/
def tokQueued (s : State) (wi v : Nat) : Bool := (queuedCoh s wi).any (·.token == v)
/-- Is the token valid for this agent and line: not expired, or already waiting with its request? -/
def CohTok.live (s : State) (w : Window) (wi : Nat) (t : CohTok) : Bool :=
  decide (s.now < t.expiry) || w.waits.any (·.token == t.value) || tokQueued s wi t.value

/-- The waiting request that the line may accept next: its token is the line's earliest. -/
def nextWait (s : State) (w : Window) (wi line : Nat) : Option CohWait :=
  match w.tokens.find? fun t => t.line == line && t.live s w wi with
  | some t => w.waits.find? fun x => x.token == t.value
  | none => none

/-- Drops a token and the request that waits with it. -/
def dropTok (s : State) (wi v : Nat) : State :=
  let w := s.win wi
  s.setWin wi { w with tokens := w.tokens.filter (·.value != v), waits := w.waits.filter (·.token != v) }

/-- Accepts the requests that wait for the line while it has no open transaction; `fuel` bounds them. -/
def drainLine (wi line : Nat) : Nat → State → State
  | 0, s => s
  | fuel + 1, s =>
    let w := s.win wi
    if w.state != 1 || (tabFind w.trans line).isSome then s
    else match nextWait s w wi line with
      | some x => drainLine wi line fuel (acceptReq (dropTok s wi x.token) wi line x.agent x.code x.txn)
      | none => s

/-- Answers RETRY with a token that reserves a place where one is free (R302). -/
def cohRetry (s : State) (wi : Nat) (m : CohMsg) (reserve : Bool) (keep : Nat) : State :=
  let w := s.win wi
  let live := (w.tokens.filter fun t => t.live s w wi).length
  if reserve && decide (live < 1024) then
    let v := unusedToken (w.tokens.map (·.value)) (s.fresh 16).toNat
    let s := (s.setWin wi { w with tokens := w.tokens ++ [{ value := v, agent := m.agent, line := m.line, expiry := s.now + ms 1 }] }).bump
    cntRetry (sendCoh s wi 0xE m.agent m.line m.txn v none false) wi
  else cntRetry (sendCoh s wi 0xE m.agent m.line m.txn keep none false) wi

/-! ## Closing (R309) -/

/-- Sends the invalidations of a close for one line whose entry is not UNCACHED. -/
def closeLine (s : State) (wi line : Nat) : State :=
  let w := s.win wi
  if w.state != 2 || (tabFind w.trans line).isSome then s
  else match dirRead s w line with
    | (none, s1) => windowDown s1 wi 3
    | (some e, s1) =>
      let who := if e.st = 3 then List.range w.agents.length else if e.st = 0 then [] else e.ptrs
      if who = [] then s1
      else
        let t : Trans := { agent := 64, code := 0, txn := 0, snoops := who.map fun a => { agent := a, inv := true, at_ := s1.now } }
        let s2 := s1.setWin wi { w with trans := tabIns w.trans line t }
        who.foldl (fun s a => cntSnoop (sendCoh s wi 0xD a line 0 0 none false) wi) s2

/-- The lines whose directory entry may differ from UNCACHED: those with a byte or an error listed in DIR. -/
def dirLines (s : State) (w : Window) : List Nat :=
  let a := s.mem.bytes.filterMap fun e => (extOff w.dirExt (heldAt s e.1)).map (· / 4)
  let b := (s.mem.err.filterMap fun e => extOff w.dirExt (heldAt s (64 * e.1))).flatMap fun o => (List.range 16).map fun i => o / 4 + i
  (a ++ b).eraseDups

/-! ## The end of a transaction -/

/-- All snoops of a line are answered: the request is served, and the line goes on to what waits for it. -/
def completeTrans (s : State) (wi line : Nat) (t : Trans) : State :=
  let w := s.win wi
  let s := s.setWin wi { w with trans := tabDel w.trans line }
  if t.code = 0 then dirWrite s w line { st := 0, ptrs := [] }
  else match dirRead s w line with
    | (none, s1) => windowDown s1 wi 3
    | (some e, s1) =>
      let s2 := serveReq s1 wi line t e
      if (s2.win wi).state = 2 then closeLine s2 wi line else drainLine wi line ((s2.win wi).waits.length + 1) s2

/-- Takes the answer of a snoop; with the last, the transaction ends. -/
def dropSnoop (s : State) (wi line agent : Nat) (acked : Bool) : State :=
  let w := s.win wi
  match tabFind w.trans line with
  | none => s
  | some t =>
    let t := { t with snoops := t.snoops.filter (·.agent != agent), acked := if acked then agent :: t.acked else t.acked }
    if t.snoops = [] then completeTrans s wi line t else s.setWin wi { w with trans := tabIns w.trans line t }

/-- Is a snoop to the agent outstanding for the line? -/
def snooped (w : Window) (line agent : Nat) : Bool := match tabFind w.trans line with
  | some t => t.snoops.any (·.agent == agent)
  | none => false

/-! ## Messages -/

/-- The host identity that an agent's traffic is charged to. -/
def agentHost (s : State) (w : Window) (agent : Nat) : Nat :=
  (match w.agents[agent]? with
    | some r => (s.rankE r).map fun (x : RankE) => x.host
    | none => none).getD 0

/-- Is the message from an agent listed in the window, as the rank listed? -/
def agentListed (w : Window) (m : CohMsg) : Bool := w.agents[m.agent]? == some m.rank

/-- Status DOWN to the sender of a message. -/
def answerDown (s : State) (m : CohMsg) : State :=
  s.sendPkt { ty := 4, rank := m.rank, ptype := 6, tc := 3, txn := 0, body := cohBytes 0xF m.win m.agent m.line m.txn 0 none false }

/-- The token of a request where it is valid (R302): it names the agent and the line, and comes in time for the first time. -/
def cohTok (s : State) (m : CohMsg) : Bool :=
  let w := s.win m.win
  m.token != 0 && !w.waits.any (·.token == m.token) && !tokQueued s m.win m.token && w.tokens.any fun t =>
    t.value == m.token && t.agent == m.agent && t.line == m.line && decide (s.now < t.expiry)

/-- A request of an agent at the arbiter (R298, R302): one with a token (`tok`) takes its place in the line's order; another is accepted
where the line has no open transaction. -/
def cohGo (s : State) (code : Nat) (m : CohMsg) (tok : Bool) : State :=
  let w := s.win m.win
  if w.state != 1 then answerDown s m
  else if tok then
    let s := s.setWin m.win { w with waits := w.waits ++ [{ token := m.token, code := code, agent := m.agent, line := m.line, txn := m.txn }] }
    settle (drainLine m.win m.line (w.waits.length + 1) s)
  else if (tabFind w.trans m.line).isSome then cohRetry s m.win m true 0
  else settle (acceptReq s m.win m.line m.agent code m.txn)

/-- A request of an agent: RD_S (1), RD_X (2) or UPG (3) (R298, R299, R302, R303). It is an item of TC3 at the memory stop of its line
(R138, R140): served at once where it is green, nothing waits there and no gate holds the line (R104). -/
def cohRequest (s : State) (code : Nat) (m : CohMsg) : State :=
  let w := s.win m.win
  if pairHeld s then s
  else if w.state != 1 || !agentListed w m then answerDown s m
  else if w.len / 64 ≤ m.line then settle (windowDown s m.win 2)
  else
    let (col, s) := chargeItem s (agentHost s w m.agent) 64
    let tok := cohTok s m
    let a := winLine w m.line
    let pt := 10 * ppaPart a + stopOf s a
    if col = 3 then cohRetry s m.win m false (if tok then m.token else 0)
    else if col = 1 && (s.point pt).items.isEmpty && !gated s a then cohGo s code m tok
    else enqueueItem s pt { tc := 3, color := col, bytes := 64, f := 0, since := s.now, work := .coh code { m with token := if tok then m.token else 0 }
                            tag := BitVec.ofNat 32 m.txn, src := BitVec.ofNat 32 (2 ^ 20 + m.rank), elig := 0 }

/-- Writes the line of a message to the span; POISON makes it a poisoned line. -/
def cohWrite (s : State) (w : Window) (m : CohMsg) : State :=
  let a := winLine w m.line
  let s := if m.poison then poisonLine s a else writeLine s a (leBytes 64 m.data.toNat)
  if s.mir.state = 1 && s.mir.inStep then
    sendMir s (mirHead 2 4 ++ leBytes 8 8 ++ leBytes 8 0
      ++ leBytes 8 (m.win + 2 ^ 6 * m.agent + 2 ^ 12 * (m.txn % 4096) + 2 ^ 24 * m.line))
  else s

/-- A standby keeps its copy of a data message until the active's event names it (R394, R399). -/
def cohHold (s : State) (m : CohMsg) (wb : Bool) : State := { s with mir := { s.mir with cohCopies := s.mir.cohCopies ++ [(m, wb)] } }

/-- A write-back (R299, R300): the data of an outstanding snoop, or the owner's line. -/
def cohWb (s : State) (m : CohMsg) : State :=
  let w := s.win m.win
  if pairHeld s then cohHold s m true
  else if (w.state != 1 && w.state != 2) || !agentListed w m then answerDown s m
  else if w.len / 64 ≤ m.line then settle (windowDown s m.win 2)
  else
    let s := chargeReserved s (agentHost s w m.agent) 64
    let ack := fun s => sendCoh s m.win 0xB m.agent m.line m.txn 0 none false
    let count := fun (s : State) => let w := s.win m.win
      s.setWin m.win { w with wrote := if w.state = 2 then w.wrote + 1 else w.wrote }
    if snooped w m.line m.agent then
      let s := ack (count (cohWrite s w m))
      let s := s.setWin m.win { s.win m.win with discards := (s.win m.win).discards ++ [(m.line, m.agent)] }
      settle (dropSnoop s m.win m.line m.agent false)
    else match dirRead s w m.line with
      | (none, s1) => settle (windowDown s1 m.win 3)
      | (some e, s1) =>
        if e.st = 2 && e.ptrs == [m.agent] then
          settle (dirWrite (ack (count (cohWrite s1 w m))) w m.line { st := 0, ptrs := [] })
        else settle (windowDown s1 m.win 2)

/-- A snoop answer (R299, R300, R304): without an outstanding snoop it is a protocol error. `data` is RSP_DATA. -/
def cohAnswer (s : State) (m : CohMsg) (np data : Bool) : State :=
  let w := s.win m.win
  if pairHeld s then (if data then cohHold s m false else s)
  else if (w.state != 1 && w.state != 2) || !agentListed w m then s
  else
    let s := chargeReserved s (agentHost s w m.agent) 64
    if np && w.discards.contains (m.line, m.agent) then s.setWin m.win { w with discards := w.discards.erase (m.line, m.agent) }
    else if !snooped w m.line m.agent then settle (windowDown s m.win 2)
    else
      let s := if data then
          let s := cohWrite s w m
          s.setWin m.win { s.win m.win with wrote := if w.state = 2 then w.wrote + 1 else w.wrote }
        else s
      settle (dropSnoop s m.win m.line m.agent (!np))

def cohInst (m : CohMsg) (s : State) : Host.Outcome State Fault Refusal := onInst (decide (m.win < 64)) s

/-- RD_S, RD_X, UPG, WB and the snoop answers (R299, R300). -/
def execRdS (m : CohMsg) (s : State) : Host.Outcome State Fault Refusal := cohInst m (cohRequest s 1 m)
def execRdX (m : CohMsg) (s : State) : Host.Outcome State Fault Refusal := cohInst m (cohRequest s 2 m)
def execUpg (m : CohMsg) (s : State) : Host.Outcome State Fault Refusal := cohInst m (cohRequest s 3 m)
def execWb (m : CohMsg) (s : State) : Host.Outcome State Fault Refusal := cohInst m (cohWb s m)
def execRspNp (m : CohMsg) (s : State) : Host.Outcome State Fault Refusal := cohInst m (cohAnswer s m true false)
def execRspAck (m : CohMsg) (s : State) : Host.Outcome State Fault Refusal := cohInst m (cohAnswer s m false false)
def execRspData (m : CohMsg) (s : State) : Host.Outcome State Fault Refusal := cohInst m (cohAnswer s m false true)

/-- SNOOP_TIMEOUT (R304, R309): an open window goes down; a close goes on without that line's data. -/
def snoopTimeout (s : State) (wi line agent : Nat) : State :=
  let w := s.win wi
  let due := match tabFind w.trans line with
    | some t => t.snoops.any fun x => x.agent == agent && decide (x.at_ + us w.snoopUs ≤ s.now)
    | none => false
  if !due then s
  else if w.state = 2 then settle (dropSnoop s wi line agent false)
  else settle (windowDown s wi 1)
def execSnoopTimeout (win line agent : Nat) (s : State) : Host.Outcome State Fault Refusal :=
  onInst (decide (win < 64)) (snoopTimeout s win line agent)

/-- COH_TOKEN_EXPIRY (R302): a token ends 1 ms after its RETRY, unless its request already waits. -/
def cohTokenExpiry (s : State) (wi v : Nat) : State :=
  let w := s.win wi
  match w.tokens.find? fun t => t.value == v && decide (t.expiry ≤ s.now) && !t.live s w wi with
  | some t => settle (drainLine wi t.line (w.waits.length + 1) (dropTok s wi v))
  | none => s
def execCohTokenExpiry (win token : Nat) (s : State) : Host.Outcome State Fault Refusal :=
  onInst (decide (win < 64)) (cohTokenExpiry s win token)

/-! ## Window commands (R307-R310) -/

def winAgents (c : Cmd) : List Nat := (List.range (c.par 24 1)).map fun a => c.par (64 + 4 * a) 4
def winSnoopUs (c : Cmd) : Nat := if c.par 28 4 = 0 then 100 else c.par 28 4

/-- The rights of R308: opener on the span and DIR, every agent's host identity on the range of the span. -/
def winRights (s : State) (host base len dir : Nat) (agents : List Nat) : Option (Nat × Rights × Nat) :=
  let rw := rRead ||| rWrite
  let agentOk : Nat → Option (Nat × Rights × Nat) := fun r => match s.rankE r with
    | none => some (7, rw, base)
    | some x => match checkRa s host base 0 with
      | .ok _ rid => match s.range rid with
        | some e => if (s.host x.host).isSome && rw &&& grantRights s.iso.grantsA x.host rid &&& e.ceil == rw then none else some (1, rw, base)
        | none => none
      | _ => none
  firstRefusal ([spanRights host rw s base len, spanRights host rw s dir (len / 16)] ++ agents.map agentOk)

/-- The cases of R308 that depend on the directory and the windows, judged where the accesses to the first bytes are permitted: span and DIR
in one range each, DIR in cream, and no overlap. -/
def winPlaceOk (s : State) (c : Cmd) : Bool :=
  let base := c.par 0 8
  let len := c.par 8 8
  let dir := c.par 16 8
  let rw := rRead ||| rWrite
  let apart := fun (l m : List (Nat × Nat)) => l.all fun x => m.all fun y => disjointSpans x.1 x.2 y.1 y.2
  match checkRa s c.host base rw, checkRa s c.host dir rw with
  | .ok _ _, .ok d _ =>
    let span := spanExts s c.host base len
    oneRange s c.host base len && oneRange s c.host dir (len / 16) && ppaCream d && apart span (spanExts s c.host dir (len / 16))
      && s.coh.wins.all fun w => w.2.state == 0 || apart span w.2.ext
  | _, _ => true

/-- The lowest free window. -/
def freeWindow (s : State) : Option Nat := (List.range 64).find? fun i => (s.win i).state == 0
/-- Is a range in a move or gated? A window or galley is not opened over it until that has ended (log 44). -/
def unsettledRange (s : State) (rid : Nat) : Bool := match s.range rid with
  | some e => e.migrating || e.gated
  | none => false

/-- WIN_OPEN (R308): the directory is written as UNCACHED, and the window opens over the translations of this moment (R293). -/
def winOpenAct (s : State) (k : Nat) : State :=
  match s.cmd k with
  | none => s
  | some c =>
    let rw := rRead ||| rWrite
    match checkRa s c.host (c.par 0 8) rw, checkRa s c.host (c.par 16 8) rw with
    | .ok p r, .ok d q => match freeWindow s with
      | none => settle (finish s k stRESOURCES)
      | some i =>
        if unsettledRange s r || unsettledRange s q then s.setCmd k { c with st := .ready }
        else if !winPlaceOk s c then settle (finish s k stMALFORMED)
        else if !tierUp s (ppaCream p) (ppaPart p) || !tierUp s true (ppaPart d) then settle (finish s k stOFFLINE)
        else
          let w : Window := { host := c.host, base := c.par 0 8, ext := spanExts s c.host (c.par 0 8) (c.par 8 8), len := c.par 8 8
                              dirRa := c.par 16 8, dirExt := spanExts s c.host (c.par 16 8) (c.par 8 8 / 16)
                              agents := winAgents c, snoopUs := winSnoopUs c, state := 1 }
          let s := granStart (beginAccess s) k (c.par 8 8 / 16)
          settle (finish (repin ((dirClear s w).setWin i w)) k stOK 0 i)
    | .ok _ _, w => stopAt s k (c.par 16 8) rw w.why
    | w, _ => stopAt s k (c.par 0 8) rw w.why

def specWinOpen : OpSpec := {
  form := .desc [320]
  valid := fun s c =>
    let n := c.par 24 1
    let len := c.par 8 8
    c.par 0 8 % 4096 == 0 && len % 4096 == 0 && decide (4096 ≤ len) && decide (len ≤ 64 * gib) && c.par 16 8 % 4096 == 0
      && decide (c.par 0 8 + len ≤ 2 ^ 52) && decide (c.par 16 8 + len / 16 ≤ 2 ^ 52)
      && decide (1 ≤ n) && decide (n ≤ 64) && c.par 25 3 == 0 && leNat ((c.desc.drop 32).take 32) == 0
      && (c.par 28 4 == 0 || (decide (10 ≤ c.par 28 4) && decide (c.par 28 4 ≤ 10000)))
      && (winAgents c).all (fun r => decide (r < 2 ^ 20)) && leNat (c.desc.drop (64 + 4 * n)) == 0
      && (winAgents c).eraseDups.length == n && winPlaceOk s c
  rights := fun s c => winRights s c.host (c.par 0 8) (c.par 8 8) (c.par 16 8) (winAgents c)
  admits := fun s _ => if (freeWindow s).isSome then none else some stRESOURCES
  size := fun s c => some (c.par 8 8 / 16, [spanSlices s c.host (c.par 16 8) (c.par 8 8 / 16)])
  act := winOpenAct }

/-- Step 5 of a command that names a window: not free, and opened by the issuer (R307). -/
def winOwner (s : State) (c : Cmd) : Option (Nat × Rights × Nat) :=
  let w := s.win (c.par 16 1)
  if c.par 16 1 < 64 && w.state != 0 && w.host == c.host then none else some (1, 0, 0)

/-- WIN_CLOSE (R309): CLOSING, and an invalidation for every line that may be held. -/
def winCloseAct (s : State) (k : Nat) : State :=
  match s.cmd k with
  | none => s
  | some c =>
    let wi := c.par 16 1
    let w := s.win wi
    if w.state = 0 || w.state = 2 then settle (finish s k stMALFORMED)
    else if w.state = 3 then settle (finish (freeWin s wi) k stOK)
    else
      let s := (granStart (beginAccess s) k (w.len / 16)).setCmd k { c with st := .finishing, color := 1 }
      let s := downQueued (w.waits.foldl (fun s x => sendCoh s wi 0xF x.agent x.line x.txn 0 none false) s) wi
      let s := s.setWin wi { w with state := 2, closeKey := some k, wrote := 0, tokens := [], waits := [] }
      settle ((dirLines s w).foldl (fun s l => closeLine s wi l) s)

/-- S of WIN_OPEN and WIN_REOPEN is LEN ÷ 16, that of WIN_CLOSE LEN ÷ 16 + LEN (R307). -/
def winSize (s : State) (c : Cmd) (span : Bool) : Option (Nat × List (List (Nat × Nat))) :=
  let w := s.win (c.par 16 1)
  let ops := [[(sliceOf (extAt w.dirExt 0), w.len / 16)]] ++ if span then [[(sliceOf (winLine w 0), w.len)]] else []
  some (w.len / 16 + (if span then w.len else 0), ops)

def specWinClose : OpSpec := {
  valid := fun _ c => zeroB c.raw 17 31
  rights := winOwner
  size := fun s c => winSize s c true
  act := winCloseAct }

/-- WIN_REOPEN (R310). -/
def winReopenAct (s : State) (k : Nat) : State :=
  match s.cmd k with
  | none => s
  | some c =>
    let w := s.win (c.par 16 1)
    if w.state != 3 then settle (finish s k stMALFORMED)
    else if (w.ext ++ w.dirExt).any fun e => !tierUp s (ppaCream e.1) (ppaPart e.1) then settle (finish s k stOFFLINE)
    else
      let s := granStart (beginAccess s) k (w.len / 16)
      settle (finish ((dirClear s w).setWin (c.par 16 1) { w with state := 1 }) k stOK)
def specWinReopen : OpSpec := {
  valid := fun _ c => zeroB c.raw 17 31
  rights := fun s c =>
    let w := s.win (c.par 16 1)
    firstRefusal [winOwner s c, if w.state = 3 then winRights s w.host w.base w.len w.dirRa w.agents else none]
  admits := fun s c => if (s.win (c.par 16 1)).state = 3 then none else some stMALFORMED
  size := fun s c => winSize s c false
  act := winReopenAct }

def liveTokens (s : State) (w : Window) (wi : Nat) : Nat := (w.tokens.filter fun t => t.live s w wi).length

def winQueryAct (s : State) (k : Nat) : State :=
  match s.cmd k with
  | none => s
  | some c =>
    let w := s.win (c.par 16 1)
    settle (finish s k stOK 0 (w.state + 2 ^ 8 * w.cause + 2 ^ 16 * w.agents.length + 2 ^ 32 * liveTokens s w (c.par 16 1)))
def specWinQuery : OpSpec := { valid := fun _ c => zeroB c.raw 17 31, rights := winOwner, act := winQueryAct }

def execWinOpen (c : CmdIn) (s : State) : Host.Outcome State Fault Refusal :=
  done (receive s (some specWinOpen) (withOpcode c 0x0700))
def execWinClose (c : CmdIn) (s : State) : Host.Outcome State Fault Refusal :=
  done (receive s (some specWinClose) (withOpcode c 0x0701))
def execWinReopen (c : CmdIn) (s : State) : Host.Outcome State Fault Refusal :=
  done (receive s (some specWinReopen) (withOpcode c 0x0702))
def execWinQuery (c : CmdIn) (s : State) : Host.Outcome State Fault Refusal :=
  done (receive s (some specWinQuery) (withOpcode c 0x0703))

end Sys2Proof.Machine
end

