-- ==== Sys2Proof/Machine/TileCtl.lean ====
section
/-! DEFINITION. Churn instructions: control, scalar, scratch, stream DMA and synchronisation (R160, R169, R174-R176), and the row
NOP, which is also the hardware opcode (R57). -/
namespace Sys2Proof.Machine

/-- NOP (R57, R160). -/
def execNop (k : NopKind) (s : State) : Host.Outcome State Fault Refusal :=
  match k with
  | .cmd c => done (receive s (some specNop) (withOpcode c 0x0100))
  | .tile n i => issueReg n 0x00 i id s

/-- HALT (R176). -/
def execHalt (n : Nat) (i : TI) (s : State) : Host.Outcome State Fault Refusal :=
  issue n 0x01 i (fun s => settle (wakeDma (s.setTile n { s.tile n with st := .inHalt }) n)) s
/-- TRAP (R160, R178). -/
def execTrap (n : Nat) (i : TI) (s : State) : Host.Outcome State Fault Refusal :=
  issue n 0x02 i (fun s => settle (trapTile s n 1 (immBits i 15 0))) s
/-- BR (R160). -/
def execBr (n : Nat) (i : TI) (s : State) : Host.Outcome State Fault Refusal :=
  issue n 0x03 i (fun s => s.setTile n ((s.tile n).jump (immBits i 9 0))) s

/-- The condition of BCC (R160). -/
def bccHolds (cond : Nat) (x y : W64) : Bool :=
  match cond with
  | 0 => x == y
  | 1 => x != y
  | 2 => x.ult y
  | 3 => !x.ult y
  | 4 => x.slt y
  | _ => !x.slt y

/-- BCC (R160). -/
def execBcc (n : Nat) (i : TI) (s : State) : Host.Outcome State Fault Refusal :=
  issue n 0x04 i (fun s =>
    let t := s.tile n
    s.setTile n (if bccHolds (immBits i 18 16) (t.S i.a) (t.S i.b) then t.jump (immBits i 9 0) else t.next)) s
/-- LSETI (R160). -/
def execLseti (n : Nat) (i : TI) (s : State) : Host.Outcome State Fault Refusal :=
  issueReg n 0x05 i (fun t => t.setL i.d i.imm) s
/-- LSET (R160). -/
def execLset (n : Nat) (i : TI) (s : State) : Host.Outcome State Fault Refusal :=
  issueReg n 0x06 i (fun t => t.setL i.d ((t.S i.a).setWidth 32)) s
/-- LOOP (R160): a counter at 0 stays 0 and does not branch. -/
def execLoop (n : Nat) (i : TI) (s : State) : Host.Outcome State Fault Refusal :=
  issue n 0x07 i (fun s =>
    let t := s.tile n
    s.setTile n (
      if t.L i.d = 0 then t.next
      else if t.L i.d = 1 then (t.setL i.d 0).next
      else (t.setL i.d (t.L i.d - 1)).jump (immBits i 9 0))) s
/-- GRAN (R175): with a stop request the tile stops once its engines are drained; its granule is counted first. -/
def execGran (n : Nat) (i : TI) (s : State) : Host.Outcome State Fault Refusal :=
  issue n 0x08 i (fun s =>
    let t := { s.tile n with grans := (s.tile n).grans + 1 }
    if t.stopReq then settle (wakeDma (s.setTile n { t with st := .inGran }) n) else s.setTile n t.next) s

/-! ## Scalar -/

/-- SADD (R160). -/
def execSadd (n : Nat) (i : TI) (s : State) : Host.Outcome State Fault Refusal :=
  issueReg n 0x10 i (fun t => t.setS i.d (t.S i.a + t.S i.b)) s
/-- SSUB (R160). -/
def execSsub (n : Nat) (i : TI) (s : State) : Host.Outcome State Fault Refusal :=
  issueReg n 0x11 i (fun t => t.setS i.d (t.S i.a - t.S i.b)) s
/-- SMUL (R160): the low product. -/
def execSmul (n : Nat) (i : TI) (s : State) : Host.Outcome State Fault Refusal :=
  issueReg n 0x12 i (fun t => t.setS i.d (t.S i.a * t.S i.b)) s
/-- SAND (R160). -/
def execSand (n : Nat) (i : TI) (s : State) : Host.Outcome State Fault Refusal :=
  issueReg n 0x13 i (fun t => t.setS i.d (t.S i.a &&& t.S i.b)) s
/-- SOR (R160). -/
def execSor (n : Nat) (i : TI) (s : State) : Host.Outcome State Fault Refusal :=
  issueReg n 0x14 i (fun t => t.setS i.d (t.S i.a ||| t.S i.b)) s
/-- SXOR (R160). -/
def execSxor (n : Nat) (i : TI) (s : State) : Host.Outcome State Fault Refusal :=
  issueReg n 0x15 i (fun t => t.setS i.d (t.S i.a ^^^ t.S i.b)) s
/-- SADDI (R160). -/
def execSaddi (n : Nat) (i : TI) (s : State) : Host.Outcome State Fault Refusal :=
  issueReg n 0x16 i (fun t => t.setS i.d (t.S i.a + sext i)) s
/-- SSHL (R160). -/
def execSshl (n : Nat) (i : TI) (s : State) : Host.Outcome State Fault Refusal :=
  issueReg n 0x17 i (fun t => t.setS i.d (t.S i.a <<< immBits i 5 0)) s
/-- SSHR (R160). -/
def execSshr (n : Nat) (i : TI) (s : State) : Host.Outcome State Fault Refusal :=
  issueReg n 0x18 i (fun t => t.setS i.d (t.S i.a >>> immBits i 5 0)) s
/-- SSRA (R160). -/
def execSsra (n : Nat) (i : TI) (s : State) : Host.Outcome State Fault Refusal :=
  issueReg n 0x19 i (fun t => t.setS i.d ((t.S i.a).sshiftRight (immBits i 5 0))) s
/-- SMOVI (R160). -/
def execSmovi (n : Nat) (i : TI) (s : State) : Host.Outcome State Fault Refusal :=
  issueReg n 0x1A i (fun t => t.setS i.d (sext i)) s
/-- SMOVHI (R160): bits [31:0] unchanged. -/
def execSmovhi (n : Nat) (i : TI) (s : State) : Host.Outcome State Fault Refusal :=
  issueReg n 0x1B i (fun t => t.setS i.d (i.imm ++ (t.S i.d).setWidth 32)) s

/-- The value of a GETS selector (R157). -/
def getsValue (s : State) (n sel : Nat) : Nat :=
  let t := s.tile n
  match runOf s n with
  | none => 0
  | some (_, c) =>
    match sel with
    | 0 => t.logical
    | 1 => (runTiles s c).length
    | 2 => n
    | 3 => c.runArg 0
    | 4 => c.runArg 1
    | 5 => c.runArg 2
    | 6 => c.runArg 3
    | 7 => c.opState
    | 8 => tileCycles s n
    | 9 => t.lfsr.toNat
    | 10 => t.satc
    | _ => t.flc
/-- GETS (R157). -/
def execGets (n : Nat) (i : TI) (s : State) : Host.Outcome State Fault Refusal :=
  issue n 0x1C i (fun s =>
    s.setTile n ((s.tile n).setS i.d (BitVec.ofNat 64 (getsValue s n (immBits i 3 0)))).next) s

/-! ## Scratch loads and stores (R162, R178) -/

/-- The single-bit errors among the scratch words that an access reads are corrected, written back and counted (R155). -/
def mendScratch (s : State) (n a w : Nat) : State :=
  (scratchSingles (s.tile n) a w).foldl (fun s e =>
    let t := s.tile n
    corrected (cluCe (s.setTile n { t with scratchErr := tabDel t.scratchErr e.1 }) (cluOf n) false) (unitOf 3 n) 2 (flipAt e.2)
      (BitVec.ofNat 64 (8 * e.1))) s

/-- A load of `w` bytes: a bad address traps OPERAND, a bad word SCRATCH_UE. -/
def scratchLoad (n : Nat) (i : TI) (w : Nat) (put : Tile → Nat → Tile) (s : State) : State :=
  let t := s.tile n
  match scratchAddr t i w with
  | none => settle (trapTile s n 2 0)
  | some o =>
    if scratchBad t (t.scrAt + o) w then settle (trapTile s n 4 0 (BitVec.ofNat 64 o))
    else
      let s := mendScratch s n (t.scrAt + o) w
      s.setTile n (put (s.tile n) (scratchGet t o w)).next
/-- A store of `w` bytes. -/
def scratchStore (n : Nat) (i : TI) (w : Nat) (get : Tile → Nat) (s : State) : State :=
  let t := s.tile n
  match scratchAddr t i w with
  | none => settle (trapTile s n 2 0)
  | some o => s.setTile n (scratchPut t o w (get t)).next

/-- VLD (R160). -/
def execVld (n : Nat) (i : TI) (s : State) : Host.Outcome State Fault Refusal :=
  issue n 0x20 i (scratchLoad n i 64 fun t x => t.setV i.d (BitVec.ofNat 512 x)) s
/-- VST (R160). -/
def execVst (n : Nat) (i : TI) (s : State) : Host.Outcome State Fault Refusal :=
  issue n 0x21 i (scratchStore n i 64 fun t => (t.V i.d).toNat) s
/-- ALD (R160). -/
def execAld (n : Nat) (i : TI) (s : State) : Host.Outcome State Fault Refusal :=
  issue n 0x22 i (scratchLoad n i 64 fun t x => t.setA i.d (BitVec.ofNat 512 x)) s
/-- AST (R160). -/
def execAst (n : Nat) (i : TI) (s : State) : Host.Outcome State Fault Refusal :=
  issue n 0x23 i (scratchStore n i 64 fun t => (t.A i.d).toNat) s
/-- SLD (R160). -/
def execSld (n : Nat) (i : TI) (s : State) : Host.Outcome State Fault Refusal :=
  issue n 0x24 i (scratchLoad n i 8 fun t x => t.setS i.d (BitVec.ofNat 64 x)) s
/-- SST (R160). -/
def execSst (n : Nat) (i : TI) (s : State) : Host.Outcome State Fault Refusal :=
  issue n 0x25 i (scratchStore n i 8 fun t => (t.S i.d).toNat) s

/-! ## Stream DMA and synchronisation (R169-R174) -/

/-- DLD and DST queue a transfer; with 8 queued they stall; bad operands trap OPERAND (R169). -/
def queueXfer (n : Nat) (i : TI) (load : Bool) (s : State) : State :=
  let t := s.tile n
  match xferOf t i load with
  | none => settle (trapTile s n 2 0)
  | some x =>
    let e := immBits i 8 8 == 1
    if 8 ≤ (t.eng e).queue.length then s
    else s.setTile n (t.setEng e { t.eng e with queue := (t.eng e).queue ++ [x] }).next
/-- DLD (R169). -/
def execDld (n : Nat) (i : TI) (s : State) : Host.Outcome State Fault Refusal := issue n 0x30 i (queueXfer n i true) s
/-- DST (R169). -/
def execDst (n : Nat) (i : TI) (s : State) : Host.Outcome State Fault Refusal := issue n 0x31 i (queueXfer n i false) s
/-- DWAIT (R171, R173). -/
def execDwait (n : Nat) (i : TI) (s : State) : Host.Outcome State Fault Refusal :=
  issue n 0x32 i (fun s =>
    settle (wakeDma (s.setTile n { s.tile n with st := .inDwait (immBits i 8 8 == 1) (immBits i 3 0) }) n)) s
/-- SWAIT (R174). -/
def execSwait (n : Nat) (i : TI) (s : State) : Host.Outcome State Fault Refusal :=
  issue n 0x78 i (fun s =>
    let s := foldCycles s n
    settle (s.setTile n { s.tile n with st := .inSwait (immBits i 3 0) (immBits i 5 4) s.now })) s
/-- SSIG (R174, R229). -/
def execSsig (n : Nat) (i : TI) (s : State) : Host.Outcome State Fault Refusal :=
  issue n 0x79 i (fun s =>
    match runOf s n with
    | none => s
    | some (_, c) =>
      let v : W64 := if immBits i 5 5 = 1 then (s.tile n).S i.a else 1
      postUpd (s.setTile n (s.tile n).next) (c.runSync (immBits i 3 0)) (.signal v)) s
/-- SREAD (R174). -/
def execSread (n : Nat) (i : TI) (s : State) : Host.Outcome State Fault Refusal :=
  issue n 0x7A i (fun s =>
    match runOf s n with
    | none => s
    | some (_, c) => s.setTile n ((s.tile n).setS i.d (s.obj (c.runSync (immBits i 3 0))).count).next) s

end Sys2Proof.Machine
end

