-- ==== Sys2Proof/Machine/Dma.lean ====
section
/-! DEFINITION. The stream DMA engines (R169-R173) and the limits of a run (R174, R188). -/
namespace Sys2Proof.Machine

/-! ## One line -/

/-- Updates an engine of a tile. -/
def onEng (s : State) (n : Nat) (e : Bool) (f : Engine → Engine) : State :=
  let t := s.tile n
  s.setTile n (t.setEng e (f (t.eng e)))

/-- A line of a burst has been served (R171): the engine waits for one less, and a stopped run may end. -/
def lineServed (s : State) (n : Nat) (e : Bool) : State :=
  settle (onEng s n e fun x => { x with wait := x.wait - 1 })

/-- Service of one line of a DMA burst at its memory controller (R171, R173): true where it was served. The line goes to
scratch, or the line captured at issue goes to the pool. An offline partition traps PARTITION (DEDUCED, log 14). -/
def dmaLine (s : State) (r : ChReq) (n : Nat) (e : Bool) (sa : Nat) : Bool × State :=
  if r.write then
    match r.bytes with
    | none =>
      if !tierUp s (ppaCream r.ppa) (ppaPart r.ppa) then (true, lineServed (trapTile s n 0x0B 0) n e)
      else match cohDevice s r.ppa true with
        | (true, s1) => (true, lineServed (poisonLine s1 r.ppa) n e)
        | (false, s1) => (false, s1)
    | some w => match writeAt s r.ppa (leBytes 64 w.toNat) with
      | (.ok (), s1) => (true, lineServed s1 n e)
      | (.held, s1) => (false, s1)
      | (_, s1) => (true, lineServed (trapTile s1 n 0x0B 0) n e)
  else match (match r.stream with
      | some h => streamRead h s r.ppa 64
      | none => readAt s r.ppa 64) with
    | (.ok bs, s1) =>
      let t := s1.tile n
      (true, lineServed (s1.setTile n (scratchPut t sa 64 (leNat bs))) n e)
    | (.held, s1) => (false, s1)
    | (.poisoned, s1) =>
      let t := s1.tile n
      let bad := (List.range 8).map fun k => (t.scrAt + sa) / 8 + k
      let t := scratchPut t sa 64 0
      let s2 := s1.setTile n { t with scratchPoison := t.scratchPoison ++ bad }
      let s3 := onEng s2 n e fun x => { x with halted := true, poison := true }
      (true, lineServed (wakeDma s3 n) n e)
    | (_, s1) => (true, lineServed (trapTile s1 n 0x0B 0) n e)

/-! ## Bursts -/

/-- Does the engine still have a burst to issue: its first transfer is not wholly issued, it is not halted or held, and its
tile has not ended (R170-R173, R179)? The cluster's clock, which is also the engines', must run (R30, R32). -/
def mayBurst (s : State) (n : Nat) (e : Bool) : Bool :=
  let t := s.tile n
  let x := t.eng e
  !s.flt.relocking.contains (cluOf n) && match x.queue with
  | q :: _ => decide (q.row < q.rows) && !x.halted && !x.held && t.st.active && t.run.isSome
  | [] => false

/-- The next burst of a transfer: its requester address and lines, up to the next 4 KiB boundary (R170). -/
def burstOf (q : Xfer) : Nat × Nat :=
  let a := q.ra + q.row * q.stride + 64 * q.line
  (a, min (q.lines - q.line) ((4096 - a % 4096) / 64))

/-- The transfer after `k` more lines of its row are issued. -/
def Xfer.advance (q : Xfer) (k : Nat) : Xfer :=
  if q.line + k = q.lines then { q with row := q.row + 1, line := 0 } else { q with line := q.line + k }

/-- The scratch offset of a transfer's next line. -/
def Xfer.scr (q : Xfer) : Nat := q.sa + (q.row * q.lines + q.line) * 64

/-- A fault of a burst suspends the run (R99, R172): its MAX_CYCLES count stands still (R188), and the requester is told. Where a
cancellation is pending it wins, and the tile traps FAULT_ABORT (R71). -/
def suspendRun (s : State) (k n : Nat) (c : Cmd) : State :=
  if c.st = .stopping then settle (trapTile ((s.xlt.pending.filter (·.key == k)).foldl endFault s) n 7 0)
  else
    let s := (runTiles s c).foldl foldCycles s
    let c := { c with st := .suspended, progress := runProgress s (runTiles s c) }
    sendSuspended (s.setCmd k c) c

/-- Does the burst of a DST meet a scratch word that cannot be corrected? -/
def burstBad (t : Tile) (q : Xfer) (k : Nat) : Bool := !q.load && (List.range k).any fun j => scratchBad t (t.scrAt + q.scr + 64 * j) 64
/-- A burst's lines as requests for their memory controllers. A DST captures its lines as it is issued; one with a scratch error goes as a
poisoned line (R173). -/
def burstReqs (t : Tile) (n : Nat) (e : Bool) (q : Xfer) (places : List Nat) (rt : Bool) (stream : Option Nat) (now k : Nat) : List ChReq :=
  (List.range k).flatMap fun j =>
    let sa := q.scr + 64 * j
    let w : Option W512 := if q.load || scratchBad t (t.scrAt + sa) 64 then none else some (BitVec.ofNat 512 (scratchGet t sa 64))
    places.map fun p => { line := (p + 64 * j) / 64, write := !q.load, at_ := now, tc5 := rt, ppa := p + 64 * j
                          tile := some (n, e, sa), bytes := w, stream := stream }
/-- The lines of a burst go to their controllers. -/
def pushLines (s : State) (l : List ChReq) : State := l.foldl (fun s r => pushReq s { r with at_ := s.now }) s

/-- A burst that is issued at its memory stop, the point `pt` (R138): served at once where it is green and nothing waits there, else queued
in its class and colour. -/
def burstAt (s : State) (n : Nat) (e : Bool) (c : Cmd) (pt color bytes : Nat) (l : List ChReq) : State :=
  let s := onEng s n e fun x => { x with wait := x.wait + l.length }
  if color = 1 && (s.point pt).items.isEmpty then pushLines s l
  else enqueueItem s pt { tc := tcOfPrio c.prio, color := color, bytes := bytes, f := 0, since := s.now, work := .burst n l
                          tag := BitVec.ofNat 32 (tagOf c.raw), src := BitVec.ofNat 32 (srcOf c.raw), elig := 0 }

/-- DMA_BURST_ISSUE (R170, R172, R137, R138): the next burst is translated, charged and issued. A red burst stays in the
engine, and is counted red once. -/
def burstIssue (s : State) (n : Nat) (e : Bool) : State :=
  let t := s.tile n
  match runOf s n, (t.eng e).queue with
  | some (k, c), q :: rest =>
    let (a, lines) := burstOf q
    let acc := if q.load then rRead else rWrite
    let refused := fun (s : State) (cause : Nat) =>
      settle (trapTile (s.setCmd k { c with aux := [cause, acc.toNat, a], flushed := s.now + 16500 }) n 6 0)
    match lookup s c.host a acc with
    | (.refused cause, s1) => refused s1 cause
    | (.offline _, s1) => settle (trapTile s1 n 0x0B 0)
    | (.held, s1) => s1
    | (.fault kind, s1) =>
      let s2 := onEng (raiseXlt s1 k (some (n, e)) c.host a kind acc) n e fun x => { x with held := true }
      match s2.cmd k with
      | some c2 => suspendRun s2 k n c2
      | none => s2
    | (.ok ppa rid, s1) =>
      if !q.load && (List.range lines).any (fun j => wrShut s1 (ppa + 64 * j)) then refused s 2
      else match place s1 rid ppa with
        | .held => s1
        | .at_ r ws =>
          let (col, s2) := chargeItem s1 c.host (64 * lines)
          if col = 3 then
            if (t.eng e).stopped then s1 else (onEng s2 n e fun x => { x with stopped := true }).setCmd k { c with color := 3 }
          else
            let tc := tcOfPrio c.prio
            let pt := 10 * ppaPart ppa + stopOf s2 ppa
            let qn := 112 + 8 * pt + tc
            let s3 := s2.setCmd k { c with color := col, points := if c.points.contains qn then c.points else qn :: c.points }
            let s3 := if q.load then s3 else mendScratch s3 n (t.scrAt + q.scr) (64 * lines)
            let l := burstReqs (s3.tile n) n e q (if q.load then [r] else ws) (c.prio = 0)
              (if q.load && streams s3 rid then some c.host else none) s3.now lines
            let bad := burstBad (s3.tile n) q lines
            let s4 := burstAt s3 n e c pt col (64 * lines) l
            let s5 := onEng s4 n e fun x => { x with queue := q.advance lines :: rest, stopped := false }
            settle (if bad then trapTile s5 n 4 0 (BitVec.ofNat 64 q.scr) else s5)
  | _, _ => s

def execDmaBurstIssue (n : Nat) (e : Bool) (s : State) : Host.Outcome State Fault Refusal :=
  onInst (decide (n < 10240)) (if mayBurst s n e then burstIssue s n e else s)

/-- DMA_TRANSFER_COMPLETE (R171): the first transfer is complete when every line of it has been served. -/
def transferComplete (s : State) (n : Nat) (e : Bool) : State :=
  match ((s.tile n).eng e).queue with
  | q :: rest =>
    if q.rows ≤ q.row && ((s.tile n).eng e).wait = 0 && !((s.tile n).eng e).halted
    then settle (wakeDma (onEng s n e fun x => { x with queue := rest }) n) else s
  | [] => s
def execDmaTransferComplete (n : Nat) (e : Bool) (s : State) : Host.Outcome State Fault Refusal :=
  onInst (decide (n < 10240)) (transferComplete s n e)

/-! ## Limits -/

/-- TILE_WAIT_LIMIT (R174). -/
def execTileWaitLimit (n : Nat) (s : State) : Host.Outcome State Fault Refusal :=
  onInst (decide (n < 10240)) (match (s.tile n).st, runOf s n with
    | .inSwait _ _ since, some (_, c) =>
      if !pairHeld s && c.runWaitUs != 0 && decide (since + us c.runWaitUs < s.now) then settle (trapTile s n 9 0) else s
    | _, _ => s)

/-- MAX_CYCLES_EXCEEDED (R178, R188). -/
def execMaxCyclesExceeded (n : Nat) (s : State) : Host.Outcome State Fault Refusal :=
  onInst (decide (n < 10240)) (match runOf s n with
    | some (_, c) => match s.prog c.runHandle with
      | some p => if !pairHeld s && (s.tile n).st.active && decide (p.maxCyc < workCycles s n) then settle (trapTile s n 8 0) else s
      | none => s
    | none => s)

end Sys2Proof.Machine
end

