-- ==== Sys2Proof/Machine/Memctl.lean ====
section
/-! DEFINITION. The memory controllers: request scheduling (R380-R382), refresh (R383), patrol scrub (R377-R379), remap (R374-R376),
parking (R385, R386), training (R387-R389) and injection (R390). The lines of stream DMA, of read-ahead and of the
real-time ports stand in a controller's queue as requests of their own; every other access is served where its operation makes it (log 31). -/
namespace Sys2Proof.Machine

/-! ## Controllers -/

def muOk : MemUnit → Bool
  | .sub d s => decide (d < 32) && decide (s < 2)
  | .pc h n => decide (h < 8) && decide (n < 32)
/-- The queue of a subchannel or pseudo-channel. -/
def muQ : MemUnit → Nat
  | .sub d s => 2 * d + s
  | .pc h n => 64 + 32 * h + n
/-- The counter block of its channel or pseudo-channel, which is also its index in classes 0x06 to 0x08 with 32 added. -/
def muCnt : MemUnit → Nat
  | .sub d _ => d
  | .pc h n => 32 + 32 * h + n
def muPart : MemUnit → Nat
  | .sub d _ => d / 4
  | .pc h _ => h
def muStack : MemUnit → Bool
  | .sub .. => false
  | .pc .. => true
/-- The channel block `i` in [0, 31], or the stack block `i` in [0, 7]. -/
def State.blk (s : State) (stack : Bool) (i : Nat) : MemBlk :=
  if stack then (s.part i).stack else (s.part (i / 4)).chans.getD (i % 4) {}
def State.setBlk (s : State) (stack : Bool) (i : Nat) (b : MemBlk) : State :=
  if stack then s.setPart i { s.part i with stack := b }
  else s.setPart (i / 4) { s.part (i / 4) with chans := (s.part (i / 4)).chans.set (i % 4) b }
def blkIx : MemUnit → Nat
  | .sub d _ => d
  | .pc h _ => h
def muBlk (s : State) (u : MemUnit) : MemBlk := s.blk (muStack u) (blkIx u)
def State.chq (s : State) (q : Nat) : ChanQ := tabGet {} s.mem.chq q
def State.setChq (s : State) (q : Nat) (x : ChanQ) : State := { s with mem := { s.mem with chq := tabSet {} s.mem.chq q x } }
/-- Does the controller run: ACTIVE, its tier in service and its clock not stopped (R32)? -/
def muRuns (s : State) (u : MemUnit) : Bool :=
  (muBlk s u).state == 2 && tierUp s (muStack u) (muPart u) && (muStack u || !s.flt.relocking.contains (88 + blkIx u))

/-! ## Scheduling (R380-R382) -/

/-- Does a line wait for snoop answers in its window (R301)? -/
def lineWaits (s : State) (ppa : Nat) : Bool :=
  s.coh.wins.any fun w => w.2.state != 0 && (extOff w.2.ext ppa).any fun o => (tabFind w.2.trans (o / 64)).isSome

/-- The last of the requests before request `i` that names its line. -/
def aheadOf (l : List ChReq) (i : Nat) (r : ChReq) : Option ChReq := ((l.take i).filter (·.line == r.line)).getLast?
/-- May request `i` be served: its line is not held, and nothing of its line precedes it but a write that serves a read (R382)? -/
def mayServe (s : State) (l : List ChReq) (i : Nat) (r : ChReq) : Bool :=
  !lineWaits s r.ppa && match aheadOf l i r with
    | none => true
    | some w => !r.write && w.write
/-- Is the request a row hit? -/
def rowHit (s : State) (x : ChanQ) (r : ChReq) : Bool :=
  let c := coordOf s r.ppa
  match tabFind x.rows (32 * c.rank + c.bank) with
  | some (row, _) => row == c.row
  | none => false

/-- Is a write batch on, given the queue (R381)? -/
def batchNow (s : State) (x : ChanQ) : Bool :=
  let w := (x.reqs.filter (·.write)).length
  let rs := x.reqs.filter fun r => !r.write
  if x.batch then decide (16 < w) && !(rs.any fun r => decide (r.at_ + 300 ≤ s.now))
  else decide (48 ≤ w) || (rs == [] && decide (16 < w))

/-- The next request by the order of R381: waited 300 ns; ports in panic; row hits; the rest; each oldest first. -/
def pickReq (s : State) (x : ChanQ) : Option Nat :=
  let ixs := (List.range x.reqs.length).filter fun i => match x.reqs[i]? with
    | some r => mayServe s x.reqs i r
    | none => false
  let is := fun (f : ChReq → Bool) (i : Nat) => (x.reqs[i]?).any f
  let inPanic := fun (r : ChReq) => match r.rt with
    | some p => rtPanic s x (blkOf s r.ppa).panicEn p
    | none => false
  let writes := batchNow s x || !(x.reqs.any fun r => !r.write)
  let side := ixs.filter (is fun r => r.write == writes)
  let pool := if side = [] then ixs else side
  ((((ixs.find? (is fun r => decide (r.at_ + 300 ≤ s.now))).orElse fun _ => ixs.find? (is fun r => inPanic r && rowHit s x r)).orElse
    fun _ => ixs.find? (is inPanic)).orElse fun _ => pool.find? (is (rowHit s x))).orElse fun _ => pool.head?

/-- Serves one request: a line of stream DMA, one read ahead into the stream buffer, or one of a real-time port. -/
def serveChReq (s : State) (r : ChReq) (from_ : Option ChReq) : State :=
  if r.rt.isSome then rtSettle s r.ppa
  else match r.tile with
  | some (n, e, sa) => match from_ with
    | some w =>
      -- the read is served from the queued write: the data it carries, or its poison
      if w.rt.isSome then (dmaLine s r n e sa).2 else
      let kept := s.mem
      let s1 := (dmaLine (match w.bytes with
        | some b => setErr (putBytes s (r.ppa / 64 * 64) (leBytes 64 b.toNat)) r.ppa 0
        | none => poisonLine s r.ppa) r n e sa).2
      { s1 with mem := { s1.mem with bytes := kept.bytes, err := kept.err } }
    | none => (dmaLine s r n e sa).2
  | none => match readLine s r.ppa with
    | (some _, s1) => bufferLine s1 r.ppa
    | (none, s1) => s1

/-- Keeps the row of a served request open, unless the idle timer is 0 or it was the last of its read-ahead in that row (R134, R380). -/
def openRow (s : State) (u : MemUnit) (x : ChanQ) (r : ChReq) : ChanQ :=
  let c := coordOf s r.ppa
  let k := 32 * c.rank + c.bank
  let more := x.reqs.any fun y => y.ahead && y.ppa / 4096 == r.ppa / 4096 && (coordOf s y.ppa).bank == c.bank
  if (muBlk s u).idleCyc = 0 || (r.ahead && !more) then { x with rows := tabDel x.rows k } else { x with rows := tabIns x.rows k (c.row, s.now) }

/-- Does a TC5 item wait at the channel, or is a real-time port in panic (R383)? -/
def noMakeUp (s : State) (u : MemUnit) (x : ChanQ) : Bool :=
  (List.range 3).any (rtPanic s x (muBlk s u).panicEn) || (match u with
    | .sub d t => (s.chq (2 * d + (1 - t))).reqs.any (·.tc5)
    | .pc .. => false)

/-- Serves queued lines at once, in their order, and among them those of bursts that wait at a memory stop: what a translation served must
have ended before it is replaced (R92, R95, R117), and what is aimed at a tier that has stopped is answered (R29). Lines in a window wait
on. -/
def drainReqs (s : State) (f : ChReq → Bool) : State :=
  let waiting := s.qos.points.flatMap fun e => e.2.items.flatMap fun i => match i.work with
    | .burst _ l => if l.any f then l else []
    | _ => []
  let s := dropItems s fun i => match i.work with
    | .burst _ l => l.any f
    | _ => false
  let s := pushLines s waiting
  (s.mem.chq.flatMap fun e => (e.2.reqs.filter f).map fun r => (e.1, r)).foldl (fun s e =>
    let x := s.chq e.1
    if lineWaits s e.2.ppa || !x.reqs.contains e.2 then s
    else serveChReq (s.setChq e.1 { x with reqs := x.reqs.erase e.2 }) e.2 none) s
/-- Every queued line of stream DMA. -/
def drainDma (s : State) : State := drainReqs s (·.tile.isSome)
/-- Takes what waits at the memory stops and controllers of a partition that goes out of service (R29): DMA lines are answered as offline,
the rest is dropped. -/
def dropPart (s : State) (p : Nat) : State :=
  let mine := fun (r : ChReq) => ppaPart r.ppa == p
  let s := drainReqs s fun r => mine r && r.tile.isSome
  { s with mem := { s.mem with chq := tabMapD {} (fun _ x => { x with reqs := x.reqs.filter fun r => !mine r || r.tile.isSome }) s.mem.chq } }

/-- CHANNEL_ISSUE: the next request, or with none the postponed refreshes as one burst. -/
def channelIssue (s : State) (u : MemUnit) : State :=
  let q := muQ u
  let x := s.chq q
  if !muRuns s u then s
  else if x.reqs = [] then
    if !noMakeUp s u x then s.setChq q { x with postponed := [] } else s
  else match pickReq s x with
    | none => s
    | some i => match x.reqs[i]? with
      | none => s
      | some r =>
        let rest := { x with reqs := x.reqs.eraseIdx i, batch := batchNow s x }
        serveChReq (s.setChq q (openRow s u rest r)) r (aheadOf x.reqs i r)
def execChannelIssue (u : MemUnit) (s : State) : Host.Outcome State Fault Refusal := onInst (muOk u) (channelIssue s u)

/-- Has a bank been idle for IDLE_CYC controller cycles since `t`: a quarter of the DRAM clock, or 1.2 GHz (R30, R380)? -/
def idleOver (s : State) (u : MemUnit) (t : Nat) : Bool :=
  let dt := s.now - t
  if muStack u then decide (10 * (muBlk s u).idleCyc ≤ 12 * dt)
  else decide (8000 * (muBlk s u).idleCyc ≤ dt * [6400, 7200, 8000, 8800].getD (muBlk s u).rate 8800)
/-- ROW_IDLE_CLOSE (R380). -/
def execRowIdleClose (u : MemUnit) (rank bank : Nat) (s : State) : Host.Outcome State Fault Refusal :=
  onInst (muOk u && decide (bank < 32)) (
    let x := s.chq (muQ u)
    match tabFind x.rows (32 * rank + bank) with
    | some (_, t) => if idleOver s u t then s.setChq (muQ u) { x with rows := tabDel x.rows (32 * rank + bank) } else s
    | none => s)

/-- REFRESH_DUE (R383): issued, postponed up to eight times while requests wait for the rank, or forced as the ninth. -/
def execRefreshDue (u : MemUnit) (rank : Nat) (s : State) : Host.Outcome State Fault Refusal :=
  onInst (muOk u) (
    let x := s.chq (muQ u)
    let waits := x.reqs.any fun r => muStack u || (coordOf s r.ppa).rank == rank
    let n := tabGet 0 x.postponed rank
    if !muRuns s u || !decide (rank < (muBlk s u).ranks) || !waits || 8 ≤ n then s
    else s.setChq (muQ u) { x with postponed := tabSet 0 x.postponed rank (n + 1) })

/-! ## Patrol scrub (R377-R379) -/

/-- Lines of a scrubber: one per channel, whose queue is its first subchannel's, and one per pseudo-channel. -/
def scrubCount (s : State) (u : MemUnit) : Nat := if muStack u then creamSize s / 2048 else skimSize s (muPart u) / 256
def scrubQ : MemUnit → Nat
  | .sub d _ => 2 * d
  | .pc h n => 64 + 32 * h + n
/-- The `i`-th line that maps to the scrubber, by R363 or R364: its partition-local index. -/
def scrubLineAt (u : MemUnit) (i : Nat) : Nat :=
  match u with
  | .sub d _ => i / 2 * 8 + ((2 * (d % 4)) ^^^ (i / 2 / 4096 % 8 / 2 * 2)) + i % 2
  | .pc _ n => 32 * i + (n ^^^ (i / 256 % 32))
/-- Stripe of a scrubber's position. -/
def scrubStripe (u : MemUnit) (i : Nat) : Nat := if muStack u then i / 256 else i / 2 / 4096
/-- Length of a pass in ns. -/
def scrubT (b : MemBlk) : Nat := 3600000000000 * b.hours

/-- SCRUB_LINE: the next backed line, when its period has come; a pass that ends more than 1 % of T late is marked (log 31). -/
def scrubLine (s : State) (u : MemUnit) : State :=
  let b := muBlk s u
  let x := s.chq (scrubQ u)
  let n := scrubCount s u
  let start := if x.scrubAt = 0 then max s.now 1 else x.scrubAt
  if !b.scrubEn || !muRuns s u || n = 0 || (s.now - start) * n < x.scrubL * scrubT b then s
  else
    let a := ppaOf (muStack u) (muPart u) (64 * scrubLineAt u x.scrubL)
    let s := (readLine s a true).2
    let x := s.chq (scrubQ u)
    if x.scrubL + 1 < n then
      let s := s.setChq (scrubQ u) { x with scrubL := x.scrubL + 1, scrubAt := start }
      s.setCnt (muCnt u) { s.cnt (muCnt u) with scrubPos := scrubStripe u (x.scrubL + 1) }
    else
      let late := decide (101 * scrubT b < 100 * (s.now - start))
      let s := s.setChq (scrubQ u) { x with scrubL := 0, scrubN := x.scrubN + 1, scrubAt := max s.now (start + scrubT b) }
      let s := s.setCnt (muCnt u) { s.cnt (muCnt u) with scrubPos := 0 }
      let b := muBlk s u
      if late then s.setBlk (muStack u) (blkIx u) { b with late := true } else s
def execScrubLine (u : MemUnit) (s : State) : Host.Outcome State Fault Refusal := onInst (muOk u) (scrubLine s u)

/-- `PASSES`: of a channel; of a stack, the passes that all its scrubbers have completed. -/
def scrubPasses (s : State) (stack : Bool) (i : Nat) : Nat :=
  if stack then min 65535 ((List.range 32).foldl (fun m n => min m (s.chq (64 + 32 * i + n)).scrubN) 65535)
  else min 65535 (s.chq (2 * i)).scrubN

/-! ## Remap (R374-R376) -/

/-- The PPA at the DRAM coordinates of an entry; none where they are not backed. -/
def remapPpa (s : State) (u : MemUnit) (r : Remap) : Option Nat :=
  let c := r.coord (muCnt u)
  let b := muBlk s u
  if b.rows ≤ c.row || b.ranks ≤ c.rank then none else some (coordPpa s c)

def State.remap (s : State) (u : MemUnit) (e : Nat) : Remap := tabGet {} (s.cnt (muCnt u)).remaps e
def State.setRemap (s : State) (u : MemUnit) (e : Nat) (r : Remap) : State :=
  let c := s.cnt (muCnt u)
  s.setCnt (muCnt u) { c with remaps := tabSet {} c.remaps e r }

/-- REMAP_INSTALL: a write of `DMC_REMAP_HI` with VALID = 1 begins the copy to the spare. An entry that copies or is active keeps
its value. -/
def remapInstall (s : State) (u : MemUnit) (e : Nat) (value : W32) : State :=
  let r := s.remap u e
  if r.busy || r.valid || !bitOf value.toNat 31 then s else s.setRemap u e { r with rank := value.toNat % 8, busy := true, remove := false }
def execRemapInstall (u : MemUnit) (e : Nat) (value : W32) (s : State) : Host.Outcome State Fault Refusal :=
  onInst (muOk u && decide (e < 16)) (remapInstall s u e value)
/-- REMAP_REMOVE: a write of VALID = 0 begins the copy back; of an entry that is not active it only sets RANK. -/
def remapRemove (s : State) (u : MemUnit) (e : Nat) (value : W32) : State :=
  let r := s.remap u e
  if r.busy || bitOf value.toNat 31 then s
  else if r.valid then s.setRemap u e { r with busy := true, remove := true }
  else s.setRemap u e { r with rank := value.toNat % 8 }
def execRemapRemove (u : MemUnit) (e : Nat) (value : W32) (s : State) : Host.Outcome State Fault Refusal :=
  onInst (muOk u && decide (e < 16)) (remapRemove s u e value)
/-- The entries of a counter block as PMC keeps them in flash (R375; log 45). -/
def keepRemaps (s : State) (k : Nat) : State :=
  { s with mem := { s.mem with flash := tabSet [] s.mem.flash k (((s.cnt k).remaps.filter (·.2.valid)).map fun e => (e.1, { e.2 with busy := false, remove := false })) } }
/-- REMAP_COPY_COMPLETE: the line is read where it was held, and arrives at the spare, or back at its own place, as a clean codeword or as
the marker; it keeps its PPA. -/
def remapCopied (s : State) (u : MemUnit) (e : Nat) : State :=
  let r := s.remap u e
  if !r.busy then s
  else
    let done := fun (s : State) => s.setRemap u e { r with busy := false, valid := !r.remove, remove := false }
    keepRemaps (match remapPpa s u r with
      | some a => match readLine s a true with
        | (some bs, s1) => setErr (putBytes (done s1) a bs) a 0
        | (none, s1) => poisonLine (done s1) a
      | none => done s) (muCnt u)
def execRemapCopyComplete (u : MemUnit) (e : Nat) (s : State) : Host.Outcome State Fault Refusal :=
  onInst (muOk u && decide (e < 16)) (remapCopied s u e)

/-! ## Parking (R385, R386) -/

/-- `DMC_PART_KEEP` as it reads: once RANKS is known the top segment is kept and absent ranks are 0. -/
def keepBits (s : State) (p : Nat) : Nat :=
  let r := (chan0 s p).ranks
  let k := (s.part p).keep.toNat
  if r = 0 then k else (k % 2 ^ (8 * r)) ||| 2 ^ (8 * (r - 1) + 7)
def unkept (s : State) (p : Nat) : List Nat := (List.range (8 * (chan0 s p).ranks)).filter fun i => !bitOf (keepBits s p) i
/-- The span of a segment in the skim offsets of its partition. -/
def segBytes (s : State) (p : Nat) : Nat := 2 ^ 18 * (chan0 s p).rows
/-- Does any range map skim outside the kept segments? -/
def mapsUnkept (s : State) (p : Nat) : Bool :=
  (s.xlt.dirA ++ s.xlt.dirS).any fun e => !ppaCream e.2.ppa && ppaPart e.2.ppa == p &&
    (unkept s p).any fun i => !disjointSpans (ppaOff e.2.ppa) (4096 * e.2.lenG) (i * segBytes s p) (segBytes s p)

/-- PARK: a write of `DMC_PART_LP` with PARK = 1. -/
def parkReqOf (s : State) (p : Nat) (value : W32) : State :=
  let x := s.part p
  let x := { x with refused := x.refused && !bitOf value.toNat 1 }
  if x.park || !bitOf value.toNat 0 then s.setPart p x
  else if !s.online p || x.chans.any (·.state == 1) || mapsUnkept s p then s.setPart p { x with refused := true }
  else s.setPart p { x with park := true, parkReq := true }
def execPark (p : Nat) (value : W32) (s : State) : Host.Outcome State Fault Refusal := onInst (decide (p < 8)) (onBar s (16 + p) (parkReqOf s p value))
/-- PARK_COMPLETE: once nothing issued is left, all four channels are in self-refresh. -/
def execParkComplete (p : Nat) (s : State) : Host.Outcome State Fault Refusal :=
  onInst (decide (p < 8)) (
    let x := s.part p
    let idle := (List.range 8).all fun i => (s.chq (8 * p + i)).reqs == []
    if x.parkReq && idle then
      s.setPart p { x with parkReq := false, parked := true, parkAt := s.now
                           chans := x.chans.map fun b => if b.state = 2 then { b with state := 3 } else b }
    else s)
/-- Leaves parking: the unkept segments wait for their zero pass, and the scrub passes do not count the time parked. -/
def unparkPart (s : State) (p : Nat) : State :=
  let x := s.part p
  if !x.parked then s.setPart p { x with park := false, parkReq := false }
  else
    let segs := x.zeroed ++ (unkept s p).filter fun i => !x.zeroed.contains i
    let s := (List.range 4).foldl (fun s c =>
      let q := 2 * (4 * p + c)
      let y := s.chq q
      if y.scrubAt = 0 then s else s.setChq q { y with scrubAt := y.scrubAt + (s.now - x.parkAt) }) s
    s.setPart p { x with park := false, parkReq := false, parked := false, zeroed := segs, fillSkim := x.fillSkim || segs != []
                         chans := x.chans.map fun b => if b.state = 3 then { b with state := 2 } else b }
/-- UNPARK: a write of `DMC_PART_LP` with PARK = 0. -/
def unparkReqOf (s : State) (p : Nat) (value : W32) : State :=
  let s := s.setPart p { s.part p with refused := (s.part p).refused && !bitOf value.toNat 1 }
  if bitOf value.toNat 0 then s else unparkPart s p
def execUnpark (p : Nat) (value : W32) (s : State) : Host.Outcome State Fault Refusal :=
  onInst (decide (p < 8)) (onBar s (16 + p) (unparkReqOf s p value))

/-- ZERO_FILL_COMPLETE: the pass over unkept segments (R386) or over a lossy tier (R436), whose lines read zero from the return
on, has ended. -/
def execZeroFillComplete (p : Nat) (cream : Bool) (s : State) : Host.Outcome State Fault Refusal :=
  onInst (decide (p < 8)) (
    let x := s.part p
    if !s.online p then s
    else if cream then s.setPart p { x with fillCream := false }
    else if x.parked || !x.fillSkim then s
    else
      let s := x.zeroed.foldl (fun s i => zeroSpan s (ppaOf false p (i * segBytes s p)) (segBytes s p)) s
      s.setPart p { x with fillSkim := false, zeroed := [] })

/-! ## Training (R387-R389) -/

/-- The registers of a partition's controllers at their reset values; remap entries stay (R390, R379). -/
def memRegsReset (s : State) (p : Nat) : State :=
  let cnts := (s.mem.cnts.map fun (e : Nat × MemCnt) => if cntPart e.1 = p then (e.1, ({ remaps := e.2.remaps } : MemCnt)) else e).filter fun e => e.2 != {}
  let mine := fun (q : Nat) => if q < 64 then q / 8 == p else (q - 64) / 32 == p
  let x := s.part p
  let x := { x with chans := [{}, {}, {}, {}], stack := { hours := 1 }, park := false, parked := false, parkReq := false, refused := false, keep := 0 }
  ({ s with mem := { s.mem with cnts := cnts, chq := s.mem.chq.filter fun e => !mine e.1 } }).setPart p x
/-- Training begins: the controllers show TRAINING. -/
def trainStart (s : State) (p : Nat) : State :=
  let x := s.part p
  s.setPart p { x with chans := x.chans.map (fun b => { b with state := 1 }), stack := { x.stack with state := 1 } }

/-- TRAINING_RUN_START: a write of `DMC_TRN_CTRL`, which takes effect only in TRAINING; START begins a run of COUNT bursts. -/
def trnCtrlWrite (s : State) (stack : Bool) (i : Nat) (value : W32) : State :=
  let b := s.blk stack i
  if b.state != 1 then s
  else
    let b := { b with trnCtrl := value &&& 0x3FFFFFFF }
    if bitOf value.toNat 31 && !b.trnBusy && value.toNat % 65536 != 0
    then s.setBlk stack i { b with trnBusy := true, trnDone := false, trnLo := 0, trnHi := 0 }
    else s.setBlk stack i b
def blkOk (stack : Bool) (i : Nat) : Bool := decide (i < if stack then 8 else 32)
def execTrainingRunStart (stack : Bool) (i : Nat) (value : W32) (s : State) : Host.Outcome State Fault Refusal :=
  onInst (blkOk stack i) (trnCtrlWrite s stack i value)
/-- TRAINING_RUN_DONE: DONE is set and the failing lanes are latched. -/
def execTrainingRunDone (stack : Bool) (i : Nat) (failLo failHi : W32) (s : State) : Host.Outcome State Fault Refusal :=
  onInst (blkOk stack i) (
    let b := s.blk stack i
    if b.trnBusy then s.setBlk stack i { b with trnBusy := false, trnDone := true, trnLo := failLo, trnHi := failHi &&& 0xFF } else s)

/-- INJECT_ARM: a write of `DMC_INJECT` (R390). -/
def injectWrite (s : State) (stack : Bool) (i : Nat) (value : W32) : State :=
  let v := value.toNat
  s.setBlk stack i { s.blk stack i with
    injTgt := if stack then field v 20 16 else field v 16 16, injMask := BitVec.ofNat 8 (field v 15 8), injTwo := bitOf v 4, injCol := v % 16 }
def execInjectArm (stack : Bool) (i : Nat) (value : W32) (s : State) : Host.Outcome State Fault Refusal :=
  onInst (blkOk stack i) (onBar s (16 + if stack then i else i / 4) (injectWrite s stack i value))

/-- What training found of a partition (R360, R362, R387): the cause of each side, 0 where it passed. -/
def skimCause (r : TrainResult) : Nat := if !r.spdOk then 2 else if !r.popOk then 1 else if r.skimPass then 0 else 3
def creamCause (s : State) (r : TrainResult) : Nat := if r.crmPass && r.sids == 3 && r.crmRows == creamRows s then 0 else 3
/-- All channels run at the highest rate that every partition in training or service supports; two DIMMs per channel run at 6,400. -/
def commonRate (s : State) : Nat :=
  if s.boot.skimDpc then 0
  else s.mem.parts.foldl (fun m e => if (e.2.chans.headD {}).ranks = 0 then m else min m (e.2.chans.headD {}).rate) 3
/-- Clock of a DDR5 controller in kHz by its rate: one quarter of the DRAM clock (R30). -/
def rateKhz (r : Nat) : Nat := [800000, 900000, 1000000, 1100000].getD r 800000
/-- Sets that rate. The controllers whose rate changes stop while their PLLs relock, and SAF has the new plan (R32, R34). -/
def shareRate (s : State) : State :=
  let r := commonRate s
  let moved := (List.range 32).filter fun d => (s.blk false d).ranks != 0 && (s.blk false d).rate != r
  let s := { s with flt := { s.flt with
    relocking := (s.flt.relocking ++ moved.map (88 + ·)).eraseDups
    stopUntil := moved.foldl (fun t d => tabSet 0 t (88 + d) (s.now + us 4)) s.flt.stopUntil
    wasKhz := moved.foldl (fun t d => tabSet 0 t (88 + d) (rateKhz (s.blk false d).rate)) s.flt.wasKhz } }
  moved.foldl (fun s d => s.setBlk false d { s.blk false d with rate := r }) s
/-- PMC loads the remap entries of a partition whose registers hold none from flash (R375; log 45). -/
def loadRemaps (s : State) (p : Nat) : State :=
  (s.mem.flash.filter fun e => cntPart e.1 == p && (s.cnt e.1).remaps == []).foldl (fun s e => s.setCnt e.1 { s.cnt e.1 with remaps := e.2 }) s
/-- Writes what training found into the controllers of partition `p`; scrub passes begin. -/
def trainResult (s : State) (p : Nat) (r : TrainResult) : State :=
  let a := skimCause r
  let b := creamCause s r
  let x := s.part p
  let ch := fun (c : MemBlk) =>
    if a = 0 then { c with state := 2, cause := 0, ranks := r.ranks, rows := r.rows, rate := r.rateMax % 4, x8 := r.x8, mrdimm := r.mrdimm, trnBusy := false }
    else { c with state := if a = 3 then 4 else 0, cause := a, ranks := 0, rows := 0, trnBusy := false }
  let st := { x.stack with state := if b = 0 then 2 else 4, cause := b, ranks := if b = 0 then r.sids else 0, rows := if b = 0 then r.crmRows else 0, trnBusy := false }
  shareRate (loadRemaps (s.setPart p { x with chans := x.chans.map ch, stack := st }) p)

end Sys2Proof.Machine
end

