-- ==== Sys2Proof/Machine/Sha.lean ====
section
/-! DEFINITION. SHA-256 (FIPS 180-4, which R282 cites), over byte strings, and the Merkle tree of R282. -/
namespace Sys2Proof.Machine

/-- The primes below 312: the first 64. -/
def shaPrimes : List Nat :=
  (List.range 312).filter fun p => 1 < p && (List.range 18).all fun d => d < 2 || p < d * d || p % d != 0
/-- The largest number below 2^`n` more than `r` whose `e`-th power is at most `x`, found bit by bit. -/
def shaRoot (e x : Nat) : Nat → Nat → Nat
  | 0, r => r
  | n + 1, r => shaRoot e x n (if (r + 2 ^ n) ^ e ≤ x then r + 2 ^ n else r)
/-- The first 32 bits of the fraction of the `e`-th root of `p`, as FIPS 180-4 takes its constants. -/
def rootFrac (e p : Nat) : Nat := shaRoot e (p * 2 ^ (32 * e)) 36 0 % 2 ^ 32
/-- The round constants: from the cube roots of the first 64 primes. -/
def shaK : List Nat := shaPrimes.map (rootFrac 3)
/-- The initial hash value: from the square roots of the first 8 primes. -/
def shaInit : List Nat := (shaPrimes.take 8).map (rootFrac 2)

def rotr32 (x n : Nat) : Nat := x / 2 ^ n ||| (x * 2 ^ (32 - n) % 2 ^ 32)
/-- σ0 and σ1 of the message schedule, Σ0 and Σ1 of the rounds. -/
def shaS0 (x : Nat) : Nat := rotr32 x 7 ^^^ rotr32 x 18 ^^^ (x / 2 ^ 3)
def shaS1 (x : Nat) : Nat := rotr32 x 17 ^^^ rotr32 x 19 ^^^ (x / 2 ^ 10)
def shaB0 (x : Nat) : Nat := rotr32 x 2 ^^^ rotr32 x 13 ^^^ rotr32 x 22
def shaB1 (x : Nat) : Nat := rotr32 x 6 ^^^ rotr32 x 11 ^^^ rotr32 x 25

/-- Extends the message schedule by `n` words; the last 16 words are kept newest first. -/
def shaSchedule : Nat → List Nat → List Nat
  | 0, w => w
  | n + 1, w =>
    shaSchedule n ((shaS1 (w.getD 1 0) + w.getD 6 0 + shaS0 (w.getD 14 0) + w.getD 15 0) % 2 ^ 32 :: w)

/-- One round on the eight working variables. -/
def shaRound (v : List Nat) (k w : Nat) : List Nat :=
  match v with
  | [a, b, c, d, e, f, g, h] =>
    let ch := (e &&& f) ^^^ ((2 ^ 32 - 1 - e) &&& g)
    let mj := (a &&& b) ^^^ (a &&& c) ^^^ (b &&& c)
    let t1 := h + shaB1 e + ch + k + w
    [(t1 + shaB0 a + mj) % 2 ^ 32, a, b, c, (d + t1) % 2 ^ 32, e, f, g]
  | _ => v

def be32 (bs : List Byte) : Nat := leNat (bs.take 4).reverse
/-- The 16 words of a 64-byte block, first to last. -/
def shaWords (b : List Byte) : List Nat := (List.range 16).map fun i => be32 (b.drop (4 * i))

/-- Compresses one block into the hash value. -/
def shaBlock (h : List Nat) (b : List Byte) : List Nat :=
  let w := (shaSchedule 48 (shaWords b).reverse).reverse
  let v := (shaK.zip w).foldl (fun v kw => shaRound v kw.1 kw.2) h
  List.zipWith (fun x y => (x + y) % 2 ^ 32) h v

/-- Compresses `n` whole blocks and gives the bytes that remain. -/
def shaBlocks : Nat → List Nat → List Byte → List Nat × List Byte
  | 0, h, bs => (h, bs)
  | n + 1, h, bs => shaBlocks n (shaBlock h (bs.take 64)) (bs.drop 64)

/-- Hashes more bytes: the hash value and the pending bytes of an incomplete block. -/
def shaFeed (st : List Nat × List Byte) (bs : List Byte) : List Nat × List Byte :=
  let m := st.2 ++ bs
  shaBlocks (m.length / 64) st.1 m

/-- The padding of a message of `n` bytes. -/
def shaPad (n : Nat) : List Byte :=
  0x80 :: List.replicate ((119 - n % 64) % 64) 0 ++ (leBytes 8 (8 * n)).reverse

/-- The 32-byte hash of a message of `n` bytes whose blocks so far gave `st`. -/
def shaFinish (st : List Nat × List Byte) (n : Nat) : List Byte :=
  ((shaFeed st (shaPad n)).1.map fun w => (leBytes 4 w).reverse).flatten

def sha256 (bs : List Byte) : List Byte := shaFinish (shaFeed (shaInit, []) bs) bs.length

/-- The leaf of a chunk and an inner node of the tree (R282). -/
def leafHash (chunk : List Byte) : List Byte := sha256 (0 :: chunk)
def nodeHash (x y : List Byte) : List Byte := sha256 (1 :: x ++ y)

/-- The root over leaves: split at the largest power of two less than their number; `fuel` bounds the depth (R282). -/
def merkleRoot : Nat → List (List Byte) → List Byte
  | 0, l => l.headD []
  | fuel + 1, l =>
    if l.length ≤ 1 then l.headD []
    else
      let k := 2 ^ log2 (l.length - 1)
      nodeHash (merkleRoot fuel (l.take k)) (merkleRoot fuel (l.drop k))

end Sys2Proof.Machine
end

