-- ==== Sys2Proof/Machine/Galley.lean ====
section
/-! DEFINITION. The checkpoint galley (R275-R292). -/
namespace Sys2Proof.Machine

def State.galley (s : State) (g : Nat) : Option Galley := tabFind s.work.gals g
def State.setGalley (s : State) (i : Nat) (g : Galley) : State :=
  { s with work := { s.work with gals := tabIns s.work.gals i g } }

/-- Bytes of a chunk, and of one proof copy (R275). -/
def chunkB : Nat := 2 ^ 22
def proofB (chunks : Nat) : Nat := roundUp (64 + 36 * chunks) 4096

/-! ## Opening (R276, R277) -/

/-- The galley that a GAL_OPEN descriptor describes. -/
def galOf (c : Cmd) : Galley :=
  { host := c.host, chunks := c.par 0 4, slots := c.par 4 4, rIng := c.par 8 4, gal := c.par 16 8, store := c.par 24 8
    proof := c.par 32 8, head := c.par 40 8 }

/-- The four regions: GAL, STORE, PROOF, HEAD. -/
def Galley.regions (g : Galley) : List (Nat × Nat) :=
  [(g.gal, g.chunks * chunkB), (g.store, g.slots * chunkB), (g.proof, 2 * proofB g.chunks), (g.head, 64)]

/-- Do no two of the spans overlap (R235)? -/
def apart : List (Nat × Nat) → Bool
  | [] => true
  | a :: t => t.all (fun b => disjointSpans a.1 a.2 b.1 b.2) && apart t

/-- Every range that the region covers begins and ends on a 4 MiB boundary counted from the region's start (R276). -/
def chunkAligned (s : State) (base : Nat) (l : List (Nat × Nat × Nat × Nat)) : Bool :=
  l.all fun (a, _, ppa, rid) => match s.range rid with
    | some e =>
      -- where the range begins and ends, in the requester addresses of this extent
      let lo : Int := a - (ppa - e.ppa : Nat)
      (lo - base) % chunkB == 0 && (lo + 4096 * e.lenG - base) % chunkB == 0
    | none => false

/-- The checks of R276 that depend on the directory: PROOF and HEAD in one range each, the boundary rule, GAL in cream. -/
def galRangesOk (s : State) (h : Nat) (g : Galley) : Bool :=
  oneRange s h g.proof (2 * proofB g.chunks) && oneRange s h g.head 64
    && (match extents s h g.gal (g.chunks * chunkB) with
      | some l => chunkAligned s g.gal l && l.all fun x => ppaCream x.2.2.1
      | none => false)
    && (match extents s h g.store (g.slots * chunkB) with
      | some l => chunkAligned s g.store l
      | none => false)

/-- The extents of GAL in physical addresses. -/
def galExtents (s : State) (h : Nat) (g : Galley) : List (Nat × Nat) := spanExts s h g.gal (g.chunks * chunkB)

/-- Can R_ING be admitted (R277): does each partition's share fit under the limit of R142? -/
def ingFits (s : State) (g : Galley) : Bool :=
  (List.range 8).all fun p =>
    g.partRate p = 0 || decide (10 * (loadSum s p (fun _ d => d.started) + galLoad s p + g.partRate p) ≤ 9 * sliceRate s p)

/-- The 64 bytes of a HEAD line (R284). -/
def headLine (chunks used ckpt : Nat) (root : List Byte) : List Byte :=
  leBytes 4 0x44414548 ++ leBytes 2 1 ++ leBytes 2 0 ++ leBytes 4 chunks ++ leBytes 4 used ++ leBytes 8 ckpt
    ++ leBytes 8 0 ++ padTo 32 root

/-- The refusals of R277 and R469: a handle, the chunks of all galleys, R_ING, and the power estimate. -/
def galStop (s : State) (g : Galley) : Option Nat :=
  let total := s.work.gals.foldl (fun n e => n + e.2.chunks) g.chunks
  if 16 < tabGap s.work.gals 1 || 65536 < total || !ingFits s g then some stRESOURCES
  else if !powerFits s Config.galPower then some stENERGY
  else none
/-- Do galleys wait for a range of the regions to settle (log 44)? -/
def galWaits (s : State) (g : Galley) : Bool := g.regions.any fun r => ((extents s g.host r.1 r.2).getD []).any fun e => unsettledRange s e.2.2.2

def galOpenAct (s : State) (k : Nat) : State :=
  match s.cmd k with
  | none => s
  | some c =>
    let g := galOf c
    let g := { g with ext := galExtents s c.host g }
    if galWaits s g then tellAccepted (s.setCmd k { c with st := .ready }) k
    else if !galRangesOk s c.host g then settle (finish s k stMALFORMED)
    else match galStop s g with
    | some st => settle (finish (if st = stENERGY then energyRefused s else s) k st)
    | none =>
      let h := tabGap s.work.gals 1
      let openAs := fun (s : State) (g : Galley) => settle (finish (repin (s.setGalley h g)) k stOK 0 h)
      if bitOf (c.par 12 1) 0 then
        match readAll s c.host g.head 64 with
        | (.stop ra w, s1) => stopAt s1 k ra rRead w
        | (.ok b, s1) =>
          if leAt b 0 4 != 0x44414548 || leAt b 4 2 != 1 || leAt b 8 4 != g.chunks then settle (finish s1 k stMALFORMED)
          else openAs s1 { g with ckpt := leAt b 16 8, usedC := leAt b 12 4 }
      else
        underSeq c (fun s => match writeAll s c.host g.head (List.replicate 64 0) with
          | (.stop ra w, s1) => stopAt s1 k ra rWrite w
          | (.ok (), s1) => openAs s1 g) s

/-- The opener's rights on every region (R276). -/
def galOpenRights (s : State) (c : Cmd) : Option (Nat × Rights × Nat) :=
  firstRefusal ((galOf c).regions.map fun r => spanRights c.host (rRead ||| rWrite) s r.1 r.2)
/-- The placement of the regions is judged where the rights hold; otherwise step 5 refuses (log 17). -/
def specGalOpen : OpSpec := {
  form := .desc [64]
  valid := fun s c =>
    let g := galOf c
    decide (1 ≤ g.chunks) && decide (g.chunks ≤ 65536) && decide (2 * g.chunks ≤ g.slots) && decide (g.slots ≤ 2 ^ 20)
      && decide (c.par 12 1 ≤ 1) && c.par 13 3 == 0 && c.par 48 16 == 0 && g.gal % chunkB == 0 && g.store % chunkB == 0
      && g.proof % 4096 == 0 && g.head % 64 == 0 && g.regions.all (fun r => decide (r.1 + r.2 ≤ 2 ^ 52)) && apart g.regions
      && ((galOpenRights s c).isSome || galRangesOk s c.host g)
  rights := galOpenRights
  admits := fun s c => galStop s { galOf c with ext := galExtents s c.host (galOf c) }
  act := galOpenAct }

/-! ## The other commands (R278, R279, R291) -/

/-- Step 5 of a command that names a galley: open, not closing, and the opener's (R278). -/
def galRights (s : State) (c : Cmd) : Option (Nat × Rights × Nat) :=
  match s.galley (c.par 16 1) with
  | some g => if g.host = c.host && g.closing.isNone then none else some (1, 0, 0)
  | none => some (1, 0, 0)

def galCloseAct (s : State) (k : Nat) : State :=
  match s.cmd k with
  | none => s
  | some c => match s.galley (c.par 16 1) with
    | none => settle (finish s k stMALFORMED)
    | some g =>
      if g.closing.isSome then settle (finish s k stMALFORMED)
      else tellAccepted (settle ((s.setCmd k { c with st := .finishing }).setGalley (c.par 16 1) { g with closing := some k })) k
def specGalClose : OpSpec := { valid := fun _ c => zeroB c.raw 17 31, rights := galRights, act := galCloseAct }

/-- GAL_BEGIN: INGEST with a new USED; MALFORMED in LOCKUP (R279). -/
def galBeginAct (s : State) (k : Nat) : State :=
  match s.cmd k with
  | none => s
  | some c => match s.galley (c.par 16 1) with
    | none => settle (finish s k stMALFORMED)
    | some g =>
      if g.state = 3 then settle (finish s k stMALFORMED)
      else settle (finish (s.setGalley (c.par 16 1) { g with state := 2, used := c.par 20 4 }) k stOK 0 (2 ^ 64 * (g.ckpt + 1)))
def specGalBegin : OpSpec := {
  valid := fun s c => zeroB c.raw 17 3 && zeroB c.raw 24 24 && decide (1 ≤ c.par 20 4) && (match s.galley (c.par 16 1) with
    | some g => decide (c.par 20 4 ≤ g.chunks)
    | none => true)
  rights := galRights
  act := galBeginAct }

def galQueryAct (s : State) (k : Nat) : State :=
  match s.cmd k with
  | none => s
  | some c => match s.galley (c.par 16 1) with
    | none => settle (finish s k stMALFORMED)
    | some g => settle (finish s k stOK 0 (g.state + 2 ^ 32 * g.used + 2 ^ 64 * g.ckpt))
def specGalQuery : OpSpec := { valid := fun _ c => zeroB c.raw 17 31, rights := galRights, act := galQueryAct }

/-! ## Lock-up (R281-R288) -/

/-- Partitions that hold chunks of GAL. -/
def Galley.parts (g : Galley) : Nat := ((List.range 8).filter fun p => g.partChunks p != 0).length
/-- R_HASH and R_AUX of the ACCEPTED reply (R286). -/
def lockRates (s : State) (c : Cmd) : List Nat :=
  match s.galley (c.par 16 1) with
  | none => [0, 0]
  | some g =>
    [144000 * g.parts, idleRate s (2 * proofB g.chunks + 64) [spanSlices s g.host g.proof (2 * proofB g.chunks), spanSlices s g.host g.head 64]]

/-- A GAL_LOCKUP in IDLE is MALFORMED (R279). -/
def specGalLockup : OpSpec := {
  valid := fun _ c => zeroB c.raw 17 31
  rights := galRights
  admits := fun s c => match s.galley (c.par 16 1) with
    | some g => if g.state = 1 then some stMALFORMED else none
    | none => none
  size := fun s c => (s.galley (c.par 16 1)).map fun g =>
    (g.used * chunkB, [regionSlices s g.host g.store (g.slots * chunkB) (g.used * chunkB)])
  rates := lockRates
  total := fun s c => (s.galley (c.par 16 1)).map (·.used) }

/-- The lock-up of a galley that may start: the earliest accepted that is ready. -/
def nextLockup (s : State) (g : Nat) : Option (Nat × Cmd) :=
  s.store.cmds.foldl (fun b e =>
    if opcodeOf e.2.raw = 0x0503 && e.2.par 16 1 = g && e.2.st == .ready then match b with
      | none => some e
      | some x => if e.2.seq < x.2.seq then some e else b
    else b) none

/-- Energy estimate of a lock-up in mJ (R471): its power over the hashing time. -/
def lockEnergy (s : State) (c : Cmd) : Nat := opPower s c * (c.size / max (c.aux.getD 0 1) 1) / 1000000000

/-- Serves the lines that DMA still writes to a galley: its state, and whether one is left (R281). -/
def drainGal (s : State) (g : Galley) : Bool × State :=
  let mine := fun (r : ChReq) => r.tile.isSome && r.write && g.holds r.ppa
  let s := drainReqs s mine
  (s.mem.chq.any fun e => e.2.reqs.any mine, s)
/-- LOCKUP_READY (R281, R288): writes whose service had started complete, the galley enters LOCKUP and hashing may start. A lock-up that is
ready while another runs waits for its end. -/
def lockupReady (s : State) (i : Nat) : State :=
  match s.galley i, nextLockup s i with
  | some g, some (k, c) =>
    if g.state = 3 || s.pwr.hold || !serving s || heldOn s c then s
    else if g.state = 1 then settle (finish s k stMALFORMED)
    else if !energyFits s (lockEnergy s c) then settle (finish (energyRefused s) k stENERGY)
    else match drainGal s g with
    | (true, s) => s
    | (false, s) => match startOp s k { c with total := g.used, progress := 0 } with
      | none => s
      | some s1 =>
        let s1 := if c.mirSeq != 0 && s1.mir.state == 1 && s1.mir.inStep
          then sendMir s1 (mirHead 2 4 ++ leBytes 8 9 ++ leBytes 8 c.mirSeq ++ leBytes 8 0) else s1
        s1.setGalley i { g with state := 3, lock := some k, prev := none, leaves := [], table := [], changed := 0 }
  | _, _ => s
def execLockupReady (g : Nat) (s : State) : Host.Outcome State Fault Refusal :=
  onInst (decide (1 ≤ g) && decide (g ≤ 16)) (if pairHeld s then s else lockupReady s g)

/-- A proof copy of the galley. -/
def Galley.copy (g : Galley) (ckpt : Nat) : Nat := g.proof + (ckpt % 2) * proofB g.chunks

/-- The first free store slot at or after `n`: not listed in P (R285); `fuel` bounds the slots. -/
def freeSlotFrom (listed : List Nat) : Nat → Nat → Nat
  | 0, n => n
  | fuel + 1, n => if listed.contains n then freeSlotFrom listed fuel (n + 1) else n

/-- The slot after the last one that a changed chunk took. -/
def nextSlotFrom (g : Galley) (listed : List Nat) : Nat :=
  (g.table.filter fun x => !listed.contains x).foldl (fun m x => max m (x + 1)) 0

/-- Reads the leaves and the slot table of the committed checkpoint's proof copy; nothing where none is committed (R285). -/
def readProof (s : State) (g : Galley) : Span (List (List Byte) × List Nat) × State :=
  if g.ckpt = 0 then (.ok ([], []), s)
  else
    let a := g.copy g.ckpt
    match readAll s g.host a 64 with
    | (.stop ra w, s1) => (.stop ra w, s1)
    | (.ok hd, s1) =>
      let n := min (leAt hd 16 4) g.chunks
      match readAll s1 g.host (a + 64) (32 * n) with
      | (.stop ra w, s2) => (.stop ra w, s2)
      | (.ok lv, s2) => match readAll s2 g.host (a + 64 + 32 * g.chunks) (4 * n) with
        | (.stop ra w, s3) => (.stop ra w, s3)
        | (.ok tb, s3) =>
          (.ok ((List.range n).map fun i => (lv.drop (32 * i)).take 32, (List.range n).map fun i => leAt tb (4 * i) 4), s3)

/-- The rest of a proof copy, beyond the leaves: its header, zeros, and the slot table (R283). -/
def proofHeader (g : Galley) (root : List Byte) : List Byte :=
  leBytes 4 0x50524F46 ++ leBytes 2 1 ++ leBytes 2 0 ++ leBytes 8 (g.ckpt + 1) ++ leBytes 4 g.used ++ leBytes 4 g.changed
    ++ leBytes 8 0 ++ padTo 32 root
def proofTail (g : Galley) : List Byte :=
  padTo (proofB g.chunks - 64 - 32 * g.used)
    (List.replicate (32 * (g.chunks - g.used)) 0 ++ g.table.flatMap (leBytes 4))

/-- Exports of the checkpoint whose slots the lock-up may reuse are running (R289). -/
def exportsPrev (s : State) (i : Nat) (g : Galley) : Bool :=
  s.store.cmds.any fun e => opcodeOf e.2.raw == 0x0504 && e.2.par 16 1 == i && e.2.started && e.2.aux.getD 0 0 + 1 == g.ckpt

/-- What becomes of a lock-up whose unit of `bytes` bytes did not complete: it ends (R288), or a fault suspends it (R287). -/
def stopLock (s : State) (k ra : Nat) (acc : Rights) (w : Acc Unit) (bytes : Nat) : State :=
  match w with
  | .held => s
  | .poisoned => stopAt (granStart s k bytes) k ra acc .poisoned
  | .offline p => stopAt (if p < 8 then granStart s k bytes else s) k ra acc (.offline p)
  | w => stopAt s k ra acc w

/-- The end of a lock-up: ROOT, the copy's table and header, and HEAD as the commit (R284, R285). -/
def lockupCommit (s : State) (k i : Nat) (g : Galley) : State :=
  let root := merkleRoot (g.used + 1) g.leaves
  let a := g.copy (g.ckpt + 1)
  let bytes := proofB g.chunks - 32 * g.used + 64
  match writeMany s g.host [(a + 64 + 32 * g.used, proofTail g), (a, proofHeader g root), (g.head, headLine g.chunks g.used (g.ckpt + 1) root)] with
  | (.stop ra w, s1) => stopLock s1 k ra rWrite w bytes
  | (.ok (), s1) =>
    let s2 := (granStart s1 k bytes).setGalley i { g with
      state := 1, lock := none, prev := none, leaves := [], table := [], changed := 0, ckpt := g.ckpt + 1
      usedC := g.used, usedP := g.usedC, prevGone := g.ckpt == 0 }
    match s2.cmd k with
    | none => s2
    | some c =>
      settle (finish s2 k (endStatus c) g.used (g.changed + 2 ^ 32 * (g.used - g.changed) + 2 ^ 64 * (g.ckpt + 1)))

/-- The next chunk (R285): its leaf, and a changed chunk's copy in its slot; the first slot write waits for exports of the checkpoint
before. The proof was read first where `fresh` bytes of it say so. -/
def lockChunk (s : State) (k i : Nat) (g : Galley) (pl : List (List Byte)) (ps : List Nat) (fresh : Nat) : State :=
  let n := g.leaves.length
  match readAll s g.host (g.gal + n * chunkB) chunkB with
  | (.stop ra w, s1) => stopLock s1 k ra rRead w (chunkB + 32 + fresh)
  | (.ok bs, s1) =>
    let leaf := leafHash bs
    let same := pl[n]? == some leaf
    let slot := if same then ps.getD n 0 else freeSlotFrom ps g.slots (nextSlotFrom g ps)
    let bytes := (if same then chunkB else 2 * chunkB) + 32 + fresh
    if !same && exportsPrev s1 i g then s1
    else match writeMany s1 g.host ((g.copy (g.ckpt + 1) + 64 + 32 * n, leaf) :: if same then [] else [(g.store + slot * chunkB, bs)]) with
      | (.stop ra w, s2) => stopLock s2 k ra rWrite w bytes
      | (.ok (), s2) => (granDone s2 k bytes).setGalley i { g with
          leaves := g.leaves ++ [leaf], table := g.table ++ [slot], changed := if same then g.changed else g.changed + 1
          prevGone := g.prevGone || !same }

/-- CHUNK_HASH_COMPLETE (R285, R287): the next unit of the running lock-up; with the last chunk done, the commit. A
cancellation takes effect between units. -/
def chunkHash (s : State) (i : Nat) : State :=
  match s.galley i with
  | none => s
  | some g => match g.lock with
    | none => s
    | some k => match s.cmd k with
      | none => s
      | some c =>
        if c.st != .running && c.st != .stopping then s
        else afterUnit c (underSeq c (fun s => match g.prev with
          | none => (match readProof s g with
            | (.stop ra w, s1) => stopLock s1 k ra rRead w 0
            | (.ok (pl, ps), s1) => lockStep s1 k i { g with prev := some (pl, ps) } pl ps (64 + 36 * ps.length))
          | some (pl, ps) => lockStep s k i g pl ps 0) s) k
where
  lockStep (s : State) (k i : Nat) (g : Galley) (pl : List (List Byte)) (ps : List Nat) (fresh : Nat) : State :=
    let s := s.setGalley i g
    if g.leaves.length < g.used then
      let s1 := lockChunk s k i g pl ps fresh
      match s1.galley i with
      | some g1 => if g1.leaves.length = g1.used && g1.lock == some k then lockupCommit s1 k i g1 else s1
      | none => s1
    else lockupCommit s k i g
def execChunkHashComplete (g : Nat) (s : State) : Host.Outcome State Fault Refusal :=
  onInst (decide (1 ≤ g) && decide (g ≤ 16)) (chunkHash s g)

/-! ## Export (R289, R290) -/

/-- The checkpoint that a GAL_EXPORT names, with its USED; none where it is not retained. -/
def exportCkpt (g : Galley) (which : Nat) : Option (Nat × Nat) :=
  if which = 0 then (if g.ckpt = 0 then none else some (g.ckpt, g.usedC))
  else if g.prevGone || g.ckpt < 2 then none else some (g.ckpt - 1, g.usedP)

/-- Bytes the granule of an export of chunk `i` costs: read and written. -/
def exportVerify (c : Cmd) : Bool := bitOf (c.par 19 1) 0

/-- The hash in progress of an export: `aux` holds the checkpoint, the mismatches, the first of them, the eight hash words,
and the pending bytes with their number. -/
def exportHash (c : Cmd) : List Nat × List Byte :=
  if c.progress % 1024 = 0 then (shaInit, [0])
  else (((c.aux.drop 3).take 8), leBytes (c.aux.getD 12 0) (c.aux.getD 11 0))
def exportAux (c : Cmd) (mism first : Nat) (st : List Nat × List Byte) : Cmd :=
  { c with aux := [c.aux.getD 0 0, mism, first] ++ st.1 ++ [leNat st.2, st.2.length] }

/-- Is the checkpoint of an export still retained (R289)? One that runs keeps it. -/
def exportKept (g : Galley) (ckpt : Nat) : Bool := ckpt == g.ckpt || (ckpt + 1 == g.ckpt && !g.prevGone)

/-- One granule of an export: 4 KiB of a store slot to its destination; at the end of a chunk VERIFY compares its leaf. -/
def exportStep (s : State) (k : Nat) : State :=
  match s.cmd k with
  | none => s
  | some c => match s.galley (c.par 16 1) with
    | none => settle (finish s k stMALFORMED c.progress)
    | some g =>
      let copy := g.copy (c.aux.getD 0 0)
      let i := c.par 20 4 + c.progress / 1024
      let o := c.progress % 1024 * 4096
      let dst := c.par 32 8 + c.progress * 4096
      let last := exportVerify c && c.progress % 1024 == 1023
      if !exportKept g (c.aux.getD 0 0) then settle (finish s k stMALFORMED c.progress)
      else underSeq c (fun s =>
        match readMany c.host [(copy + 64 + 32 * g.chunks + 4 * i, 4), (copy + 64 + 32 * i, if last then 32 else 0)] s [] with
        | (.stop ra w, s1) => stopGran s1 k ra rRead w 8192
        | (.ok pf, s1) => match readAll s1 c.host (g.store + leNat (pf.getD 0 []) * chunkB + o) 4096 with
          | (.stop ra w, s2) => stopGran s2 k ra rRead w 8192
          | (.ok bs, s2) =>
            match (if c.par 18 1 = 0 then writeAll s2 c.host dst bs
                else (.ok (), putUnit s2 c.host 3 dst (c.par 32 8 + c.total * 4096 + 32 * c.progress) bs)) with
            | (.stop ra w, s3) => stopGran s3 k ra rWrite w 8192
            | (.ok (), s3) =>
              let st := if exportVerify c then shaFeed (exportHash c) bs else ([], [])
              let bad := last && shaFinish st (chunkB + 1) != pf.getD 1 []
              let mism := c.aux.getD 1 0 + (if bad then 1 else 0)
              let first := if bad && c.aux.getD 1 0 == 0 then i else c.aux.getD 2 (2 ^ 32 - 1)
              endIfLast (granDone s3 k 8192 fun c => exportAux c mism first st) k fun c =>
                if exportVerify c then c.aux.getD 1 0 + 2 ^ 32 * c.aux.getD 2 0 else 0) s

def specGalExport : OpSpec := {
  valid := fun _ c => decide (c.par 17 1 ≤ 1) && (c.par 18 1 == 0 || c.par 18 1 == 2) && decide (c.par 19 1 ≤ 1)
    && zeroB c.raw 28 4 && zeroB c.raw 40 8 && c.par 32 8 % 4096 == 0 && decide (1 ≤ c.par 24 4)
    && (c.par 18 1 == 2 || decide (c.par 32 8 + c.par 24 4 * chunkB ≤ 2 ^ 52))
    && (match c.chan with
      | .ring _ => true
      | .rank _ => c.par 18 1 == 0)
  rights := fun s c => match s.galley (c.par 16 1) with
    | none => some (1, 0, 0)
    | some g =>
      if g.closing.isSome then some (1, 0, 0)
      else firstRefusal [spanRights c.host rRead s g.store (g.slots * chunkB),
        spanRights c.host rRead s g.proof (2 * proofB g.chunks),
        if c.par 18 1 = 0 then rightsAt s c.host (c.par 32 8) rWrite else none]
  admits := fun s c => match s.galley (c.par 16 1) with
    | none => none
    | some g => match exportCkpt g (c.par 17 1) with
      | none => some stMALFORMED
      | some (_, used) => if c.par 20 4 + c.par 24 4 ≤ used then none else some stMALFORMED
  rates := fun s c => match s.galley (c.par 16 1) with
    | none => []
    | some g => [((exportCkpt g (c.par 17 1)).getD (0, 0)).1, 0, 2 ^ 32 - 1]
  size := fun s c => (s.galley (c.par 16 1)).map fun g =>
    let n := c.par 24 4 * chunkB
    (2 * n, [regionSlices s c.host g.store (g.slots * chunkB) n, if c.par 18 1 = 0 then spanSlices s c.host (c.par 32 8) n else [(30, n)]])
  total := fun _ c => some (1024 * c.par 24 4)
  step := some exportStep }

def execGalOpen (c : CmdIn) (s : State) : Host.Outcome State Fault Refusal :=
  done (receive s (some specGalOpen) (withOpcode c 0x0500))
def execGalClose (c : CmdIn) (s : State) : Host.Outcome State Fault Refusal :=
  done (receive s (some specGalClose) (withOpcode c 0x0501))
def execGalBegin (c : CmdIn) (s : State) : Host.Outcome State Fault Refusal :=
  done (receive s (some specGalBegin) (withOpcode c 0x0502))
def execGalLockup (c : CmdIn) (s : State) : Host.Outcome State Fault Refusal :=
  done (receive s (some specGalLockup) (withOpcode c 0x0503))
def execGalExport (c : CmdIn) (s : State) : Host.Outcome State Fault Refusal :=
  done (receive s (some specGalExport) (withOpcode c 0x0504))
def execGalQuery (c : CmdIn) (s : State) : Host.Outcome State Fault Refusal :=
  done (receive s (some specGalQuery) (withOpcode c 0x0505))

end Sys2Proof.Machine
end

