-- ==== Sys2Proof/Machine/Ranges.lean ====
section
/-! DEFINITION. The range and translation commands (R96-R104) and the events of translation faults (R99-R101). -/
namespace Sys2Proof.Machine

/-! ## Extents and commits (R80, R81, R93-R95, R97) -/

/-- Is the range of RANGE_ID `rid` protected from destruction and moves: bound weights (R126), galleys (R277), windows (R295)? -/
def protectedRange (s : State) (rid : Nat) (e : RangeE) : Bool := (tabFind s.iso.bound rid).isSome || heldRange s e

/-- The extents in use in a tier of a partition, as (offset, length): of both copies, and the targets of moves. -/
def usedExtents (s : State) (cream : Bool) (p : Nat) : List (Nat × Nat) :=
  let here := fun (ppa : Nat) => ppaCream ppa == cream && ppaPart ppa == p
  let of : Tab RangeE → List (Nat × Nat) := fun t => (t.filter fun e => here e.2.ppa).map fun e => (ppaOff e.2.ppa, 4096 * e.2.lenG)
  let moves := (s.store.cmds.filter fun e => opcodeOf e.2.raw == 0x0108 && e.2.started && here (e.2.aux.getD 2 0)).map fun (e : Nat × Cmd) =>
    (ppaOff (e.2.aux.getD 2 0), 4096 * e.2.total)
  -- segments that wait for their zero pass (R386)
  let seg := 2 ^ 18 * (chan0 s p).rows
  let segs := if cream then [] else (s.part p).zeroed.map fun i => (i * seg, seg)
  of s.xlt.dirA ++ of s.xlt.dirS ++ moves ++ segs

/-- The lowest free extent of `n` bytes (the manual leaves the choice to the device: DESIGN CHOICE, log 16). -/
def freeExtent (s : State) (cream : Bool) (p n : Nat) : Option Nat :=
  let used := usedExtents s cream p
  let ok := fun (o : Nat) => decide (o + n ≤ mappable s cream p) && used.all fun u => disjointSpans o n u.1 u.2
  (0 :: used.map fun u => u.1 + u.2).foldl (fun best o =>
    if !ok o then best else match best with
      | none => some o
      | some b => some (min b o)) none

/-- The ranges that the shadow copy changes. -/
def changedRanges (s : State) : List Nat :=
  (((s.xlt.dirA.map (·.1)) ++ (s.xlt.dirS.map (·.1))).eraseDups).filter fun i => tabFind s.xlt.dirA i != tabFind s.xlt.dirS i
/-- Does a command wait on a range (R97, R102): a RANGE_DESTROY, an ADVISE or a gating PREFETCH (log 44)? `aux` of one that waits holds it. -/
def waitsOn (c : Cmd) (rid : Nat) : Bool :=
  (opcodeOf c.raw == 0x0106 || opcodeOf c.raw == 0x0108 || opcodeOf c.raw == 0x0109) && c.st == .ready && !c.started && c.aux == [rid]
/-- Publishes the shadow copy (R93, R94): one epoch, and the cache entries of changed ranges are removed; of every range where
more than 256 changed. An ADVISE or a gating PREFETCH that waits on a range which is no more is refused late (R102). -/
def commitRanges (s : State) : State :=
  let changed := changedRanges s
  let all := decide (256 < changed.length)
  let gone := changed.filter fun i => (tabFind s.xlt.dirA i).map (fun e => (e.iaStart, e.lenG)) != (tabFind s.xlt.dirS i).map fun e => (e.iaStart, e.lenG)
  let orphans := s.store.cmds.filter fun e => opcodeOf e.2.raw != 0x0106 && gone.any (waitsOn e.2)
  let s := dropRanges { s with xlt := { s.xlt with dirA := s.xlt.dirS, epoch := s.xlt.epoch + 1 } } fun i => all || changed.contains i
  orphans.foldl (fun s e => lateRefusal s e.1 0 rWrite (e.2.par 16 8)) s

/-- Lines of stream DMA that wait at memory stops or controllers, at a gate or a window's snoop, after `drainDma`. -/
def dmaLeft (s : State) (f : ChReq → Bool) : Bool :=
  (s.mem.chq.any fun e => e.2.reqs.any fun r => r.tile.isSome && f r)
    || s.qos.points.any fun e => e.2.items.any fun i => match i.work with
      | .burst _ l => l.any f
      | _ => false
/-- Was a line translated through a range that the shadow copy changes? -/
def ofChanged (s : State) (r : ChReq) : Bool := ((changedRanges s).filterMap (tabFind s.xlt.dirA)).any fun e =>
  decide (e.ppa ≤ r.ppa) && decide (r.ppa < e.ppa + 4096 * e.lenG)
/-- Completes a command that changes the shadow copy by `f`. Without HOLD it commits, once no granule that was translated through a changed
range is under way (R92, R95); until then it waits. -/
def publish (s : State) (k : Nat) (hold : Bool) (result : State → Nat) (f : State → State) : State :=
  if hold then settle (finish (f s) k stOK 0 (result (f s)))
  else
    let s := drainDma s
    let t := f s
    if dmaLeft t (ofChanged t) then tellAccepted s k
    else
      let t := commitRanges t
      settle (finish t k stOK 0 (result t))

/-- Does an earlier accepted command wait on the same range (R102)? -/
def waitsBefore (s : State) (c : Cmd) (rid : Nat) : Bool := s.store.cmds.any fun e => waitsOn e.2 rid && decide (e.2.seq < c.seq)
/-- Must the command wait for a range: it is being moved or gated, or another came first? -/
def rangeShut (s : State) (c : Cmd) (rid : Nat) : Bool := unsettledRange s rid || waitsBefore s c rid
/-- The command waits on the range. -/
def waitRange (s : State) (k : Nat) (c : Cmd) (rid : Nat) : State := tellAccepted (s.setCmd k { c with aux := [rid] }) k

/-! ## RANGE_CREATE, RANGE_DESTROY, XLT_COMMIT (R97) -/

def rangeCreateAct (s : State) (k : Nat) : State :=
  match s.cmd k with
  | none => s
  | some c =>
    let ia := c.par 16 8
    let n := c.par 24 4
    let cream := c.par 28 1 == 1
    let p := c.par 29 1
    let rid := tabGap (s.xlt.dirS.foldl (fun t e => tabIns t e.1 e.2) s.xlt.dirA) 0
    if s.xlt.dirS.any fun e => !disjointSpans ia (4096 * n) e.2.iaStart (4096 * e.2.lenG) then settle (finish s k stMALFORMED)
    else if !s.online p then settle (finish s k stOFFLINE)
    else if mappable s cream p < 4096 * n then settle (finish s k stMALFORMED)
    else if (!cream && (s.part p).parked) || 2 ^ 20 ≤ rid then settle (finish s k stRESOURCES)
    else match freeExtent s cream p (4096 * n) with
      | none => settle (finish s k stRESOURCES)
      | some o =>
        let e : RangeE := { iaStart := ia, lenG := n, ceil := BitVec.ofNat 3 (c.par 30 1), ppa := ppaOf cream p o }
        publish s k (c.par 31 1 != 0) (fun _ => rid) fun s => { s with xlt := { s.xlt with dirS := tabIns s.xlt.dirS rid e } }

def specRangeCreate : OpSpec := {
  valid := fun _ c => addrOk (c.par 16 8) && c.par 16 8 % 4096 == 0 && decide (1 ≤ c.par 24 4) && decide (c.par 24 4 ≤ 2 ^ 29)
    && decide (c.par 28 1 ≤ 1) && decide (c.par 29 1 < 8) && decide (c.par 30 1 < 8) && decide (c.par 31 1 ≤ 1)
    && zeroB c.raw 32 16 && decide (c.par 16 8 + 4096 * c.par 24 4 ≤ 2 ^ 52)
  rights := adminOnly
  act := rangeCreateAct }

def rangeDestroyAct (s : State) (k : Nat) : State :=
  match s.cmd k with
  | none => s
  | some c =>
    let rid := c.par 16 4
    match tabFind s.xlt.dirS rid with
    | none => settle (finish s k stMALFORMED)
    | some e =>
      if protectedRange s rid e then settle (finish s k stMALFORMED)
      else if rangeShut s c rid then waitRange s k c rid
      else publish s k (c.par 31 1 != 0) (fun _ => 0) fun s => { s with xlt := { s.xlt with dirS := tabDel s.xlt.dirS rid } }

def specRangeDestroy : OpSpec := {
  valid := fun _ c => decide (c.par 16 4 < 2 ^ 20) && zeroB c.raw 20 11 && decide (c.par 31 1 ≤ 1) && zeroB c.raw 32 16
  rights := adminOnly
  act := rangeDestroyAct }

def xltCommitAct (s : State) (k : Nat) : State := publish s k false (·.xlt.epoch.toNat) id
def specXltCommit : OpSpec := { valid := fun _ c => zeroB c.raw 16 32, rights := adminOnly, act := xltCommitAct }

/-! ## RANGE_QUERY (R96) -/

/-- Bytes 0–15 of a directory entry (R83). -/
def entryHead (e : RangeE) : Nat :=
  e.iaStart + 2 ^ 64 * e.lenG + 2 ^ 96 * (1 + 2 * e.ceil.toNat + flag e.stream 4 + flag e.pin 6 + flag e.migrating 7 + flag e.gated 8)

/-- What a host with some right on the range of an address finds: the first of read, write and atomic that is permitted. -/
def anyRight (s : State) (h a : Nat) : Look × Rights × State :=
  let r := lookup s h a rRead
  let w := lookup s h a rWrite
  let m := lookup s h a rAtomic
  match r.1, w.1, m.1 with
  | .ok .., _, _ => (r.1, rRead, r.2)
  | _, .ok .., _ => (w.1, rWrite, w.2)
  | _, _, .ok .. => (m.1, rAtomic, m.2)
  | .refused _, .fault _, _ => (w.1, rWrite, w.2)
  | .refused _, _, .fault _ => (m.1, rAtomic, m.2)
  | _, _, _ => (r.1, rRead, r.2)

def rangeQueryAct (s : State) (k : Nat) : State :=
  match s.cmd k with
  | none => s
  | some c => match anyRight s c.host (c.par 16 8) with
    | (.ok _ rid, _, s1) => settle (finish s1 k stOK 0 (match s1.range rid with
        | some e => entryHead e
        | none => 0))
    | (w, acc, s1) => stopAt s1 k (c.par 16 8) acc w.why

def specRangeQuery : OpSpec := {
  valid := fun _ c => addrOk (c.par 16 8) && zeroB c.raw 24 24
  rights := fun s c => match anyRight s c.host (c.par 16 8) with
    | (.refused cause, acc, _) => some (cause, acc, c.par 16 8)
    | _ => none
  act := rangeQueryAct }

/-! ## ADVISE (R102) -/

/-- Host identities with a right on a range in the active isolation table. -/
def holdersOf (s : State) (rid : Nat) : Nat :=
  ((s.iso.grantsA.filter fun g => g.2.rid == rid && g.2.rights != 0).map (·.2.host)).eraseDups.length

/-- HOT and COLD: the outcomes in order, then the move: target extent, MIGRATING, and the copy as a granular operation. -/
def adviseMove (s : State) (k : Nat) (c : Cmd) (rid : Nat) (e : RangeE) : State :=
  let cream := c.par 24 1 == 0
  let p := c.par 25 1
  if e.pin || protectedRange s rid e then settle (finish s k stMALFORMED)
  else if !s.online p then settle (finish s k stOFFLINE)
  else if ppaCream e.ppa == cream && ppaPart e.ppa == p then settle (finish s k stOK)
  else if !cream && (s.part p).parked then settle (finish s k stRESOURCES)
  else match freeExtent s cream p (4096 * e.lenG) with
    | none => settle (finish s k stRESOURCES)
    | some o => match startOp s k { c with total := e.lenG, aux := [rid, e.ppa, ppaOf cream p o] } with
      | none => waitRange s k c rid
      | some s1 => entryCommit s1 rid fun e => { e with migrating := true }

def adviseAct (s : State) (k : Nat) : State :=
  match s.cmd k with
  | none => s
  | some c => match lookup s c.host (c.par 16 8) rWrite with
    | (.ok _ rid, s1) => match s1.range rid with
      | none => settle (finish s1 k stMALFORMED)
      | some e =>
        if rangeShut s1 c rid then waitRange s1 k c rid
        else match c.par 24 1 with
          | 2 => settle (finish (entryCommit s1 rid fun e => { e with stream := !e.stream }) k stOK)
          | 3 =>
            let set := c.par 25 1 == 0
            if set && decide (1024 < pinnedOf (s1.slice (ppaPart e.ppa)) + holdersOf s1 rid) then settle (finish s1 k stRESOURCES)
            else settle (finish (entryCommit s1 rid fun e => { e with pin := set }) k stOK)
          | _ => adviseMove s1 k c rid e
    | (w, s1) => stopAt s1 k (c.par 16 8) rWrite w.why

/-- Moves one line, poisoned lines as poisoned lines: whether it was poisoned. -/
def moveLine (s : State) (src dst : Nat) : Bool × State :=
  match readLine s src with
  | (some bs, s1) => (false, writeLine s1 dst bs)
  | (none, s1) => (true, poisonLine (digestWrite s1 dst (List.replicate 64 0)) dst)

/-- The lines of a granule whose latest value an agent of a window holds come from it (R301); moved ranges hold no window. -/
def moveGran (s : State) (src dst : Nat) : Nat × State :=
  (List.range 64).foldl (fun a i => let (bad, s1) := moveLine a.2 (src + 64 * i) (dst + 64 * i)
                                    (a.1 + (if bad then 1 else 0), s1)) (0, s)

/-- The next granule of a move; with the last, the new PPA_BASE is committed with MIGRATING = 0 (R102). Lines that DMA still has under way
in the granule, and at the end in the old extent, are served first (R95). -/
def adviseStep (s : State) (k : Nat) : State :=
  match s.cmd k with
  | none => s
  | some c =>
    let old := c.aux.getD 1 0 + 4096 * c.progress
    let new := c.aux.getD 2 0 + 4096 * c.progress
    if !tierUp s (ppaCream old) (ppaPart old) || !tierUp s (ppaCream new) (ppaPart new) then settle (finish s k stOFFLINE c.progress c.count)
    else underSeq c (fun s =>
      let s := drainReqs s fun r => r.tile.isSome && r.ppa / 4096 == old / 4096
      let (bad, s1) := moveGran (seeDisputed s (c.aux.headD 0)) old new
      let s2 := granDone s1 k 8192 fun c => { c with count := satAdd 32 c.count bad }
      match s2.cmd k with
      | none => s2
      | some c2 =>
        if c2.progress < c2.total then s2
        else
          let s3 := entryCommit (drainDma s2) (c.aux.headD 0) fun e => { e with ppa := c.aux.getD 2 0, migrating := false }
          settle (finish s3 k (if c2.count = 0 then endStatus c2 else stPOISONED) c2.progress c2.count [] (c2.count == 2 ^ 32 - 1))) s

/-- The raw outcome of a lookup that writes no data: a DIR or GAL region refuses no ADVISE. -/
def rawRights (s : State) (h a : Nat) (acc : Rights) : Option (Nat × Rights × Nat) :=
  match (lookup s h a acc).1 with
  | .refused cause => some (cause, acc, a)
  | _ => none

def specAdvise : OpSpec := {
  valid := fun _ c => addrOk (c.par 16 8) && zeroB c.raw 26 22 && (match c.par 24 1 with
    | 0 => decide (c.par 25 1 < 8)
    | 1 => decide (c.par 25 1 < 8)
    | 2 => c.par 25 1 == 0
    | 3 => c.par 25 1 % 128 == 0
    | _ => false)
  rights := fun s c => rawRights s c.host (c.par 16 8) rWrite
  size := fun s c => if 2 ≤ c.par 24 1 then none else match lookup s c.host (c.par 16 8) 0 with
    | (.ok _ rid, s1) => match s1.range rid with
      | some e =>
        let n := 4096 * e.lenG
        let dst := sliceOf (ppaOf (c.par 24 1 == 0) (c.par 25 1) 0)
        if !rangeShut s c rid && (e.pin || sliceOf e.ppa == dst) then none
        else some (n, [[(sliceOf e.ppa, n)], [(dst, n)]])
      | none => none
    | _ => none
  act := adviseAct
  step := some adviseStep }

/-! ## PREFETCH (R103, R104, R341) -/

def prefKind (c : Cmd) : Nat := c.par 40 1
def prefGate (c : Cmd) : Bool := c.par 41 1 == 1
def prefLen (c : Cmd) : Nat := c.par 24 8

/-- Starts a PREFETCH; with GATE the range is gated for the life of the command, once no other gate or move is on it (log 44). -/
def prefetchAct (s : State) (k : Nat) : State :=
  match s.cmd k with
  | none => s
  | some c => match lookup s c.host (c.par 16 8) rWrite with
    | (.ok ppa rid, s1) =>
      let off := ppa - ((s1.range rid).map (·.ppa)).getD ppa
      if prefGate c && rangeShut s1 c rid then waitRange s1 k c rid
      else match startOp s1 k { c with total := prefLen c / 4096, aux := [rid, if prefGate c then 1 else 0, off] } with
        | none => s1
        | some s2 => if prefGate c then entryCommit s2 rid fun e => { e with gated := true } else s2
    | (w, s1) => stopAt s1 k (c.par 16 8) rWrite w.why

/-- Reads the lines of a part of a source granule, from `a` with its bytes at PPA `r`: none for the bytes of a poisoned line. -/
def prefLines (read : State → Nat → Nat → Acc (List Byte) × State) (a r n : Nat) :
    List Nat → State → List (Option Byte) → Span (List (Option Byte)) × State
  | [], s, acc => (.ok acc, s)
  | o :: os, s, acc =>
    let m := min (n - o) (64 - (a + o) % 64)
    match read s (r + o) m with
    | (.ok bs, s1) => prefLines read a r n os s1 (acc ++ bs.map some)
    | (.poisoned, s1) => prefLines read a r n os s1 (acc ++ List.replicate m none)
    | (w, s1) => (.stop (a + o) w.void, s1)
/-- Reads `n` bytes of the source from `a`, granule by granule; `fuel` bounds them. -/
def prefRead (h : Nat) : Nat → State → Nat → Nat → List (Option Byte) → Span (List (Option Byte)) × State
  | 0, s, _, _, acc => (.ok acc, s)
  | fuel + 1, s, a, n, acc =>
    let k := min n (4096 - a % 4096)
    if n = 0 then (.ok acc, s)
    else match lookup s h a rRead with
      | (.ok ppa rid, s1) => match place s1 rid ppa with
        | .held => (.stop a .held, s1)
        | .at_ r _ => match prefLines (reader s1 h rid) a r k (lineCuts a k) (noteStops (seeDisputed s1 rid) r (lineCuts a k)) [] with
          | (.ok bs, s2) => prefRead h fuel s2 (a + k) (n - k) (acc ++ bs)
          | r => r
      | (w, s1) => (.stop a w.why, s1)

/-- Writes a granule of a PREFETCH, which its own gate does not hold: lines with a byte of a poisoned source line go as poisoned lines and
are counted. -/
def prefPut (s : State) (k : Nat) (c : Cmd) (bs : List (Option Byte)) : State :=
  let a := c.par 16 8 + 4096 * c.progress
  let bad := (List.range 64).filter fun i => ((bs.drop (64 * i)).take 64).any (·.isNone)
  let s0 := s.setCmd k { c with progress := c.progress + 1 }
  match prepSpans [(c.host, a, bs.map (·.getD 0))] s0 [] with
  | (.stop ra w, s1) => stopGran (s1.setCmd k c) k ra rWrite w 8192
  | (.ok ws, s1) => match putAll ws s1 with
    | (.stop ra w, s2) => stopGran (s2.setCmd k c) k ra rWrite w 8192
    | (.ok (), s2) =>
      let s2 := (ws.flatMap (·.places)).foldl (fun s p => bad.foldl (fun s i => poisonLine s (p + 64 * i)) s) s2
      let s2 := { s2 with work := { s2.work with remote := tabDel s2.work.remote k } }
      let s3 := flushZeros (granDone (s2.setCmd k { c with count := satAdd 32 c.count bad.length }) k 8192)
      match s3.cmd k with
      | none => s3
      | some c3 =>
        if c3.progress < c3.total then s3
        else settle (finish s3 k (if c3.count = 0 then endStatus c3 else stPOISONED) c3.progress c3.count [] (c3.count == 2 ^ 32 - 1))

/-- Sends the remote read of a granule (R341): at most 256 are outstanding per port. -/
def sendRrd (s : State) (k : Nat) (c : Cmd) : State :=
  let rank := c.par 44 4
  match s.rankE rank with
  | none => settle (finish s k stACCESS c.progress)
  | some e =>
    let port := fun (r : Nat) => (s.rankE r).map fun (x : RankE) => x.portA
    let busy := (s.work.rrds.filter fun x => port x.2.2.1 == some e.portA).length
    if 256 ≤ busy then s
    else
      let txn := ((List.range 65536).find? fun i => (tabFind s.work.rrds ((s.work.rrdTxn + i) % 65536)).isNone).getD 0
      let txn := (s.work.rrdTxn + txn) % 65536
      let body := leBytes 8 (c.par 32 8 + 4096 * c.progress) ++ leBytes 4 4096 ++ leBytes 4 0
      let s := { s with work := { s.work with rrds := tabIns s.work.rrds txn (k, rank, s.now), rrdTxn := (txn + 1) % 65536 } }
      s.sendPkt { ty := 0, rank := rank, ptype := 3, tc := tcOfPrio c.prio, txn := txn, body := body }

/-- The next granule of a PREFETCH, by SRC_KIND. -/
def prefetchStep (s : State) (k : Nat) : State :=
  match s.cmd k with
  | none => s
  | some c =>
    let src := c.par 32 8 + 4096 * c.progress
    underSeq c (fun s => match prefKind c with
      | 0 => (match prefRead c.host 3 s src 4096 [] with
        | (.stop ra w, s1) => stopGran s1 k ra rRead w 8192
        | (.ok bs, s1) => prefPut s1 k c bs)
      | 1 => (match tabFind s.work.remote k with
        | some bs => prefPut s k c (bs.map some)
        | none => if s.work.rrds.any (·.2.1 == k) then s else sendRrd s k c)
      | _ => (match takeUnit s c.host 3 src (c.par 32 8 + prefLen c + 32 * c.progress) 4096 c.raw with
        | (none, s1) => settle (finish s1 k stMALFORMED c.progress)
        | (some bs, s1) => prefPut s1 k c (bs.map some))) s

def specPrefetch : OpSpec := {
  form := .either [64]
  valid := fun s c => addrOk (c.par 16 8) && c.par 16 8 % 4096 == 0 && prefLen c % 4096 == 0 && decide (4096 ≤ prefLen c)
    && decide (prefLen c ≤ 2 ^ 41) && decide (c.par 16 8 + prefLen c ≤ 2 ^ 52) && decide (prefKind c ≤ 2) && decide (c.par 41 1 ≤ 1)
    && c.par 42 2 == 0 && (prefKind c != 0 || decide (c.par 32 8 + prefLen c ≤ 2 ^ 52))
    && (if prefKind c = 1 then decide (c.par 44 4 < 2 ^ 20) && (s.rankE (c.par 44 4)).isSome else c.par 44 4 == 0)
    && (prefKind c != 2 || (match c.chan with
      | .ring _ => true
      | .rank _ => false))
    && (!descBit c.raw || (leNat (c.desc.take 16) == 0 && leNat (c.desc.drop 48) == 0))
    && !spanLeaves s c.host (c.par 16 8) (prefLen c) rWrite
  rights := fun s c => firstRefusal [rightsAt s c.host (c.par 16 8) rWrite,
    if prefKind c = 0 then rightsAt s c.host (c.par 32 8) rRead else none]
  size := fun s c =>
    let n := prefLen c
    some (n, [match prefKind c with
      | 0 => spanSlices s c.host (c.par 32 8) n
      | 1 => [(16 + ((s.rankE (c.par 44 4)).map (·.portA)).getD 0, n)]
      | _ => [(30, n)], spanSlices s c.host (c.par 16 8) n])
  act := prefetchAct
  step := some prefetchStep }

/-! ## XLT_S1_ROOT and XLT_INVALIDATE (R92, R98) -/

/-- The issuer is the stage-1 owner of a valid host identity (R96, R98). -/
def ownerOnly (s : State) (h host : Nat) : Option (Nat × Rights × Nat) :=
  match s.host h with
  | none => some (8, 0, 0)
  | some e => if e.s1Owner = host then none else some (1, 0, 0)

/-- The first refusal over the ranges of an IA span, under stage 2 alone; `fuel` bounds the ranges. -/
def iaRights (s : State) (h : Nat) (acc : Rights) : Nat → Nat → Nat → Option (Nat × Rights × Nat)
  | 0, _, _ => none
  | fuel + 1, ia, n =>
    if n = 0 then none
    else match stage2 s h ia acc with
      | .error cause => some (cause, acc, ia)
      | .ok (_, _, e, _) =>
        let k := max 1 (min n (e.iaStart + 4096 * e.lenG - ia))
        iaRights s h acc fuel (ia + k) (n - k)

/-- Does some part of an IA span lie in skim? -/
def iaSkim (s : State) : Nat → Nat → Nat → Bool
  | 0, _, _ => false
  | fuel + 1, ia, n =>
    if n = 0 then false
    else match findRange s.xlt.dirA ia with
      | none => false
      | some (_, e) =>
        let k := max 1 (min n (e.iaStart + 4096 * e.lenG - ia))
        !ppaCream e.ppa || iaSkim s fuel (ia + k) (n - k)

/-- Is a line of a run of host `h`? -/
def ofHost (s : State) (h : Nat) (r : ChReq) : Bool := match r.tile with
  | some (n, _) => (runOf s n).any fun e => e.2.host == h
  | none => false
/-- Removes cache entries of host `h` and makes the change `g`, once no granule that was translated for the host is under way (R92). -/
def dropHost (s : State) (k h : Nat) (f : RcE → Bool) (g : State → State) : State :=
  let s := drainDma s
  if dmaLeft s (ofHost s h) then tellAccepted s k else settle (finish (rcRemove (g s) f) k stOK)

def s1RootAct (s : State) (k : Nat) : State :=
  match s.cmd k with
  | none => s
  | some c =>
    let h := c.par 28 2
    let f : HostE → HostE := fun e => { e with
      s1Table := c.par 16 8, s1Count := c.par 24 4, fq := c.par 32 8, fqLog2 := c.par 40 1, fqSync := c.par 42 2 }
    let upd := fun (t : Tab HostE) => match tabFind t h with
      | some e => tabIns t h (f e)
      | none => t
    dropHost s k h (fun e => e.host == h) fun s => { s with iso := { s.iso with hostsA := upd s.iso.hostsA, hostsS := upd s.iso.hostsS } }

/-- TABLE, which is checked only where COUNT is not 0 (R98). -/
def s1TableOk (c : Cmd) : Bool := c.par 24 4 == 0
  || (addrOk (c.par 16 8) && c.par 16 8 % 32 == 0 && decide (c.par 16 8 + 32 * c.par 24 4 ≤ 2 ^ 52))
def specXltS1Root : OpSpec := {
  valid := fun _ c => s1TableOk c && decide (c.par 24 4 ≤ 65536) && zeroB c.raw 30 2
    && addrOk (c.par 32 8) && c.par 32 8 % 32 == 0 && decide (c.par 40 1 ≤ 6) && zeroB c.raw 41 1
    && decide (c.par 42 2 < 16384) && zeroB c.raw 44 4 && decide (c.par 32 8 + 32 * 2 ^ c.par 40 1 ≤ 2 ^ 52)
  rights := fun s c => firstRefusal [ownerOnly s (c.par 28 2) c.host,
    iaRights s c.host rRead (spanFuel (32 * c.par 24 4)) (c.par 16 8) (32 * c.par 24 4),
    iaRights s c.host rWrite (spanFuel (32 * 2 ^ c.par 40 1)) (c.par 32 8) (32 * 2 ^ c.par 40 1)]
  admits := fun s c => if iaSkim s (spanFuel (32 * c.par 24 4)) (c.par 16 8) (32 * c.par 24 4) then some stMALFORMED else none
  act := s1RootAct }

def invalidateAct (s : State) (k : Nat) : State :=
  match s.cmd k with
  | none => s
  | some c =>
    let hit := fun (e : RcE) => e.host == c.par 28 2
      && (c.par 24 4 == 0 || !disjointSpans e.start e.len (c.par 16 8) (4096 * c.par 24 4))
    dropHost s k (c.par 28 2) hit id

def specXltInvalidate : OpSpec := {
  valid := fun _ c => addrOk (c.par 16 8) && c.par 16 8 % 4096 == 0 && zeroB c.raw 30 18
  rights := fun s c => ownerOnly s (c.par 28 2) c.host
  act := invalidateAct }

/-! ## Translation faults (R99-R101) -/

/-- Ends a fault and its command with FAULT_PENDING (R101): a run traps FAULT_ABORT, a contribution abandons its step. -/
def abortFault (s : State) (f : XFault) : State :=
  let s := endFault s f
  match f.tile with
  | some (n, _) => settle (trapTile s n 7 0)
  | none => match s.cmd f.key with
    | none => s
    | some c =>
      if opcodeOf c.raw = 0x0311 then closeSlot (abandonStep s (c.par 16 2) (c.par 20 4) stFAULT_PENDING true) (c.par 16 2)
      else settle (finish s f.key stFAULT_PENDING c.progress)

/-- Resumes after ACTION 0 (R101): the faulting granule is translated again when the operation continues. A cancellation that is pending
wins (R71), and a run goes on once none of its tiles faults. -/
def resumeFault (s : State) (f : XFault) : State :=
  let s := endFault s f
  match s.cmd f.key with
  | none => s
  | some c =>
    let s := match f.tile with
      | some (n, e) => onEng s n e fun x => { x with held := false }
      | none => s
    if c.st != .suspended then s
    else match f.tile with
      | some _ =>
        if s.xlt.pending.any (·.key == f.key) then s
        else
          let s := (runTiles s c).foldl (fun s m => s.setTile m { s.tile m with startAt := s.now }) s
          settle (s.setCmd f.key { c with st := .running })
      | none => s.setCmd f.key { c with st := if opcodeOf c.raw = 0x0311 && !c.started then .ready else .resuming }

/-- Ends a fault as escalation does, and counts it (R101, R105). -/
def escalateFault (s : State) (f : XFault) : State :=
  abortFault { s with xlt := { s.xlt with escalated := satAdd 32 s.xlt.escalated 1 } } f
/-- Has a fault's escalation time run out? On a standby the active's event tells it (R399). -/
def faultOver (s : State) (f : XFault) : Bool := decide (f.expiry ≤ s.now) && !pairHeld s
/-- The fault of an XLT_FAULT_RESUME. -/
def faultNamed (s : State) (c : Cmd) : Option XFault := s.xlt.pending.find? fun f => f.id.toNat == c.par 16 4

/-- A resume at the expiry or later finds the fault ended (R101). -/
def resumeAct (s : State) (k : Nat) : State :=
  match s.cmd k with
  | none => s
  | some c => match faultNamed s c with
    | none => settle (finish s k stOK)
    | some f =>
      if faultOver s f then settle (finish (escalateFault s f) k stOK)
      else settle (finish (if c.par 20 1 = 0 then resumeFault s f else abortFault s f) k stOK 0 1)

def specXltFaultResume : OpSpec := {
  valid := fun _ c => decide (c.par 20 1 ≤ 1) && zeroB c.raw 21 27
  rights := fun s c => match faultNamed s c with
    | some f => if f.owner = c.host || faultOver s f then none else some (1, 0, 0)
    | none => none
  act := resumeAct }

/-- XLT_FAULT_ESCALATION (R101): a fault unresolved for its escalation time. -/
def execXltFaultEscalation (fid : W32) (s : State) : Host.Outcome State Fault Refusal :=
  done (match s.xlt.pending.find? fun f => f.id == fid && faultOver s f with
    | some f => escalateFault s f
    | none => s)

/-- The 32 bytes of a fault record (R100). -/
def faultRecord (f : XFault) (c : Cmd) : List Byte :=
  leBytes 8 f.ga ++ leBytes 2 f.host ++ leBytes 1 f.kind ++ leBytes 1 f.access.toNat ++ leBytes 4 (srcOf c.raw)
    ++ leBytes 4 (tagOf c.raw) ++ leBytes 2 (opcodeOf c.raw) ++ leBytes 2 0 ++ leBytes 4 f.id.toNat ++ leBytes 4 0

/-- The record of a fault has been written into its slot: FQ_SYNC is signalled (R99, R100). -/
def recordWritten (s : State) (f : XFault) (ia sync : Nat) : State :=
  let s := { s with xlt := { s.xlt with
    pending := s.xlt.pending.map fun g => if g.id = f.id then { g with written := true, slotIA := ia } else g } }
  settle (applyUpd s sync (.signal 1))
/-- FAULT_RECORD_WRITE (R99, R100): into its slot of the owner's queue, once the slot is free and no gate holds it. A record that cannot be
written ends its fault as escalation does. -/
def faultRecordWrite (s : State) (f : XFault) : State :=
  match s.host f.host, s.cmd f.key with
  | some he, some c =>
    let ia := he.fq + 32 * (f.id.toNat % 2 ^ he.fqLog2)
    if (s.xlt.pending.any fun g => g.written && g.slotIA == ia) || s.xlt.zeros.contains ia then s
    else match (if (s.host he.s1Owner).isSome then stage2 s he.s1Owner ia rWrite else .error 8) with
      | .error _ => escalateFault s f
      | .ok (ppa, rid, _, _) => if wrShut s ppa then escalateFault s f else match place s rid ppa with
        | .held => s
        | .at_ _ ws => match writePlaces (faultRecord f c) ws s with
          | (.ok (), s1) => recordWritten s1 f ia he.fqSync
          | (.held, s1) => s1
          | (_, s1) => escalateFault s1 f
  | _, _ => escalateFault s f
def execFaultRecordWrite (fid : W32) (s : State) : Host.Outcome State Fault Refusal :=
  done (match s.xlt.pending.find? fun f => f.id == fid && !f.written with
    | some f => faultRecordWrite s f
    | none => s)

def execRangeCreate (c : CmdIn) (s : State) : Host.Outcome State Fault Refusal :=
  done (receive s (some specRangeCreate) (withOpcode c 0x0105))
def execRangeDestroy (c : CmdIn) (s : State) : Host.Outcome State Fault Refusal :=
  done (receive s (some specRangeDestroy) (withOpcode c 0x0106))
def execRangeQuery (c : CmdIn) (s : State) : Host.Outcome State Fault Refusal :=
  done (receive s (some specRangeQuery) (withOpcode c 0x0107))
def execAdvise (c : CmdIn) (s : State) : Host.Outcome State Fault Refusal :=
  done (receive s (some specAdvise) (withOpcode c 0x0108))
def execPrefetch (c : CmdIn) (s : State) : Host.Outcome State Fault Refusal :=
  done (receive s (some specPrefetch) (withOpcode c 0x0109))
def execXltS1Root (c : CmdIn) (s : State) : Host.Outcome State Fault Refusal :=
  done (receive s (some specXltS1Root) (withOpcode c 0x0200))
def execXltInvalidate (c : CmdIn) (s : State) : Host.Outcome State Fault Refusal :=
  done (receive s (some specXltInvalidate) (withOpcode c 0x0201))
def execXltFaultResume (c : CmdIn) (s : State) : Host.Outcome State Fault Refusal :=
  done (receive s (some specXltFaultResume) (withOpcode c 0x0202))
def execXltCommit (c : CmdIn) (s : State) : Host.Outcome State Fault Refusal :=
  done (receive s (some specXltCommit) (withOpcode c 0x0203))

end Sys2Proof.Machine
end

