-- ==== Sys2Proof/Machine/Cancel.lean ====
section
/-! DEFINITION. Cancellation (R70, R71, R189, R250, R287) and the opcode CANCEL. -/
namespace Sys2Proof.Machine

/-- Notes who waits for the end of the command. -/
def markCancel (s : State) (k : Nat) (c : Cmd) (by_ : Option Nat) (st : CmdSt) : State :=
  s.setCmd k { c with cancelBy := by_, st := st }

/-- Stops a run (R189): a RESTARTABLE one at its GRAN instructions, any other at the next instruction boundary of each tile. -/
def stopRun (s : State) (c : Cmd) : State :=
  let restart := match s.prog c.runHandle with
    | some p => p.restart
    | none => false
  (runTiles s c).foldl (fun s n => if restart then s.setTile n { s.tile n with stopReq := true } else stopTile s n) s

/-- A suspended run is cancelled: its fault records are discarded and its tiles trap FAULT_ABORT (R71, R172). -/
def abortRun (s : State) (k : Nat) : State :=
  let fs := s.xlt.pending.filter (·.key == k)
  let s := fs.foldl endFault s
  fs.foldl (fun s f => match f.tile with
    | some (n, _) => trapTile s n 7 0
    | none => s) s

/-- Cancels the command in slot `k`. The outcome of R70; none where the target still runs to its granule boundary, and its end
decides (`by_` is the CANCEL that waits for it). -/
def cancelCmd (s : State) (k : Nat) (by_ : Option Nat) : Option Nat × State :=
  match s.cmd k with
  | none => (some 0, s)
  | some c =>
    let op := opcodeOf c.raw
    let contribution := fun (out : Nat) =>
      if c.started then (some 0, s)
      else (some out, closeSlot (abandonStep s (c.par 16 2) (c.par 20 4) stCANCELLED true) (c.par 16 2))
    match c.st with
    | .finishing => (some 0, s)
    | .stopping => (some 0, s)
    | .held | .ready | .queued | .heldUnit =>
      if op = 0x0311 then contribution 1
      else (some (if c.started then 2 else 1), settle (finish s k stCANCELLED c.progress))
    | .preempted | .resuming =>
      if op = 0x0311 then contribution 2 else (some 2, settle (finish s k stCANCELLED c.progress))
    | .suspended =>
      if op = 0x0311 then contribution 2
      else if op = 0x0381 then (none, settle (abortRun (markCancel s k c by_ .stopping) k))
      else (some 2, settle (finish s k stCANCELLED c.progress))
    | .running =>
      if op = 0x0311 then (some 0, s)
      else if op = 0x0381 then (none, settle (stopRun (markCancel s k c by_ .stopping) c))
      else if c.total ≤ c.progress + 1 then (some 0, s)
      else (none, markCancel s k c by_ .stopping)

/-- Cancels every outstanding command that `f` picks (R74, R75, R108): the commands that stand there now. -/
def cancelAll (s : State) (f : Cmd → Bool) : State :=
  (s.store.cmds.filter fun e => f e.2).foldl (fun s e => (cancelCmd s e.1 none).2) s

/-- Granules that a command has done (R49): a run counts those of its tiles (R175). -/
def progressNow (s : State) (c : Cmd) : Nat :=
  if opcodeOf c.raw = 0x0381 && (c.st = .running || c.st = .stopping || c.st = .suspended) then max c.progress (runProgress s (runTiles s c)) else c.progress
/-- Ends every command that `f` picks at once with CANCELLED, as at a granule boundary (R108 step 2, log 29). -/
def cancelNow (s : State) (f : Cmd → Bool) : State :=
  settle ((s.store.cmds.filter fun e => f e.2).foldl (fun s e => match s.cmd e.1 with
    | some c => finish s e.1 stCANCELLED (progressNow s c)
    | none => s) s)

/-- Effect of CANCEL (R70): on the command of its channel with TARGET_TAG. -/
def cancelAct (s : State) (k : Nat) : State :=
  match s.cmd k with
  | none => s
  | some c =>
    match s.store.cmds.find? fun e => e.1 != k && e.2.chan == c.chan && tagOf e.2.raw == c.par 16 4 with
    | none => settle (finish s k stOK 0 0)
    | some (j, _) =>
      match cancelCmd (s.setCmd k { c with st := .finishing }) j (some k) with
      | (some out, s1) => settle (finish s1 k stOK 0 out)
      | (none, s1) => tellAccepted s1 k
def specCancel : OpSpec := { valid := fun _ c => zeroB c.raw 20 28, act := cancelAct }
def execCancel (c : CmdIn) (s : State) : Host.Outcome State Fault Refusal :=
  done (receive s (some specCancel) (withOpcode c 0x0F01))

end Sys2Proof.Machine
end

