-- ==== Sys2Proof/Machine/Tenancy.lean ====
section
/-! DEFINITION. The tenant life cycle, the tenant requests to SEC, binding sets and weight images (R106-R126). A row of this
file is the moment at which SEC takes the request; SEC takes none before its firmware runs or while it restarts. -/
namespace Sys2Proof.Machine

/-! ## Responses and sessions (R112) -/

/-- Response codes. -/
def rSUCCESS : Nat := 0
def rSTATE : Nat := 1
def rBAD_TICKET : Nat := 2
def rTABLE_FULL : Nat := 3
def rBAD_IMAGE : Nat := 4
def rBAD_PARAM : Nat := 5
def rBUSY : Nat := 6
def rNO_SESSION : Nat := 7

/-- Does SEC take requests: its firmware loaded, no STANDBY_REFUSED (R106), and SEC not restarting (R464)? -/
def secServes (s : State) : Bool :=
  decide (3 ≤ s.boot.stage) && decide (s.boot.stage ≤ 7) && !s.boot.inReset && !s.flt.failed && !s.saf.tripped && !unitDown s (unitOf 5 0)

/-- A session that is mutually authenticated with the administrator key. -/
def secAuth (s : State) (sess : Option Nat) : Bool :=
  s.iso.tenant == 1 && match sess with
    | none => false
    | some i => match tabFind s.iso.sessions i with
      | some x => x.established && x.mutualKey == some s.iso.adminKey
      | none => false

/-- The framing of a request that came in a session, or outside any. -/
def framed : Option Nat → Framing
  | none => .plain
  | some i => .session i
/-- A response, in the framing of its request. -/
def respond (s : State) (via : Framing) (req code : Nat) (body : List Byte := []) : State := s.send (.sec via req code body)

/-- Bytes that a scrub writes in a partition, and has written `t` ns after its start (R109). -/
def scrubBytes (s : State) (p : Nat) : Nat := creamSize s + skimSize s p
def scrubbedAt (s : State) (p t : Nat) : Nat :=
  min (creamSize s) (9 * sliceRate s p * t / 10000) + min (skimSize s p) (9 * sliceRate s (8 + p) * t / 10000)
/-- `ISO_SCRUB.PERMILLE`, held at 999 until all report (R109). Of a partition that left, only the bytes it had written count. -/
def permille (s : State) : Nat :=
  if s.iso.tenant != 3 then s.iso.permille
  else
    let sum := fun (f : Nat → Nat) => s.iso.scrubParts.foldl (fun n p => n + f p) 0
    let b := sum fun p => match tabFind s.iso.scrubLeft p with
      | some n => n
      | none => if bitOf s.iso.pendingP.toNat p then scrubbedAt s p (s.now - s.iso.scrubAt) else scrubBytes s p
    let all := sum fun p => (tabFind s.iso.scrubLeft p).getD (scrubBytes s p)
    if all = 0 then 0 else min 999 (1000 * b / all)
/-- Partitions with scrubbing outstanding (R132): those being scrubbed, and those that are scrubbed before they return (R110). -/
def scrubsDue (s : State) : Byte := s.iso.offlineScrub.foldl (fun m p => m ||| BitVec.ofNat 8 (2 ^ p)) s.iso.pendingP
/-- `ISO_SCRUB`. -/
def isoScrub (s : State) : Nat := permille s + 2 ^ 10 * (scrubsDue s).toNat

/-- A request that needs a session: refused with NO_SESSION, and with STATE on a pair member that is not the active (R393),
else `f` gives the response. The active forwards what succeeded to its standby, and
responds when the standby has it (R393, log 33). -/
def secRequest (s : State) (sess : Option Nat) (req : Nat) (forward : Option (List Byte)) (f : State → Nat × List Byte × State) : State :=
  let via := framed sess
  if !secServes s then s
  else if s.flt.recovery then respond s via req rBUSY
  else if !secAuth s sess then respond s via req rNO_SESSION
  else if decide (0x10 ≤ req) && decide (req ≤ 0x32) && (pairHeld s || s.mir.state == 5) then respond s via req rSTATE (leBytes 4 (isoScrub s))
  else
    let (code, body, s1) := f s
    match forward with
    | some bs =>
      if code = rSUCCESS && s1.mir.state = 1 && s1.mir.inStep then
        let n := roundUp (1 + bs.length) 8
        let s1 := sendMir s1 (mirHead 7 (1 + n / 8) ++ padTo n (BitVec.ofNat 8 req :: bs))
        { s1 with mir := { s1.mir with answers := s1.mir.answers ++ [(via, req, code, body)] } }
      else respond s1 via req code body
    | none => respond s1 via req code body

/-! ## Claim, release and scrub (R107-R111) -/

/-- The bytes of a ticket that are signed (log 6). -/
def ticketBytes (t : Ticket) : List Byte :=
  t.adminKey ++ leBytes 8 t.tenantId.toNat ++ leBytes 8 t.deviceId.toNat ++ leBytes 8 t.claimCounter ++ t.ownerHash
/-- Is the ticket the operator's, for this device, at its present claim counter (R107)? -/
def ticketOk (s : State) (t : Ticket) : Bool :=
  Config.sha384 t.opKey == s.fuses.opKeyHash && Config.sigOk t.opKey (ticketBytes t) t.sig && t.deviceId == s.fuses.deviceId
    && t.claimCounter == s.iso.claims

/-- The tables and objects that a claim finds empty and a release clears; a tile's count of MMAs stands (R223). -/
def clearTables (s : State) : State :=
  let w := tabMap (fun _ (w : Window) =>
    ({ cause := w.cause, reqs := w.reqs, retries := w.retries, snoops := w.snoops, ovf := w.ovf } : Window)) s.coh.wins
  { s with
    xlt := { s.xlt with dirA := [], dirS := [], caches := [], pending := [], zeros := [] }
    iso := { s.iso with hostsA := [], hostsS := [], grantsA := [], grantsS := [], bindSets := [], bound := [], unwrap := none
                        zeroOnReturn := [], sealKey := [], sealIn := [], sealOut := [] }
    fab := { s.fab with ranksA := [], ranksS := [], cktsA := [], cktsS := [], cktTok := [], selfRank := 0, drain := none }
    qos := { s.qos with streamBuf := [] }
    sync := { s.sync with objs := [], inFlight := [] }
    coh := { s.coh with wins := tabMapD {} (fun _ w => w) w }
    work := {}
    churn := { s.churn with progs := [], tiles := tabMapD {} (fun _ (t : Tile) => ({ offline := t.offline, mmas := t.mmas } : Tile)) s.churn.tiles } }

/-- TENANT_CLAIM (R107); the meters and weights return to their reset values (R135, R147). -/
def claim (s : State) (t : Ticket) : State :=
  if !secServes s then s
  else if s.flt.recovery then respond s .plain 0x01 rBUSY
  else if s.iso.tenant != 0 then respond s .plain 0x01 rSTATE (leBytes 4 (isoScrub s))
  else if !ticketOk s t then respond s .plain 0x01 rBAD_TICKET
  else
    let s := clearTables s
    let s := { s with
      iso := { s.iso with claims := s.iso.claims + 1, keyGen := s.iso.keyGen + 1, keys := true, adminKey := t.adminKey
                          ownerHash := t.ownerHash, tenantId := t.tenantId, tenant := 1, epoch := 0
                          log := [], logNext := 0, dropped := 0 }
      xlt := { s.xlt with epoch := 0 }
      fab := { s.fab with routeEpoch := 0 }
      qos := { s.qos with meters := [], weights := ({} : Qos).weights }
      pwr := { s.pwr with nextB := some (950, 9500) }
      intr := { s.intr with tenant := s.intr.tenant ||| 2 } }
    respond s .plain 0x01 rSUCCESS
def execTenantClaim (t : Ticket) (s : State) : Host.Outcome State Fault Refusal := done (claim s t)

/-- Begins the scrub of R109 in the partitions that are online; with none it has nothing to wait for. -/
def startScrub (s : State) : State :=
  let ps := allParts.filter s.online
  let s := { s with iso := { s.iso with
    tenant := 3, permille := 0, scrubAt := s.now, scrubParts := ps, scrubLeft := [], offlineScrub := allParts.filter fun p => !s.online p
    pendingP := BitVec.ofNat 8 (ps.foldl (fun n p => n + 2 ^ p) 0) } }
  if ps = [] then { s with iso := { s.iso with tenant := 0, permille := 1000 }, intr := { s.intr with tenant := s.intr.tenant ||| 1 } } else s

/-- Zeroes all memory of a partition, the system areas included, with valid check symbols (R109). -/
def scrubPart (s : State) (p : Nat) : State := zeroSpan (zeroSpan s (ppaOf true p 0) (2 ^ 36)) (ppaOf false p 0) (2 ^ 41)

/-- A partition has nothing more to scrub; with the last, the state becomes UNCLAIMED. -/
def scrubDone (s : State) (p : Nat) : State :=
  let m := s.iso.pendingP &&& ~~~(BitVec.ofNat 8 (2 ^ p))
  let s := { s with iso := { s.iso with pendingP := m } }
  if m = 0 then { s with iso := { s.iso with tenant := 0, permille := 1000 }, intr := { s.intr with tenant := s.intr.tenant ||| 1 } } else s

/-- TENANT_SCRUB_COMPLETE (R109). -/
def execTenantScrubComplete (p : Nat) (s : State) : Host.Outcome State Fault Refusal :=
  onInst (decide (p < 8)) (if s.iso.tenant = 3 && bitOf s.iso.pendingP.toNat p && s.online p then scrubDone (scrubPart s p) p else s)

/-- A partition goes offline while the tenant state is SCRUBBING: what it had written still counts, and what it had not is scrubbed before
it returns (R109, R110). -/
def scrubLeave (s : State) (p : Nat) : State :=
  if s.iso.tenant != 3 || !s.iso.scrubParts.contains p || (tabFind s.iso.scrubLeft p).isSome then s
  else
    let left := fun (n : Nat) => { s.iso with scrubLeft := tabIns s.iso.scrubLeft p n }
    if bitOf s.iso.pendingP.toNat p then
      scrubDone { s with iso := { left (scrubbedAt s p (s.now - s.iso.scrubAt)) with offlineScrub := p :: s.iso.offlineScrub } } p
    else { s with iso := left (scrubBytes s p) }

/-- Ends what SEC has under way: a running unwrap and a ROUTE_COMMIT that drains are answered `code`. -/
def endRequests (s : State) (code : Nat) : State :=
  let s := match s.iso.unwrap with
    | some u => { (if pairHeld s then s else respond s u.via 0x31 code) with iso := { s.iso with unwrap := none } }
    | none => s
  match s.fab.drain with
  | some d => if d.back then s else { respond s d.via 0x54 code with fab := { s.fab with drain := none, outq := s.fab.outq.map fun q => { q with held := false } } }
  | none => s

/-- Refusals that `f` picks and whose delay runs are answered CANCELLED instead. -/
def cancelRefusals (s : State) (f : Refused → Bool) : State :=
  ((s.store.refusals.filter f).filter (·.key.isNone)).foldl (fun s r =>
    let x : LoggedReply := { seq := r.seq, chan := r.chan, raw := r.raw, txn := r.txn, prio := r.prio, clamped := r.clamped
                             status := stCANCELLED, ord := r.ord }
    if seqOk s r.seq then sendLogged s x .normal else holdReply s x) { s with store := { s.store with refusals := s.store.refusals.filter fun r => !f r } }

/-- The steps of a release (R108), taken together (log 29). DMA lines already accepted are served before the keys go, and whatever still
waits at a memory stop or controller goes with the commands. -/
def release (s : State) : State :=
  let s := { s with iso := { s.iso with tenant := 2 }, intr := { s.intr with tenant := s.intr.tenant ||| 4 } }
  let s := endRequests s rBUSY
  let s := cancelRefusals (cancelNow (drainDma s) fun _ => true) fun _ => true
  let s := clearTables (dropItems s fun _ => true)
  let chans := tabMapD {} (fun _ (c : ChanSt) => ({ prioMax := c.prioMax, creditMax := c.creditMax } : ChanSt)) s.store.chans
  let s := { s with
    store := { s.store with cmds := [], chans := chans }
    mem := { s.mem with chq := tabMapD {} (fun _ x => { x with reqs := [] }) s.mem.chq }
    mir := { s.mir with copies := [], cohCopies := [] }
    iso := { s.iso with keys := false, adminKey := [], ownerHash := [], tenantId := 0, sessions := [], log := [], dropped := 0 } }
  startScrub s
/-- TENANT_RELEASE (R108, R112): by the administrator, or with an operator ticket. -/
def execTenantRelease (sess : Option Nat) (t : Option Ticket) (s : State) : Host.Outcome State Fault Refusal :=
  let answer := fun (s : State) (code : Nat) (body : List Byte) => respond s (framed sess) 0x02 code body
  done (if !secServes s then s
    else if s.flt.recovery then answer s rBUSY []
    else match t with
      | some t =>
        if s.iso.tenant != 1 then answer s rSTATE (leBytes 4 (isoScrub s))
        else if !ticketOk s t || t.adminKey != s.iso.adminKey || t.tenantId != s.iso.tenantId then answer s rBAD_TICKET []
        else answer (release s) rSUCCESS []
      | none => if secAuth s sess then answer (release s) rSUCCESS [] else answer s rNO_SESSION [])

/-! ## Host identities and grants (R113-R117) -/

/-- May the identity carry this binding set (R124)? -/
def bindAllowed (s : State) (hid path set : Nat) : Bool :=
  set == 0 || match tabFind s.iso.bindSets set with
    | none => false
    | some b =>
      if path = 0 then (s.fab.ranksA.filter fun e => e.2.host == hid).all fun e => b.members.any (·.rank == e.2.hi * 65536 + e.1)
      else b.cpuHost

/-- HOST_SET: the entry without bytes 6 and 8 to 31, which XLT_S1_ROOT writes. -/
def hostSet (s : State) (hid : Nat) (entry : BitVec 256) : Nat × List Byte × State :=
  let x := entry.toNat
  let w := x % 65536
  let path := field w 4 3
  let set := field w 12 5
  let meter := field x 47 32
  if 65535 < hid || field w 15 13 != 0 || field x 63 56 != 0 || 4095 < meter || 16 < set || !bindAllowed s hid path set
  then (rBAD_PARAM, [], s)
  else
    let old := (tabFind s.iso.hostsS hid).getD {}
    let e := { old with
      valid := bitOf w 0, s1En := bitOf w 1, admin := bitOf w 2, path := path, bindSet := set, s1Owner := field x 31 16, meter := meter }
    (rSUCCESS, [], { s with iso := { s.iso with hostsS := tabIns s.iso.hostsS hid e } })
def execHostSet (sess : Option Nat) (hid : Nat) (entry : BitVec 256) (s : State) : Host.Outcome State Fault Refusal :=
  done (secRequest s sess 0x10 (some (leBytes 2 hid ++ leBytes 32 entry.toNat)) fun s => hostSet s hid entry)

/-- HOST_CLEAR: VALID = 0 and no grants, in the shadow copy. -/
def hostClear (s : State) (hid : Nat) : Nat × List Byte × State :=
  if 65535 < hid then (rBAD_PARAM, [], s)
  else
    let hosts := match tabFind s.iso.hostsS hid with
      | some e => tabIns s.iso.hostsS hid { e with valid := false }
      | none => s.iso.hostsS
    (rSUCCESS, [], { s with iso := { s.iso with hostsS := hosts, grantsS := s.iso.grantsS.filter fun g => g.2.host != hid } })
def execHostClear (sess : Option Nat) (hid : Nat) (s : State) : Host.Outcome State Fault Refusal :=
  done (secRequest s sess 0x11 (some (leBytes 2 hid)) fun s => hostClear s hid)

/-- Places a grant in bucket `b`, displacing others between their two buckets in at most `fuel` moves (R115). Which grant of a full bucket
gives way is the model's choice (log 46). -/
def cuckoo (fuel : Nat) (t : Tab Grant) (g : Grant) (b : Nat) : Option (Tab Grant) :=
  match ((List.range 8).map (8 * b + ·)).find? fun i => (tabFind t i).isNone, fuel with
  | some i, _ => some (tabIns t i g)
  | none, 0 => none
  | none, n + 1 =>
    let i := 8 * b + n % 8
    match tabFind t i with
    | none => none
    | some v =>
      let b0 := bucket0 v.host v.rid
      cuckoo n (tabIns t i g) v (if b0 = b then bucket1 v.host v.rid else b0)

/-- Places a new grant: a free place in either bucket, else displacement of at most 512 moves, which begins
in the first bucket (log 46). -/
def placeGrant (t : Tab Grant) (g : Grant) : Option (Tab Grant) :=
  match (grantSlots g.host g.rid).find? fun i => (tabFind t i).isNone with
  | some i => some (tabIns t i g)
  | none => cuckoo 512 t g (bucket0 g.host g.rid)

/-- GRANT_SET (R115, R116, R126): a bound range takes grants only to identities of its set. -/
def grantSet (s : State) (hid rid : Nat) (rights : Rights) : Nat × List Byte × State :=
  let bad := match tabFind s.iso.bound rid with
    | some set => rights != 0 && ((hostIn s.iso.hostsS hid).map (·.bindSet)).getD 0 != set
    | none => false
  if 65535 < hid || 2 ^ 20 ≤ rid || bad then (rBAD_PARAM, [], s)
  else
    let put := fun (t : Tab Grant) => (rSUCCESS, ([] : List Byte), { s with iso := { s.iso with grantsS := t } })
    match grantSlot s.iso.grantsS hid rid with
    | some i => put (if rights = 0 then tabDel s.iso.grantsS i else tabIns s.iso.grantsS i { host := hid, rid := rid, rights := rights })
    | none =>
      if rights = 0 then put s.iso.grantsS
      else match placeGrant s.iso.grantsS { host := hid, rid := rid, rights := rights } with
        | some t => put t
        | none => (rTABLE_FULL, [], s)
def execGrantSet (sess : Option Nat) (hid rid : Nat) (rights : BitVec 3) (s : State) : Host.Outcome State Fault Refusal :=
  done (secRequest s sess 0x20 (some (leBytes 2 hid ++ leBytes 3 rid ++ leBytes 1 rights.toNat)) fun s => grantSet s hid rid rights)

/-- Has the agent's host lost the read or write right on the window's span (R304 cause 5)? -/
def agentLost (s : State) (w : Window) (rank : Nat) : Bool :=
  match s.rankE rank, s.xlt.dirA.find? fun e => decide (e.2.ppa ≤ winLine w 0) && decide (winLine w 0 < e.2.ppa + 4096 * e.2.lenG) with
  | some e, some (rid, _) =>
    let g := grantRights s.iso.grantsA e.host rid
    (s.host e.host).isNone || g &&& rRead = 0 || g &&& rWrite = 0
  | _, _ => false
/-- Windows that a commit takes down. -/
def downRights (s : State) : State :=
  (s.coh.wins.filter fun w => w.2.state == 1 && w.2.agents.any (agentLost s w.2)).foldl (fun s w => windowDown s w.1 5) s

/-- ISO_COMMIT (R117): both shadows become active; entries of changed pairs leave the caches, all entries where more than 256
pairs changed. The lines they translated are served first. -/
def isoCommit (s : State) : Nat × List Byte × State :=
  let s := drainDma s
  let a := s.iso.grantsA
  let b := s.iso.grantsS
  let pairs := ((a ++ b).map fun g => (g.2.host, g.2.rid)).eraseDups
  let changed := pairs.filter fun p => grantRights a p.1 p.2 != grantRights b p.1 p.2
  let hosts := ((s.iso.hostsA ++ s.iso.hostsS).map (·.1)).eraseDups.filter fun h => tabFind s.iso.hostsA h != tabFind s.iso.hostsS h
  let s := { s with iso := { s.iso with hostsA := s.iso.hostsS, grantsA := b, epoch := s.iso.epoch + 1 } }
  let s := rcRemove s fun e => decide (256 < changed.length) || hosts.contains e.host || changed.contains (e.host, e.rid)
  (rSUCCESS, [], settle (downRights s))
/-- Must the commit still wait for a line that a window holds? -/
def commitWaits (s : State) (sess : Option Nat) : Bool :=
  secServes s && !s.flt.recovery && secAuth s sess && !pairHeld s && s.mir.state != 5 && dmaLeft (drainDma s) fun _ => true
def execIsoCommit (sess : Option Nat) (s : State) : Host.Outcome State Fault Refusal :=
  done (if commitWaits s sess then drainDma s else secRequest s sess 0x21 (some []) isoCommit)

/-! ## The administrator log (R121) -/

/-- The 32 bytes of a record. -/
def logBytes (r : LogRec) : List Byte :=
  leBytes 8 r.time ++ leBytes 2 r.host ++ leBytes 1 r.cause ++ leBytes 1 r.access.toNat ++ leBytes 4 r.src.toNat ++ leBytes 4 r.tag.toNat
    ++ leBytes 2 r.opcode.toNat ++ leBytes 2 r.dropped ++ leBytes 8 r.addr
def logRead (s : State) (first : W32) (count : Nat) : Nat × List Byte × State :=
  if count = 0 || 64 < count then (rBAD_PARAM, [], s)
  else
    let n := s.iso.log.length
    let num : Nat → Nat := fun i => (s.iso.logNext.toNat + 2 ^ 32 - n + i) % 2 ^ 32
    let sel := ((List.range n).zip s.iso.log).filter fun e => decide ((num e.1 + 2 ^ 32 - first.toNat) % 2 ^ 32 < count)
    let next := s.iso.logNext.toNat
    let head := match sel with
      | (i, _) :: _ => num i
      | [] => next
    let body := leBytes 4 head ++ leBytes 2 sel.length ++ leBytes 2 0 ++ leBytes 4 next ++ leBytes 4 0 ++ sel.flatMap fun e => logBytes e.2
    let log := ((List.range n).zip s.iso.log).map fun e => if sel.any (·.1 == e.1) then { e.2 with seen := true } else e.2
    (rSUCCESS, body, { s with iso := { s.iso with log := log, dropped := 0 } })
def execLogRead (sess : Option Nat) (first : W32) (count : Nat) (s : State) : Host.Outcome State Fault Refusal :=
  done (secRequest s sess 0x40 none fun s => logRead s first count)

/-! ## Binding sets and weight images (R124-R126) -/

/-- The bytes of a manifest that are signed, and that are forwarded to a standby (log 6). -/
def manifestBytes (m : Manifest) : List Byte :=
  [BitVec.ofNat 8 m.setId, if m.cpuHost then 1 else 0] ++ leBytes 2 m.members.length
    ++ m.members.flatMap (fun x => leBytes 8 x.devId.toNat ++ leBytes 4 x.rank) ++ m.wrappedKey
def bindsetLoad (s : State) (m : Manifest) : Nat × List Byte × State :=
  if m.setId = 0 || 16 < m.setId || 4096 < m.members.length || !m.members.any (·.devId == s.fuses.deviceId)
    || Config.sha384 m.ownerKey != s.iso.ownerHash || !Config.sigOk m.ownerKey (manifestBytes m) m.sig then (rBAD_PARAM, [], s)
  else (rSUCCESS, [], { s with iso := { s.iso with
    bindSets := tabIns s.iso.bindSets m.setId { key := m.wrappedKey, members := m.members, cpuHost := m.cpuHost } } })
def execBindsetLoad (sess : Option Nat) (m : Manifest) (s : State) : Host.Outcome State Fault Refusal :=
  done (secRequest s sess 0x30 (some (manifestBytes m)) fun s => bindsetLoad s m)

/-- A write by SEC of consecutive bytes, line by line; a part of a line keeps the rest of it, or zeros where the line was poisoned. -/
def secWrite (s : State) (a : Nat) (bs : List Byte) : State :=
  (lineCuts a bs.length).foldl (fun s o =>
    let b := (bs.drop o).take (64 - (a + o) % 64)
    if b.length = 64 then writeLine s (a + o) b
    else match mergeLine s (a + o) b with
      | (some s1, _) => s1
      | (none, s1) => writeLine s1 (a + o) (List.replicate ((a + o) % 64) 0 ++ b)) s

/-- Binds a range to a set: grants to identities of other sets go, in both copies, with their cache entries (R126). -/
def bindRange (s : State) (rid set : Nat) : State :=
  let keep : Tab HostE → Nat × Grant → Bool := fun t g => g.2.rid != rid || ((hostIn t g.2.host).map (·.bindSet)).getD 0 == set
  let gone := s.iso.grantsA.filter fun g => !keep s.iso.hostsA g
  let s := { s with iso := { s.iso with
    grantsA := s.iso.grantsA.filter (keep s.iso.hostsA), grantsS := s.iso.grantsS.filter (keep s.iso.hostsS)
    bound := tabIns s.iso.bound rid set } }
  rcRemove s fun e => e.rid == rid && gone.any fun g => g.2.host == e.host

/-- WEIGHT_UNWRAP: header and destination checked; the response follows the last chunk (`none`). A request that fails changes nothing. -/
def weightUnwrap (s : State) (via : Framing) (src dst hid : Nat) : Option Nat × State :=
  if s.iso.unwrap.isSome then (some rBUSY, s)
  else match readGran s hid src 128 with
    | (.stop _ (.offline _), _) => (some rBUSY, s)
    | (.stop _ .held, _) => (some rBUSY, s)
    | (.stop _ _, _) => (some rBAD_PARAM, s)
    | (.ok h, s1) =>
      let set := leAt h 4 4
      let len := leAt h 8 8
      if leAt h 0 4 != 1 || leAt h 68 60 != 0 then (some rBAD_IMAGE, s)
      else if (tabFind s1.iso.bindSets set).isNone then (some rBAD_PARAM, s)
      else match lookup s1 hid dst 0 with
        | (.ok ppa rid, s2) => match s2.range rid with
          | none => (some rBAD_PARAM, s)
          | some e =>
            if e.ppa + 4096 * e.lenG < ppa + len || ppa % 64 != 0 then (some rBAD_PARAM, s)
            else if e.migrating || e.gated then (some rBUSY, s)
            else if !tierUp s2 (ppaCream ppa) (ppaPart ppa) then (some rBUSY, s)
            else
              let s3 := bindRange (drainDma s2) rid set
              if len = 0 then (some rSUCCESS, s3)
              else (none, { s3 with iso := { s3.iso with unwrap := some {
                rid := rid, dstPpa := ppa, setId := set, length := len, next := 0, src := src, host := hid, header := h, via := via } } })
        | (.offline _, _) => (some rBUSY, s)
        | _ => (some rBAD_PARAM, s)
/-- WEIGHT_UNWRAP under the session rules; the standby unwraps its own copy. -/
def execWeightUnwrap (sess : Option Nat) (src dst : W64) (hid : Nat) (s : State) : Host.Outcome State Fault Refusal :=
  let via := framed sess
  done (if !secServes s then s
    else if s.flt.recovery then respond s via 0x31 rBUSY
    else if !secAuth s sess then respond s via 0x31 rNO_SESSION
    else if pairHeld s || s.mir.state == 5 then respond s via 0x31 rSTATE (leBytes 4 (isoScrub s))
    else match weightUnwrap s via src.toNat dst.toNat hid with
      | (some code, s1) => respond s1 via 0x31 code
      | (none, s1) =>
        if s1.mir.state = 1 && s1.mir.inStep then
          sendMir s1 (mirHead 7 4 ++ padTo 24 (0x31 :: leBytes 8 src.toNat ++ leBytes 8 dst.toNat ++ leBytes 2 hid)) else s1)

/-- Ends a running unwrap with a response. -/
def unwrapEnd (s : State) (code : Nat) : State :=
  match s.iso.unwrap with
  | none => s
  | some u =>
    let s := { s with iso := { s.iso with unwrap := none } }
    if pairHeld s then s else respond s u.via 0x31 code
/-- Zeroes a destination and ends its binding. -/
def unbindZero (s : State) (rid : Nat) : State :=
  match s.range rid with
  | some e => { zeroSpan s e.ppa (4096 * e.lenG) with iso := { s.iso with bound := tabDel s.iso.bound rid } }
  | none => s

/-- A partition that holds the destination of a running unwrap goes offline: the request fails with BUSY, and the destination is zeroed when
the partition returns (R126). -/
def unwrapLost (s : State) (u : Unwrap) : State :=
  unwrapEnd { s with iso := { s.iso with zeroOnReturn := u.rid :: s.iso.zeroOnReturn, bound := tabDel s.iso.bound u.rid } } rBUSY
/-- Chunk `i` of the image lies after the header and the chunks before it, each with its tag (R125). -/
def chunkAt (u : Unwrap) : Nat := u.src + 128 + u.next * (2 ^ 22 + 16)
/-- Plaintext bytes of the chunk. -/
def chunkLen (u : Unwrap) : Nat := min (2 ^ 22) (u.length - u.next * 2 ^ 22)
/-- The IV of the chunk: IV_BASE with its low 64 bits XOR its number. -/
def chunkIv (u : Unwrap) : List Byte := leBytes 12 (leAt u.header 56 12 ^^^ u.next)
/-- Opens a chunk and its tag: WRAPPED_KEY under the key of the set, the header as the additional data (R125). -/
def openChunk (s : State) (u : Unwrap) (bs : List Byte) : Option (List Byte) := do
  let b ← tabFind s.iso.bindSets u.setId
  let key ← Config.contentKey b.key ((u.header.drop 16).take 40)
  let plain ← Config.openChunk key (chunkIv u) u.header (bs.take (chunkLen u)) (bs.drop (chunkLen u))
  pure (padTo (chunkLen u) plain)
/-- Does a line of stream DMA that was translated before the binding still wait on the destination (R126)? -/
def destBusy (s : State) (u : Unwrap) : Bool := dmaLeft s fun r => match s.range u.rid with
  | some e => decide (e.ppa ≤ r.ppa) && decide (r.ppa < e.ppa + 4096 * e.lenG)
  | none => false
/-- The next chunk (R126). A tag failure, with which an image that cannot be read is counted (log 21), zeroes the destination. -/
def weightChunk (s : State) : State :=
  match s.iso.unwrap with
  | none => s
  | some u =>
    let n := chunkLen u
    let a := u.dstPpa + u.next * 2 ^ 22
    if !secServes s || (u.next = 0 && destBusy s u) then s
    else if !tierUp s (ppaCream a) (ppaPart a) then unwrapLost s u
    else match readGran s u.host (chunkAt u) (n + 16) with
      | (.stop _ (.offline _), s1) => unwrapEnd (unbindZero s1 u.rid) rBUSY
      | (.stop _ .held, _) => s
      | (.stop _ _, s1) => unwrapEnd (unbindZero s1 u.rid) rBAD_IMAGE
      | (.ok bs, s1) => match openChunk s1 u bs with
        | none => unwrapEnd (unbindZero s1 u.rid) rBAD_IMAGE
        | some plain =>
          let s2 := secWrite s1 a plain
          if u.length ≤ u.next * 2 ^ 22 + n then unwrapEnd s2 rSUCCESS
          else { s2 with iso := { s2.iso with unwrap := some { u with next := u.next + 1 } } }
/-- WEIGHT_CHUNK_COMPLETE (R126) of chunk `chunk` of the image for range `rid`: chunks come in order, so it is the next of the unwrap
that runs, or nothing. -/
def execWeightChunkComplete (rid chunk : Nat) (s : State) : Host.Outcome State Fault Refusal :=
  done (if s.iso.unwrap.any fun u => u.rid == rid && u.next == chunk then weightChunk s else s)

/-- WEIGHT_CLEAR: of the bound range that holds the address. -/
def weightClear (s : State) (dst : Nat) : Nat × List Byte × State :=
  match findRange s.xlt.dirA dst with
  | none => (rBAD_PARAM, [], s)
  | some (rid, e) =>
    if (tabFind s.iso.bound rid).isNone then (rBAD_PARAM, [], s)
    else if !tierUp s (ppaCream e.ppa) (ppaPart e.ppa) || (match s.iso.unwrap with
      | some u => u.rid == rid
      | none => false) then (rBUSY, [], s)
    else (rSUCCESS, [], unbindZero s rid)
def execWeightClear (sess : Option Nat) (dst : W64) (s : State) : Host.Outcome State Fault Refusal :=
  done (secRequest s sess 0x32 (some (leBytes 8 dst.toNat)) fun s => weightClear s dst.toNat)

/-! ## Requests forwarded to a standby (R393) -/

/-- FORWARDED_TENANT_REQUEST: the standby's SEC applies it; the response is the active's. A request it cannot apply leaves the
two members unequal, which only a digest shows (R406). -/
def forwarded (s : State) (code : Nat) (b : List Byte) : State :=
  if s.mir.state != 2 && s.mir.state != 3 then s
  else match code with
    | 0x10 => (hostSet s (leAt b 0 2) (BitVec.ofNat 256 (leAt b 2 32))).2.2
    | 0x11 => (hostClear s (leAt b 0 2)).2.2
    | 0x20 => (grantSet s (leAt b 0 2) (leAt b 2 3) (BitVec.ofNat 3 (leAt b 5 1))).2.2
    | 0x21 => (isoCommit s).2.2
    | 0x30 =>
      let n := leAt b 2 2
      let ms := (List.range n).map fun i => ({ devId := BitVec.ofNat 64 (leAt b (4 + 12 * i) 8), rank := leAt b (12 + 12 * i) 4 } : Member)
      let set : BindSet := { key := b.drop (4 + 12 * n), members := ms, cpuHost := leAt b 1 1 == 1 }
      { s with iso := { s.iso with bindSets := tabIns s.iso.bindSets (leAt b 0 1) set } }
    | 0x31 => (weightUnwrap s .plain (leAt b 0 8) (leAt b 8 8) (leAt b 16 2)).2
    | 0x32 => (weightClear s (leAt b 0 8)).2.2
    | _ => s
def execForwardedTenantRequest (code : Nat) (body : List Byte) (s : State) : Host.Outcome State Fault Refusal := done (forwarded s code body)

end Sys2Proof.Machine
end

