-- ==== Sys2Proof/Machine/Link.lean ====
section
/-! DEFINITION. The Rirdaul link layer: flits, acknowledgement, replay and credits (R312-R324), link states (R325-R329), going down and
rerouting (R330-R332), packets (R333-R336), and the changing of routing tables (R337-R343). What a lane does is in Lanes.lean;
what an arrived packet does is in Arrive.lean. -/
namespace Sys2Proof.Machine

/-! ## Counters of a port (R344) -/

def bumpReplays (l : Link) : Link := { l with replays := satAdd 32 l.replays 1, ovf := l.ovf ||| BitVec.ofNat 6 (flag (satOvf 32 l.replays 1) 0) }
def bumpRetrains (l : Link) : Link := { l with retrains := satAdd 32 l.retrains 1, ovf := l.ovf ||| BitVec.ofNat 6 (flag (satOvf 32 l.retrains 1) 1) }
def bumpCrc (l : Link) : Link := { l with crcErr := satAdd 32 l.crcErr 1, ovf := l.ovf ||| BitVec.ofNat 6 (flag (satOvf 32 l.crcErr 1) 2) }
def bumpDown (l : Link) : Link := { l with downEv := satAdd 32 l.downEv 1, ovf := l.ovf ||| BitVec.ofNat 6 (flag (satOvf 32 l.downEv 1) 3) }
def bumpDiscards (l : Link) : Link := { l with discards := satAdd 32 l.discards 1, ovf := l.ovf ||| BitVec.ofNat 6 (flag (satOvf 32 l.discards 1) 4) }
def bumpLane (l : Link) : Link := { l with laneEv := satAdd 32 l.laneEv 1, ovf := l.ovf ||| BitVec.ofNat 6 (flag (satOvf 32 l.laneEv 1) 5) }
def State.onLink (s : State) (p : Nat) (f : Link → Link) : State := s.setLink p (f (s.link p))

/-! ## Flits (R312-R315) -/

/-- The number of the next DATA flit to be sent: during a replay, of the next one resent. -/
def nextSeq (l : Link) : Nat := match l.replaying with
  | f :: _ => f.seq
  | [] => l.txSeq
def flitHead (l : Link) (kind vc : Nat) (sop eop : Bool) (len : Nat) : Nat :=
  kind + 2 ^ 4 * l.crRot + flag sop 7 + 2 ^ 8 * (l.freed.getD l.crRot 0 % 4096) + 2 ^ 20 * l.e + 2 ^ 36 * vc + flag eop 39 + 2 ^ 40 * len
/-- The 256 bytes of a flit under a CRC seed. -/
def flitBytes (head seed : Nat) (payload : List Byte) : List Byte :=
  let b := leBytes 8 head ++ padTo 240 payload
  b ++ leBytes 8 (crc64 seed b)
def fixedSeed : Nat := 0x10000
/-- Sends a flit; the credit counter that headers carry rotates (R323). -/
def sendFlit (s : State) (p kind seed vc : Nat) (sop eop : Bool) (len : Nat) (payload : List Byte) : State :=
  let l := s.link p
  (s.send (.flit p (flitBytes (flitHead l kind vc sop eop len) seed payload))).onLink p fun l => { l with crRot := (l.crRot + 1) % 6 }
/-- A flit of a Fixed kind, and one of a Sequence kind other than DATA. -/
def sendFixed (s : State) (p kind : Nat) (payload : List Byte) : State := sendFlit s p kind fixedSeed 0 false false 0 payload
def sendSeq (s : State) (p kind : Nat) (payload : List Byte) : State := sendFlit s p kind (nextSeq (s.link p)) 0 false false 0 payload

/-! ## Rerouting (R330, R332) -/

def portOffline (s : State) (p : Nat) : Bool := (s.unit (unitOf 0xA p)).state == 4
/-- Which ranks travel on the partner of their primary port: those whose primary is down, and those whose move back has not come. -/
def reroute (s : State) : State :=
  let one : Nat × RankE → Option Nat := fun e =>
    let r := e.2.hi * 65536 + e.1
    let on := s.fab.onPartner.contains r
    let a := upPort s e.2.portA
    let b := upPort s (e.2.portA ^^^ 1)
    if (if on then b || !a else !a) then some r else none
  { s with fab := { s.fab with onPartner := s.fab.ranksA.filterMap one } }
/-- Is a rank unreachable (R332)? -/
def unreachable (s : State) (r : Nat) : Bool := (pktPort s { ty := 0, rank := r, ptype := 0, tc := 0, txn := 0, body := [] }).isNone
/-- Ends the PREFETCH that waits for a remote read (R341). -/
def rrdFail (s : State) (txn : Nat) : State :=
  match tabFind s.work.rrds txn with
  | none => s
  | some (k, _, _) =>
    let s := { s with work := { s.work with rrds := tabDel s.work.rrds txn } }
    match s.cmd k with
    | some c => settle (finish s k stACCESS c.progress)
    | none => s
/-- What follows when ranks become unreachable: their packets are discarded, remote reads end, and windows go down (R332). -/
def lostRanks (s : State) : State :=
  let s := { s with fab := { s.fab with outq := s.fab.outq.filter fun q => (pktPort s q).isSome } }
  let s := (s.work.rrds.filter fun e => unreachable s e.2.2.1).foldl (fun s e => rrdFail s e.1) s
  settle ((s.coh.wins.filter fun w => w.2.state == 1 && w.2.agents.any (unreachable s)).foldl (fun s w => windowDown s w.1 6) s)

/-- Ports none of whose ranks use the partner any more. -/
def clearRerouted (s : State) : State :=
  (List.range 14).foldl (fun s p =>
    let l := s.link p
    if l.rerouted && l.state == 3 && !(s.fab.ranksA.any fun e => e.2.portA == p && s.fab.onPartner.contains (e.2.hi * 65536 + e.1))
    then s.setLink p { l with rerouted := false } else s) s
/-- Begins the drain that moves the next rank back to its returned port, one at a time (R332). -/
def nextBack (s : State) : State :=
  let s := clearRerouted s
  if s.fab.drain.isSome then s
  else match s.fab.onPartner.find? fun r => (tabFind s.fab.retryBack r).isNone && (match s.rankE r with
      | some e => (s.link e.portA).state == 3
      | none => false) with
    | some r => { s with fab := { s.fab with drain := some { ranks := [r], since := s.now, back := true } } }
    | none => s

/-! ## Going down (R330, R331) -/

/-- The lanes of a port go to OFF with a cause: transmitters idle, and receivers watch for signal anew (log 32). -/
def lanesOff (s : State) (p cause : Nat) : State :=
  let x := s.lanePort p
  let off : Nat → Lane → Lane := fun _ l => { l with signal := false, locked := false, logical := 15, rxReady := false, chkLock := false, markNo := none, badMarks := 0 }
  s.setLanePort p { x with tstate := 0, since := s.now, failCause := cause, moving := none, lbState := 0, lbMode := 0, retrain := false, feRung := none, serving := false
                           firstAt := none, lanes := tabMapD {} off x.lanes }

/-- The packets of a link that are not wholly acknowledged, in order; one of which a flit was sent is marked REPLAYED: its last flit was
sent, or its first no longer waits. -/
def heldPkts (l : Link) : List Pkt :=
  (l.replayBuf.filterMap fun f => f.pkt.map fun (k : Pkt) => { k with again := true })
    ++ (List.range l.waiting.length).filterMap fun i => (l.waiting[i]?).bind fun f => f.pkt.map fun (k : Pkt) =>
      { k with again := k.again || !((l.waiting.take (i + 1)).any fun w => w.vc == f.vc && w.sop) }

/-- Takes a link down: HOLDOFF, a fault of the port where it had come to INIT or beyond, and its packets on the partner port. `fault`
logs that fault. -/
def linkDownBy (s : State) (p cause : Nat) (fault : State → State) : State :=
  let l := s.link p
  if l.state = 0 || l.state = 5 then s
  else
    let wasUp := decide (2 ≤ l.state)
    let s := lanesOff s p cause
    let pkts := heldPkts l
    let l := { l with state := 5, holdAt := s.now, replayBuf := [], replaying := [], waiting := [], markDue := none, discard := false
                      replayPos := none, nakDue := false, rxPart := [[], [], [], [], [], []], gotInit := false, gotAck := false, reqSent := none
                      again := none, replayCnt := 0, lastRetrain := none, limitRe := false, starved := [none, none, none, none, none, none]
                      credits := [0, 0, 0, 0, 0, 0], spareFor := 15, width := 0, run := 0 }
    if !wasUp then s.setLink p l
    else
      let s := (s.setLink p { l with rerouted := true }).onLink p bumpDown
      let s := { s with intr := { s.intr with link := s.intr.link ||| BitVec.ofNat 32 (2 ^ p) } }
      let s := fault s
      let s := reroute { s with fab := { s.fab with outq := pkts ++ s.fab.outq } }
      nextBack (lostRanks s)
def linkDown (s : State) (p cause : Nat) : State := linkDownBy s p cause fun s => raiseFault s (unitOf 0xA p) 0x08 0 0 3

/-! ## Retrains (R320, R354) -/

/-- Starts a retrain: the link-layer state is kept; the lanes run LOCK, EQ and ALIGN at the current rung. -/
def retrainStart (s : State) (p : Nat) (limit : Bool) : State :=
  let l := s.link p
  if l.state != 3 then s
  else
    let s := corrected s (unitOf 0xA p) 0x07 0 0
    let s := (s.setLink p { l with state := 4, retrainAt := s.now, limitRe := limit, discard := true, replayPos := none, nakDue := false
                                   replaying := [], markDue := none, reqSent := none }).onLink p bumpRetrains
    let x := s.lanePort p
    let one : Nat → Lane → Lane := fun _ l => { l with locked := false, rxReady := false, markNo := none, badMarks := 0 }
    s.setLanePort p { x with tstate := 2, since := s.now, retrain := true, moving := none, myReady := false, peerReady := false, lanes := tabMapD {} one x.lanes }

/-- The payload of LINK_REQ and LINK_ACK (R329). -/
def linkMsg (s : State) (op arg id ack : Nat) : List Byte :=
  leBytes 1 op ++ leBytes 1 arg ++ leBytes 8 s.fuses.deviceId.toNat ++ leBytes 1 id ++ leBytes 1 ack
/-- Sends a LINK_REQ; one that cannot go now, because another waits for its answer, is noted. -/
def linkRequest (s : State) (p op arg : Nat) : State :=
  let l := s.link p
  if l.state != 3 then s
  else if l.reqSent.isSome then s.setLink p { l with again := some (op, arg) }
  else
    let id := (l.reqId + 1) % 256
    let s := sendSeq s p 5 (linkMsg s op arg id 0)
    s.onLink p fun l => { l with reqSent := some (op, arg, id), reqId := id }

/-- A protocol error or the replay limit: the port asks for a retrain and begins it (R317, R318, R320, R323). -/
def retrainError (s : State) (p : Nat) (limit : Bool) : State := retrainStart (linkRequest s p 1 0) p limit

/-- A replay with a REASON (R319, R320): a mark, then every held flit. The limit leads to a retrain, and within 1 s of such a
retrain to link down. -/
def startReplay (s : State) (p reason : Nat) : State :=
  let l := s.link p
  let n := if l.replayBuf = [] then 0 else l.replayCnt + 1
  if l.replayLimit ≤ n then
    let soon := match l.lastRetrain with
      | some t => decide (s.now < t + ms 1000)
      | none => false
    if soon then linkDown s p 0 else retrainError (s.setLink p { l with replayCnt := n }) p true
  else s.setLink p (bumpReplays { l with replaying := l.replayBuf, markDue := some reason, timerAt := s.now, replayCnt := n })

/-- A retrain has reached DONE: ACTIVE, and a replay with REASON 2. The credit timeout did not run (R320), and replays are counted anew
(log 47). -/
def retrainDone (s : State) (p : Nat) : State :=
  let l := s.link p
  let s := s.setLink p (bumpReplays { l with
    state := 3, lastRetrain := if l.limitRe then some s.now else l.lastRetrain, limitRe := false, replayCnt := 0, replaying := l.replayBuf
    markDue := some 2, timerAt := s.now, starved := l.starved.map fun o => o.map fun t => t + (s.now - l.retrainAt) })
  match l.again with
  | some (op, arg) => linkRequest (s.onLink p fun l => { l with again := none }) p op arg
  | none => s

/-! ## Acknowledgement and credit (R317, R318, R323) -/

/-- Applies an ACK; none where it is a protocol error. -/
def linkAck (l : Link) (a now : Nat) : Option Link :=
  let held := l.replayBuf.length
  let n := (a + 65536 + held - l.txSeq) % 65536
  if held < n then none
  else if n = 0 then some l
  else
    let rest := l.replayBuf.drop n
    some { l with replayBuf := rest, replaying := l.replaying.drop (l.replaying.length - rest.length), replayCnt := 0, timerAt := now }
/-- Applies a cumulative credit count of one type; none where it is a protocol error. -/
def linkCredit (l : Link) (t c : Nat) : Option Link :=
  if 5 < t then some l
  else
    let d := (c + 4096 - l.lastCnt.getD t 0) % 4096
    if l.partAlloc.getD t 0 < l.credits.getD t 0 + d then none
    else some { l with credits := l.credits.set t (l.credits.getD t 0 + d), lastCnt := l.lastCnt.set t c
                       starved := if d = 0 then l.starved else l.starved.set t none }
/-- What every flit that passes its CRC brings: ACK and one credit count. -/
def takeHeader (s : State) (p h : Nat) : Bool × State :=
  match linkAck (s.link p) (field h 35 20) s.now with
  | none => (false, retrainError s p false)
  | some l => match linkCredit l (field h 6 4) (field h 19 8) with
    | none => (false, retrainError (s.setLink p l) p false)
    | some l2 =>
      let old := (s.link p).replayBuf
      let gone := (old.take (old.length - l2.replayBuf.length)).filterMap (·.pkt)
      (true, ackTokens (s.setLink p l2) gone)
/-- The six counts of an IDLE. -/
def takeIdle (s : State) (p : Nat) (pay : List Byte) : State :=
  let x := leAt pay 0 9
  (List.range 6).foldl (fun s t => if (s.link p).state != 3 then s else match linkCredit (s.link p) t (x / 2 ^ (12 * t) % 4096) with
    | some l => s.setLink p l
    | none => retrainError s p false) s

/-! ## INIT (R326) -/

/-- Minimum allocations, and the allocation that INIT uses: the defaults where the registers do not hold a set (R322, R344). -/
def allocMin (p : Nat) : List Nat := if p < 12 then [18, 18, 18, 1, 1, 0] else [18, 18, 0, 1, 1, 4]
def initAlloc (s : State) (p : Nat) : List Nat :=
  let a := (s.link p).alloc
  if a.foldl (· + ·) 0 ≤ 1536 && (a.zip (allocMin p)).all fun x => decide (x.2 ≤ x.1) then a else (linkReset p).alloc
def initPayload (s : State) (p : Nat) : List Byte :=
  [0x10, if (s.link p).gotInit then 1 else 0] ++ leBytes 8 s.fuses.deviceId.toNat ++ (initAlloc s p).flatMap (leBytes 2) ++ [if p < 12 then 0 else 1]
def sendInit (s : State) (p : Nat) : State := sendFixed s p 4 (initPayload s p)
/-- Entry to INIT. -/
def initStart (s : State) (p : Nat) : State :=
  let l := s.link p
  sendInit (s.setLink p { l with state := 2, gotInit := false, gotAck := false, initAt := s.now, initErr := 0 }) p
/-- Entry to ACTIVE: sequence numbers, replay buffer and credits start anew, and the port's ranks may move back. -/
def linkActive (s : State) (p : Nat) : State :=
  let l := s.link p
  let s := s.setLink p { l with
    state := 3, e := 0, txSeq := 0, replayBuf := [], replaying := [], markDue := none, discard := false, replayPos := none, nakDue := false
    waiting := [], credits := l.partAlloc, lastCnt := [0, 0, 0, 0, 0, 0], freed := [0, 0, 0, 0, 0, 0], run := 0, replayCnt := 0, timerAt := s.now
    starved := [none, none, none, none, none, none], rxPart := [[], [], [], [], [], []] }
  let s := { s with intr := { s.intr with link := s.intr.link ||| BitVec.ofNat 32 (2 ^ (16 + p)) } }
  nextBack (reroute s)
/-- A received INIT: in INIT it may complete the exchange; in ACTIVE it shows that the partner lacks the acknowledgement, which is sent
again (log 47). -/
def takeInit (s : State) (p : Nat) (pay : List Byte) : State :=
  let l := s.link p
  if l.state = 3 then sendInit s p
  else if l.state != 2 then s
  else if leAt pay 0 1 / 16 != 1 then s.setLink p { l with initErr := 1 }
  else if leAt pay 22 1 != (if p < 12 then 0 else 1) then s.setLink p { l with initErr := 2 }
  else
    let alloc := (List.range 6).map fun t => leAt pay (10 + 2 * t) 2 % 4096
    let acked := l.gotAck || bitOf (leAt pay 1 1) 0
    let s := s.setLink p { l with initErr := 0, gotInit := true, gotAck := acked, partner := BitVec.ofNat 64 (leAt pay 2 8), partAlloc := alloc }
    if acked then linkActive (sendInit s p) p else s
/-- INIT_TIMER: an INIT flit every 1 µs. -/
def execInitTimer (p : Nat) (s : State) : Host.Outcome State Fault Refusal :=
  onInst (decide (p < 14)) (
    let l := s.link p
    if l.state = 2 && decide (l.initAt + us 1 ≤ s.now) then sendInit (s.setLink p { l with initAt := s.now }) p else s)

/-! ## Sparing and width (R327-R329) -/

/-- Is the spare lane free and healthy? -/
def spareFree (x : PortLanes) : Bool :=
  let ls : Lane := tabGet {} x.lanes 8
  ls.logical == 15 && !ls.failed && ls.passed
/-- Moves the data of lane `x` to LS. -/
def doSpare (s : State) (p lane : Nat) : State :=
  let x := s.lanePort p
  let old : Lane := tabGet {} x.lanes lane
  let ls : Lane := tabGet {} x.lanes 8
  let lanes := tabSet {} (tabSet {} x.lanes lane { old with logical := 15 }) 8 { ls with logical := old.logical }
  let s := s.setLanePort p { x with lanes := lanes }
  (corrected s (unitOf 0xA p) 0x08 0 0).onLink p fun l => bumpLane { l with spareFor := lane }
/-- Lanes that carry or could carry data: passed at the last bring-up and not failed. -/
def healthy (x : PortLanes) : List Nat := (List.range 9).filter fun n => let l : Lane := tabGet {} x.lanes n; l.passed && !l.failed
/-- Gives logical lanes 0 to w-1 to lanes, for a width of `w` lanes. At 8 lanes LS stands in for the lowest failed lane (R354). -/
def giveLogical (x : PortLanes) (w : Nat) : PortLanes :=
  let h := healthy x
  let miss := (List.range 8).find? fun n => !h.contains n
  let of := fun (n : Nat) =>
    if w = 8 then (if n = 8 then miss.getD 15 else if h.contains n then n else 15)
    else match (h.take w).idxOf? n with
      | some i => i
      | none => 15
  { x with lanes := (List.range 9).foldl (fun t n => let l : Lane := tabGet {} t n; tabSet {} t n { l with logical := of n }) x.lanes }
/-- Changes the width of an active link to `w` lanes, keeping the link-layer state. -/
def doWidth (s : State) (p w : Nat) : State :=
  let x := s.lanePort p
  if (healthy x).length < w then s
  else
    let s := s.setLanePort p (giveLogical x w)
    (corrected s (unitOf 0xA p) 0x08 0 0).onLink p fun l => bumpLane { l with width := if w = 8 then 0 else if w = 4 then 1 else 2 }
/-- Active lanes of a link. -/
def linkLanes (l : Link) : Nat := if l.width = 0 then 8 else if l.width = 1 then 4 else 2
/-- Carries out an agreed request (log 32). A lane that this end leads moves at the mark it names; one that the partner leads moves at the
mark that carries SPARE_SWITCH (R327, R349). -/
def doRequest (s : State) (p op arg : Nat) (leads : Bool) : State :=
  match op with
  | 1 => retrainStart s p false
  | 2 => if leads then doSpare s p arg else s.setLanePort p { s.lanePort p with moving := some arg }
  | _ => doWidth s p arg
/-- Can a request of the partner be met? -/
def requestOk (s : State) (p op arg : Nat) : Bool :=
  let x := s.lanePort p
  match op with
  | 1 => true
  | 2 => decide (arg < 8) && spareFree x
  | 3 => (arg == 4 || arg == 2) && decide (arg ≤ (healthy x).length)
  | _ => false
/-- A received LINK_REQ: of two that cross, a SPARE leads a WIDTH, and otherwise the end with the lower identity leads. -/
def takeReq (s : State) (p : Nat) (pay : List Byte) : State :=
  let l := s.link p
  let op := leAt pay 0 1
  let arg := leAt pay 1 1
  let mine := match l.reqSent with
    | some (op2, _, _) => if op2 = 2 && op = 3 then true else if op2 = 3 && op = 2 then false else decide (s.fuses.deviceId.toNat ≤ leAt pay 2 8)
    | none => false
  if l.state != 3 then s
  else if mine then s.setLink p { l with leader := true }
  else
    let l := { l with leader := false, again := match l.reqSent with
      | some (a, b, _) => some (a, b)
      | none => l.again, reqSent := none }
    let ok := requestOk s p op arg
    let s := sendSeq (s.setLink p l) p 6 (linkMsg s op arg (leAt pay 10 1) (if ok then 1 else 0))
    let s := if ok then doRequest s p op arg false else s
    match l.again with
    | some (a, b) => if op = 1 && ok then s else linkRequest (s.onLink p fun l => { l with again := none }) p a b
    | none => s
/-- A received LINK_ACK: the request it names is accepted or declined. -/
def takeAckMsg (s : State) (p : Nat) (pay : List Byte) : State :=
  let l := s.link p
  match l.reqSent with
  | some (op, arg, id) =>
    if l.state != 3 || leAt pay 10 1 != id then s
    else
      let s := s.setLink p { l with reqSent := none, leader := true }
      let s := if leAt pay 11 1 = 1 then doRequest s p op arg true else s
      match (s.link p).again with
      | some (a, b) => if (s.link p).state = 3 then linkRequest (s.onLink p fun l => { l with again := none }) p a b else s
      | none => s
  | none => s

/-! ## Reception (R317) -/

/-- Takes the payload of a DATA flit; with EOP the packet is whole and goes to `deliver`. The buffer flit is freed (R323). -/
def takeData (deliver : State → Nat → List Byte → State) (s : State) (p h : Nat) (pay : List Byte) : State :=
  let l := s.link p
  let vc := field h 38 36
  let got := (if bitOf h 7 then [] else l.rxPart.getD vc []) ++ pay.take (field h 47 40)
  let eop := bitOf h 39
  let s := s.setLink p { l with rxPart := l.rxPart.set vc (if eop then [] else got), freed := l.freed.set vc ((l.freed.getD vc 0 + 1) % 4096) }
  if eop then deliver s p got else s

/-- A flit in error: one NAK, and DISCARD. -/
def flitError (s : State) (p : Nat) : State :=
  s.onLink p fun l => let l := bumpCrc l; if l.discard then l else { l with nakDue := true, discard := true, replayPos := none }

/-- A flit of a Fixed kind that passes its CRC. -/
def takeFixed (s : State) (p kind : Nat) (pay : List Byte) : State :=
  match kind with
  | 2 =>
    let l := s.link p
    let x := leAt pay 0 2
    if 1024 < (l.e + 65536 - x) % 65536 then retrainError s p false
    else s.setLink p { l with discard := false, replayPos := if x = l.e then none else some x }
  | 3 => startReplay s p 1
  | _ => takeInit s p pay

/-- Reception of a flit on an ACTIVE link, or of INIT flits in INIT. -/
def rx (deliver : State → Nat → List Byte → State) (s : State) (p : Nat) (bs : List Byte) : State :=
  let l := s.link p
  let h := leAt bs 0 8
  let kind := h % 16
  let pay := (bs.drop 8).take 240
  let good := fun (seed : Nat) => leAt bs 248 8 == crc64 seed (bs.take 248)
  if l.state = 2 then (if kind = 4 && good fixedSeed then takeInit s p pay else s)
  else if l.state != 3 then s
  else
    let fixedOk := (kind == 2 || kind == 3 || kind == 4) && (good fixedSeed || (!l.discard && l.replayPos.isNone && good l.e))
    let seqKind := kind == 0 || kind == 1 || kind == 5 || kind == 6
    let unknown := decide (7 ≤ kind) && (good l.e || good fixedSeed)
    if fixedOk then
      let (ok, s) := if kind = 4 then (true, s) else takeHeader s p h
      if ok then takeFixed s p kind pay else s
    else if l.discard then s
    else match l.replayPos with
      | some r =>
        if !good r then flitError s p
        else
          let (ok, s) := takeHeader s p h
          if !ok || kind != 0 then s
          else
            let r := (r + 1) % 65536
            s.onLink p fun l => { l with replayPos := if r = l.e then none else some r }
      | none =>
        if seqKind && good l.e then
          let (ok, s) := takeHeader s p h
          if !ok then s
          else match kind with
            | 0 => takeData deliver (s.onLink p fun l => { l with e := (l.e + 1) % 65536 }) p h pay
            | 1 => takeIdle s p pay
            | 5 => takeReq s p pay
            | _ => takeAckMsg s p pay
        else if unknown then (takeHeader s p h).2.onLink p bumpDiscards
        else flitError s p

/-! ## Packets (R333, R331, R340) -/

/-- The credit type a packet travels on (R322). -/
def pktType (s : State) (k : Pkt) : Nat := if (pktCircuit s k).isSome then 2 else k.ty

/-- The bytes of a packet: its header for the port it leaves on, then the body. -/
def pktBytes (s : State) (k : Pkt) (p epkt : Nat) : List Byte :=
  let (route, hops) := match pktCircuit s k, s.rankE k.rank with
    | some (_, c), _ => (c.route, c.hops)
    | none, some e => if k.port.isSome then (0, 0) else if p = e.portA then (e.routeA, e.hopsA) else (e.routeB, e.hopsB)
    | none, none => (0, 0)
  let ckt := pktCircuit s k
  leBytes 5 route ++ leBytes 1 hops ++ leBytes 3 k.rank ++ leBytes 3 s.fab.selfRank ++ leBytes 1 k.ptype
    ++ leBytes 1 (k.tc + flag ckt.isSome 3 + flag k.again 4) ++ leBytes 2 ((ckt.map (·.1)).getD 0) ++ leBytes 2 k.body.length ++ leBytes 2 k.txn
    ++ leBytes 3 epkt ++ [0] ++ k.body

/-- Cuts a packet into DATA flits of 240 bytes. -/
def pktFlits (vc rank : Nat) (k : Pkt) (bs : List Byte) : List TxFlit :=
  let n := (bs.length + 239) / 240
  (List.range n).map fun i =>
    { seq := 0, vc := vc, sop := i == 0, eop := i + 1 == n, rank := rank, bytes := (bs.drop (240 * i)).take 240, pkt := if i + 1 = n then some k else none }

/-- Gives a selected packet to its port: numbered EPKT, with its header, as flits that wait for credit. -/
def launch (s : State) (p : Nat) (k : Pkt) : State :=
  let n := match k.epkt with
    | some n => n
    | none => (tabGet 0 s.fab.epktOut k.rank + 1) % 2 ^ 24
  let s := if k.epkt.isSome then s else { s with fab := { s.fab with epktOut := tabSet 0 s.fab.epktOut k.rank n } }
  let k := { k with epkt := some n }
  let vc := pktType s k
  let bs := pktBytes s k p n
  s.onLink p fun l => { l with waiting := l.waiting ++ pktFlits vc k.rank k bs }

/-! ## Transmission (R316, R318, R319) -/

/-- The first waiting flit whose type has credit. -/
def readyFlit (l : Link) : Option Nat := (List.range l.waiting.length).find? fun i => match l.waiting[i]? with
  | some f => l.credits.getD f.vc 0 != 0
  | none => false
/-- Notes since when each type with a waiting flit has had no credit (R324). -/
def noteStarved (l : Link) (now : Nat) : Link :=
  { l with starved := (List.range 6).map fun t =>
      if l.credits.getD t 0 = 0 && l.waiting.any (·.vc == t) then some ((l.starved.getD t none).getD now) else none }

/-- FLIT_TRANSMIT: one flit slot. -/
def flitTransmit (s : State) (p : Nat) : State :=
  let s := s.onLink p fun l => noteStarved l s.now
  let l := s.link p
  if l.state != 3 then s
  else
    let idle := fun (s : State) =>
      let x := (List.range 6).foldl (fun n t => n + 2 ^ (12 * t) * (l.freed.getD t 0 % 4096)) 0
      (sendSeq s p 1 (leBytes 9 x ++ leBytes 2 l.replayBuf.length)).onLink p fun l => { l with run := 0 }
    let dataFlit := fun (s : State) (f : TxFlit) =>
      (sendFlit s p 0 f.seq f.vc f.sop f.eop f.bytes.length f.bytes).onLink p fun l => { l with run := l.run + 1 }
    if l.nakDue then (sendFixed s p 3 (leBytes 2 l.e)).onLink p fun l => { l with nakDue := false, run := 0 }
    else match l.markDue with
      | some reason => (sendFixed s p 2 (leBytes 2 (nextSeq l) ++ leBytes 1 reason)).onLink p fun l => { l with markDue := none, run := 0 }
      | none =>
        if 47 ≤ l.run then idle s
        else match l.replaying with
          | f :: rest => dataFlit (s.setLink p { l with replaying := rest }) f
          | [] =>
            if 1024 ≤ l.replayBuf.length then idle s
            else match readyFlit l with
              | none => idle s
              | some i => match l.waiting[i]? with
                | none => idle s
                | some f =>
                  let f := { f with seq := l.txSeq }
                  dataFlit (s.setLink p { l with
                    waiting := l.waiting.eraseIdx i, credits := l.credits.set f.vc (l.credits.getD f.vc 0 - 1), txSeq := (l.txSeq + 1) % 65536
                    replayBuf := l.replayBuf ++ [f], timerAt := if l.replayBuf = [] then s.now else l.timerAt }) f
def execFlitTransmit (p : Nat) (s : State) : Host.Outcome State Fault Refusal := onInst (decide (p < 14)) (flitTransmit s p)

/-- REPLAY_TIMER_EXPIRY (R319). -/
def execReplayTimerExpiry (p : Nat) (s : State) : Host.Outcome State Fault Refusal :=
  onInst (decide (p < 14)) (
    let l := s.link p
    if l.state = 3 && l.replayBuf != [] && decide (l.timerAt + 100 * l.replayTimer ≤ s.now) then startReplay s p 0 else s)
/-- CREDIT_TIMEOUT (R324). -/
def execCreditTimeout (p ty : Nat) (s : State) : Host.Outcome State Fault Refusal :=
  onInst (decide (p < 14) && decide (ty < 6)) (
    let l := s.link p
    match l.starved.getD ty none with
    | some t => if l.state = 3 && decide (t + us l.creditToUs ≤ s.now) then linkDown s p 0 else s
    | none => s)

/-! ## Routing tables (R337-R343) -/

/-- The rank-table entry of 24 bytes; none where VALID is 0. -/
def rankOf (x : Nat) : Option RankE :=
  if bitOf x 0 then some {
    hi := field x 4 1, portA := field x 8 5, cktEn := bitOf x 9, host := field x 31 16, cktId := field x 41 32, routeA := field x 103 64
    hopsA := field x 107 104, routeB := field x 167 128, hopsB := field x 171 168 }
  else none
/-- The ranks a commit changes: their entry, or a circuit to them (R343). -/
def changedRanks (s : State) : List Nat :=
  let ids := ((s.fab.ranksA ++ s.fab.ranksS).map (·.1)).eraseDups.filter fun i => tabFind s.fab.ranksA i != tabFind s.fab.ranksS i
  let of : Tab RankE → Nat → List Nat := fun t i => match tabFind t i with
    | some e => [e.hi * 65536 + i]
    | none => []
  let ck := ((s.fab.cktsA ++ s.fab.cktsS).map (·.1)).eraseDups.filter fun i => tabFind s.fab.cktsA i != tabFind s.fab.cktsS i
  let cr : Tab CktE → Nat → List Nat := fun t i => match tabFind t i with
    | some e => [e.rank]
    | none => []
  (ids.flatMap (fun i => of s.fab.ranksA i ++ of s.fab.ranksS i) ++ ck.flatMap fun i => cr s.fab.cktsA i ++ cr s.fab.cktsS i).eraseDups
/-- A write into the shadows while a commit drains: what it changes is drained as well (log 47). -/
def shadowed (f : Fabric) (s : State) : State :=
  let s := { s with fab := f }
  match f.drain with
  | some d => if d.back then s else { s with fab := { f with drain := some { d with ranks := changedRanks s } } }
  | none => s
/-- RANK_SET. -/
def rankSet (s : State) (rank : Nat) (entry : BitVec 192) : Nat × List Byte × State :=
  let x := entry.toNat
  let port := field x 8 5
  if 2 ^ 20 ≤ rank || field x 4 1 != rank / 65536 || 13 < port || (bitOf x 9 && decide (12 ≤ port)) || 8 < field x 107 104 || 8 < field x 171 168
  then (rBAD_PARAM, [], s)
  else
    let other := match tabFind s.fab.ranksS (rank % 65536) with
      | some e => e.hi != rank / 65536
      | none => false
    if other then (rTABLE_FULL, [], s)
    else
      let t := match rankOf x with
        | some e => tabIns s.fab.ranksS (rank % 65536) e
        | none => tabDel s.fab.ranksS (rank % 65536)
      (rSUCCESS, [], shadowed { s.fab with ranksS := t } s)
def execRankSet (sess : Option Nat) (rank : Nat) (entry : BitVec 192) (s : State) : Host.Outcome State Fault Refusal :=
  done (secRequest s sess 0x50 none fun s => rankSet s rank entry)
/-- RANK_CLEAR. -/
def rankClear (s : State) (rank : Nat) : Nat × List Byte × State :=
  if 2 ^ 20 ≤ rank then (rBAD_PARAM, [], s)
  else match tabFind s.fab.ranksS (rank % 65536) with
    | some e => (rSUCCESS, [], if e.hi = rank / 65536 then shadowed { s.fab with ranksS := tabDel s.fab.ranksS (rank % 65536) } s else s)
    | none => (rSUCCESS, [], s)
def execRankClear (sess : Option Nat) (rank : Nat) (s : State) : Host.Outcome State Fault Refusal :=
  done (secRequest s sess 0x51 none fun s => rankClear s rank)

/-- CKT_SET (R339). -/
def cktSet (s : State) (port id : Nat) (entry : BitVec 192) : Nat × List Byte × State :=
  let x := entry.toNat
  let e : CktE := { rank := field x 19 0, rate := field x 63 32, burst := field x 79 64, hops := field x 87 80, route := field x 135 96 }
  let others := s.fab.cktsS.foldl (fun n c => if c.1 / 1024 = port && c.1 != port * 1024 + id then n + c.2.rate else n) 0
  if 12 ≤ port || 1024 ≤ id then (rBAD_PARAM, [], s)
  else if !bitOf x 31 then (rSUCCESS, [], shadowed { s.fab with cktsS := tabDel s.fab.cktsS (port * 1024 + id) } s)
  else if e.rate = 0 || 165600 < e.rate || e.burst < 4 || 64 < e.burst || 8 < e.hops || 165600 < others + e.rate then (rBAD_PARAM, [], s)
  else (rSUCCESS, [], shadowed { s.fab with cktsS := tabIns s.fab.cktsS (port * 1024 + id) e } s)
def execCktSet (sess : Option Nat) (port id : Nat) (entry : BitVec 192) (s : State) : Host.Outcome State Fault Refusal :=
  done (secRequest s sess 0x52 none fun s => cktSet s port id entry)
/-- CKT_CLEAR. -/
def cktClear (s : State) (port id : Nat) : Nat × List Byte × State :=
  if 12 ≤ port || 1024 ≤ id then (rBAD_PARAM, [], s)
  else (rSUCCESS, [], shadowed { s.fab with cktsS := tabDel s.fab.cktsS (port * 1024 + id) } s)
def execCktClear (sess : Option Nat) (port id : Nat) (s : State) : Host.Outcome State Fault Refusal :=
  done (secRequest s sess 0x53 none fun s => cktClear s port id)
/-- SELF_RANK: only while neither copy of the rank table holds an entry. -/
def selfRank (s : State) (rank : Nat) : Nat × List Byte × State :=
  if 2 ^ 20 ≤ rank || s.fab.ranksA != [] || s.fab.ranksS != [] then (rBAD_PARAM, [], s)
  else (rSUCCESS, [], { s with fab := { s.fab with selfRank := rank } })
def execSelfRank (sess : Option Nat) (rank : Nat) (s : State) : Host.Outcome State Fault Refusal :=
  done (secRequest s sess 0x55 none fun s => selfRank s rank)

/-- ROUTE_COMMIT begins its drain; one commit or move back at a time, another is answered BUSY. The response follows the drain. -/
def execRouteCommit (sess : Option Nat) (s : State) : Host.Outcome State Fault Refusal :=
  let via := framed sess
  done (if !secServes s then s
    else if s.flt.recovery then respond s via 0x54 rBUSY
    else if !secAuth s sess then respond s via 0x54 rNO_SESSION
    else if s.fab.drain.isSome then respond s via 0x54 rBUSY
    else { s with fab := { s.fab with drain := some { ranks := changedRanks s, since := s.now, back := false, via := via } } })

/-- Has every packet to the drained ranks been sent and acknowledged, and every remote read answered? -/
def drained (s : State) (d : Drain) : Bool :=
  !(s.fab.outq.any fun q => d.ranks.contains q.rank && q.port.isNone && !q.held)
    && (List.range 14).all (fun p => !((s.link p).replayBuf ++ (s.link p).waiting).any fun f => d.ranks.contains f.rank)
    && !(s.work.rrds.any fun e => d.ranks.contains e.2.2.1)
/-- Releases the held packets. -/
def releaseHeld (s : State) : State := { s with fab := { s.fab with drain := none, outq := s.fab.outq.map fun q => { q with held := false } } }

/-- Publishes the routing shadows: commands of cleared ranks are cancelled without a reply, and channels whose entry is written
start with the QoS settings of R147. -/
def routePublish (s : State) : State :=
  let ids := ((s.fab.ranksA ++ s.fab.ranksS).map (·.1)).eraseDups.filter fun i => tabFind s.fab.ranksA i != tabFind s.fab.ranksS i
  let old := s.fab.ranksA
  let s := { s with fab := { s.fab with ranksA := s.fab.ranksS, cktsA := s.fab.cktsS, cktTok := [], routeEpoch := s.fab.routeEpoch + 1 } }
  let rankAt : Tab RankE → Nat → Option Nat := fun t i => (tabFind t i).map fun e => e.hi * 65536 + i
  let s := ids.foldl (fun s i =>
    let new := rankAt s.fab.ranksA i
    let s := match rankAt old i with
      | some r => if new = some r then s else cancelAll (s.setChan (.rank r) {}) fun c => c.chan == Chan.rank r
      | none => s
    match new with
    | some r => s.setChan (.rank r) { s.chan (.rank r) with prioMax := ({} : ChanSt).prioMax, creditMax := ({} : ChanSt).creditMax }
    | none => s) s
  lostRanks (reroute (releaseHeld s))

/-- DRAIN_COMPLETE. -/
def drainComplete (s : State) : State :=
  match s.fab.drain with
  | none => s
  | some d =>
    if !drained s d then s
    else if d.back then nextBack (releaseHeld { s with fab := { s.fab with onPartner := s.fab.onPartner.filter fun r => !d.ranks.contains r } })
    else nextBack (respond (routePublish s) d.via 0x54 rSUCCESS)
def execDrainComplete (s : State) : Host.Outcome State Fault Refusal := done (drainComplete s)
/-- DRAIN_TIMEOUT. -/
def drainTimeout (s : State) : State :=
  match s.fab.drain with
  | none => s
  | some d =>
    if s.now < d.since + us s.fab.drainUs then s
    else if d.back then
      nextBack (releaseHeld { s with fab := { s.fab with retryBack := d.ranks.foldl (fun t r => tabIns t r s.now) s.fab.retryBack } })
    else nextBack (respond (releaseHeld s) d.via 0x54 rBUSY)
def execDrainTimeout (s : State) : Host.Outcome State Fault Refusal := done (drainTimeout s)
/-- RANK_MOVE_BACK_RETRY: 1 s after a drain that failed. -/
def execRankMoveBackRetry (rank : Nat) (s : State) : Host.Outcome State Fault Refusal :=
  done (match tabFind s.fab.retryBack rank with
    | some t => if t + ms 1000 ≤ s.now then nextBack { s with fab := { s.fab with retryBack := tabDel s.fab.retryBack rank } } else s
    | none => s)

/-! ## Remote reads (R341) -/

/-- RRD_DATA: the bytes wait for the PREFETCH's granule; a response that no request awaits is discarded. -/
def rrdData (s : State) (src txn : Nat) (bytes : List Byte) : State :=
  match tabFind s.work.rrds txn with
  | some (k, r, _) =>
    if r != src || bytes.length != 4096 then s
    else { s with work := { s.work with rrds := tabDel s.work.rrds txn, remote := tabIns s.work.remote k bytes } }
  | none => s
def execRrdData (src txn : Nat) (bytes : List Byte) (s : State) : Host.Outcome State Fault Refusal := done (rrdData s src txn bytes)
/-- RRD_ERR. -/
def rrdErr (s : State) (src txn : Nat) : State :=
  match tabFind s.work.rrds txn with
  | some (_, r, _) => if r = src then rrdFail s txn else s
  | none => s
def execRrdErr (src txn : Nat) (_code : W32) (s : State) : Host.Outcome State Fault Refusal :=
  done (rrdErr s src txn)
/-- RRD_TIMEOUT. -/
def execRrdTimeout (txn : Nat) (s : State) : Host.Outcome State Fault Refusal :=
  done (match tabFind s.work.rrds txn with
    | some (_, _, t) => if t + us s.fab.rrdToUs ≤ s.now then rrdFail s txn else s
    | none => s)

end Sys2Proof.Machine
end

