-- ==== Sys2Proof/Machine/Lanes.lean ====
section
/-! DEFINITION. Lanes: training messages (R347, R348), register marks (R349-R351), lane failure (R352), the training states of a port
(R353, R354) and the loop-backs (R355-R357). -/
namespace Sys2Proof.Machine

def State.lane (s : State) (p n : Nat) : Lane := tabGet {} (s.lanePort p).lanes n
def State.setLane (s : State) (p n : Nat) (l : Lane) : State :=
  let x := s.lanePort p
  s.setLanePort p { x with lanes := tabSet {} x.lanes n l }
def State.onPort (s : State) (p : Nat) (f : PortLanes → PortLanes) : State := s.setLanePort p (f (s.lanePort p))
/-- Applies `f` to the nine lanes of a port. -/
def onLanes (x : PortLanes) (f : Nat → Lane → Lane) : PortLanes :=
  { x with lanes := (List.range 9).foldl (fun t n => tabSet {} t n (f n (tabGet {} t n))) x.lanes }
def lanesWhere (x : PortLanes) (f : Lane → Bool) : List Nat := (List.range 9).filter fun n => f (tabGet {} x.lanes n)

/-! ## Training messages (R347) -/

/-- CRC-16, polynomial 0x1021 and initial value 0xFFFF, over the bits as sent, bit 0 first (DEDUCED, log 32). -/
def crc16 (n x : Nat) : Nat :=
  (List.range n).foldl (fun c i =>
    let top := (c / 2 ^ 15 % 2) ^^^ (x / 2 ^ i % 2)
    let c := 2 * c % 2 ^ 16
    if top = 1 then c ^^^ 0x1021 else c) 0xFFFF
/-- Sends a message on every lane: the body with TYPE; the record shows lane 0's copy. -/
def sendTrain (s : State) (p ty body : Nat) : State :=
  let x := ty + body
  s.send (.train p (BitVec.ofNat 128 (x + 2 ^ 112 * crc16 112 x)))
/-- Is a received message good: CRC, TYPE and lane number? -/
def trainOk (n ty : Nat) (msg : BitVec 128) : Bool :=
  let x := msg.toNat
  field x 127 112 == crc16 112 (x % 2 ^ 112) && x % 16 == ty && field x 7 4 == n
/-- A row that carries a message of TYPE `ty` on lane `n`. -/
def trainRow (p n ty : Nat) (msg : BitVec 128) (s : State) (f : State → Nat → State) : Host.Outcome State Fault Refusal :=
  onInst (decide (p < 14) && decide (n < 9)) (if trainOk n ty msg then f s msg.toNat else s)

/-! ## Changes of state (R353, R354) -/

def enter (s : State) (p st : Nat) : State := s.onPort p fun x => { x with tstate := st, since := s.now }
/-- A bring-up ends in OFF with a cause, and the link enters HOLDOFF. -/
def bringUpFail (s : State) (p cause : Nat) : State := linkDown s p cause

/-- The CAP message of R348. -/
def capBody (s : State) (p : Nat) : Nat :=
  let x := s.lanePort p
  2 ^ 8 * 1 + 2 ^ 16 * x.maxRung + 2 ^ 18 + flag x.feAllow 19 + flag (x.lbMode == 3) 20 + 2 ^ 21 * x.lbRung + flag x.peerCap 23
    + 2 ^ 24 * s.fuses.deviceId.toNat
def enterCaps (s : State) (p : Nat) : State := let s := enter s p 3; sendTrain s p 1 (capBody s p)

/-- EQ: the receivers of this part are ready at once, and it asks for no change of taps (log 32). -/
def enterEq (s : State) (p : Nat) : State :=
  let s := (enter s p 4).onPort p fun x => onLanes { x with resOk := none, peerRes := none } fun _ l => { l with rxReady := false }
  sendTrain s p 2 (2 ^ 18)

/-- LOCK. -/
def enterLock (s : State) (p : Nat) : State := (enter s p 2).onPort p fun x => onLanes x fun _ l => { l with locked := false }
/-- Does the port stay in DOWN: latched OFFLINE, before the bring-up of BIST (R453), or a mirror port of a part that is SOLO (R391)? -/
def portShut (s : State) (p : Nat) : Bool :=
  portOffline s p || s.boot.inReset || !(decide (5 ≤ s.boot.stage) && decide (s.boot.stage ≤ 8))
    || (decide (12 ≤ p) && !(s.boot.pairRole == 1 || s.boot.pairRole == 2))
/-- DETECT begins: a full bring-up, at rung 0. Lanes whose signal has been seen are detected already. -/
def detectStart (s : State) (p : Nat) : State :=
  let l := s.link p
  if l.state != 0 || portShut s p then s
  else
    let s := s.setLink p { l with state := 1 }
    let s := (enter s p 1).onPort p fun x => onLanes { x with
      upAt := s.now, firstAt := if lanesWhere x (·.signal) = [] then none else some s.now, rung := 0, fallback := false, peerCap := false
      peerAck := false, feRung := none, serving := false, stepCnt := none, resOk := none, peerRes := none, myReady := false, peerReady := false, retrain := false
      target := x.maxRung } fun _ l => { l with failed := false, cause := 0, passed := false, rxReady := false, logical := 15, ce := l.ce, errs := 0 }
    if lanesWhere (s.lanePort p) (·.signal) = List.range 9 then enterLock s p else s

/-- ALIGN: the width, and the logical lanes. A retrain does not widen the port (R328, R354), and counts a lane it replaces. -/
def enterAlign (s : State) (p : Nat) : State :=
  let x := s.lanePort p
  let n := (healthy x).length
  let most := if x.retrain then linkLanes (s.link p) else 8
  let w := if 8 ≤ n && most = 8 then 8 else if 4 ≤ n && 4 ≤ most then 4 else if 2 ≤ n then 2 else 0
  if w = 0 then bringUpFail s p 5
  else
    let ok := BitVec.ofNat 9 ((healthy x).foldl (fun b n => b + 2 ^ n) 0)
    let s := (enter s p 7).onPort p fun x => onLanes { giveLogical x w with lanesOk := ok, myReady := false, peerReady := false } fun n l =>
      { l with markNo := none, badMarks := 0, failed := !(healthy x).contains n, cause := if (healthy x).contains n then l.cause else if l.cause = 0 then 5 else l.cause }
    let spare := match (List.range 8).find? fun n => !(healthy x).contains n with
      | some n => if w = 8 then n else 15
      | none => 15
    let width := if w = 8 then 0 else if w = 4 then 1 else 2
    let old := s.link p
    let s := s.setLink p { old with width := width, spareFor := spare }
    if x.retrain && (old.width != width || (spare != 15 && old.spareFor != spare)) then (corrected s (unitOf 0xA p) 0x08 0 0).onLink p bumpLane else s

/-- STEP towards a rung: the leader sends it with COUNT falling to 0 and changes; the follower changes when it has it. -/
def changeRung (s : State) (p toRung : Nat) (fallback : Bool) : State :=
  (enter s p 6).onPort p fun x => onLanes { x with rung := toRung, stepCnt := some 0, fallback := x.fallback || fallback } fun _ l => { l with locked := false }
def enterStep (s : State) (p toRung : Nat) (fallback : Bool) : State :=
  let x := s.lanePort p
  if x.leads then
    let s := [3, 2, 1, 0].foldl (fun s c => sendTrain s p 3 (2 ^ 8 * toRung + 2 ^ 10 * c + flag fallback 18)) s
    changeRung s p toRung fallback
  else (enter s p 6).onPort p fun x => { x with stepCnt := none }
/-- A rung fails (R354): back to the rung before, once; with none, or at the repeat, the bring-up ends. A follower that has not changed
rung waits once more, for the leader's fallback. -/
def rungFail (s : State) (p : Nat) : State :=
  let x := s.lanePort p
  if x.tstate = 6 && x.stepCnt != some 0 && !x.fallback then (enter s p 6).onPort p fun x => { x with fallback := true }
  else if x.rung = 0 || x.fallback then bringUpFail s p 5 else enterStep s p (x.rung - 1) true
/-- A rung passes: the next rung, or ALIGN at the target or where the port has fallen back. -/
def rungPass (s : State) (p : Nat) : State :=
  let x := s.lanePort p
  if x.fallback || x.target ≤ x.rung then enterAlign s p else enterStep s p (x.rung + 1) false

/-- Both ends are READY: DONE, LOOPBACK for a far-end loop-back, or the end of a retrain. -/
def alignDone (s : State) (p : Nat) : State :=
  let x := s.lanePort p
  if !(x.myReady && x.peerReady) then s
  else if x.feRung.isSome then (enter s p 9).onPort p fun x => { x with lbState := if x.serving then 2 else 1 }
  else if x.retrain then retrainDone ((enter s p 8).onPort p fun x => { x with retrain := false }) p
  else initStart ((enter s p 8).onPort p fun x => { x with trainUs := (s.now - x.upAt) / 1000 }) p

/-! ## Events of bring-up -/

/-- LANE_SIGNAL_DETECT: signal for 10 µs. From OFF two lanes start DETECT; in DETECT the first opens the window of 1 ms, and all nine,
or two after the window, end it. -/
def signalDetect (s : State) (p n : Nat) : State :=
  let s := s.setLane p n { s.lane p n with signal := true }
  let x := s.lanePort p
  let got := lanesWhere x (·.signal)
  if x.tstate = 0 then (if 2 ≤ got.length then detectStart s p else s)
  else if x.tstate = 1 then
    let first := x.firstAt.getD s.now
    let s := s.onPort p fun x => { x with firstAt := some first }
    if got.length = 9 || (2 ≤ got.length && decide (first + ms 1 ≤ s.now)) then enterLock s p else s
  else s
def execLaneSignalDetect (p n : Nat) (s : State) : Host.Outcome State Fault Refusal :=
  onInst (decide (p < 14) && decide (n < 9)) (signalDetect s p n)
/-- DETECT_WINDOW_END. -/
def execDetectWindowEnd (p : Nat) (s : State) : Host.Outcome State Fault Refusal :=
  onInst (decide (p < 14)) (
    let x := s.lanePort p
    match x.firstAt with
    | some t => if x.tstate = 1 && decide (t + ms 1 ≤ s.now) && 2 ≤ (lanesWhere x (·.signal)).length then enterLock s p else s
    | none => s)
/-- Lanes that must lock: the detected ones, in a retrain and in STEP those still in use. -/
def mustLock (x : PortLanes) : List Nat :=
  if x.tstate = 2 && !x.retrain then lanesWhere x (·.signal) else healthy x
/-- What follows LOCK. -/
def lockNext (s : State) (p : Nat) : State := if (s.lanePort p).retrain then enterEq s p else enterCaps s p
/-- FRAME_LOCK. -/
def frameLock (s : State) (p n : Nat) : State :=
  let x := s.lanePort p
  if x.tstate != 2 && !(x.tstate == 6 && x.stepCnt == some 0) then s
  else
    let s := s.setLane p n { s.lane p n with locked := true }
    let x := s.lanePort p
    if (mustLock x).all fun n => (s.lane p n).locked then (if x.tstate = 2 then lockNext s p else enterEq s p) else s
def execFrameLock (p n : Nat) (s : State) : Host.Outcome State Fault Refusal :=
  onInst (decide (p < 14) && decide (n < 9)) (frameLock s p n)

/-- CAP: version, target rung, leadership and far-end loop-back; ACK is returned. -/
def takeCap (s : State) (p m : Nat) : State :=
  let x := s.lanePort p
  if x.tstate != 3 then s
  else if field m 11 8 != 1 then bringUpFail s p 4
  else
    let id := field m 87 24
    let want := x.lbMode == 3
    let asked := bitOf m 20 && !want
    if (want && !bitOf m 19) || (asked && !x.feAllow) then bringUpFail s p 8
    else
      let common := min x.maxRung (field m 17 16)
      let fe : Option Nat := if want then some (min x.lbRung common) else if asked then some (min (field m 22 21) common) else none
      let x := { x with peerCap := true, peerAck := x.peerAck || bitOf m 23, peerId := BitVec.ofNat 64 id, target := fe.getD common, feRung := fe
                        serving := asked, leads := decide (s.fuses.deviceId.toNat ≤ id) }
      let s := s.setLanePort p x
      let s := sendTrain s p 1 (capBody s p)
      if x.peerAck then
        enterEq (s.onPort p fun x => onLanes x fun _ l => { l with passed := l.locked }) p
      else s
def execCap (p n : Nat) (msg : BitVec 128) (s : State) : Host.Outcome State Fault Refusal := trainRow p n 1 msg s fun s m => takeCap s p m

/-- EQ: the partner moves a transmitter tap of the lane, or is ready. A preset's values are not given and are free (log 5, log 32);
taps keep within their 8-bit registers. -/
def takeEq (s : State) (p n m : Nat) : State :=
  let x := s.lanePort p
  if x.tstate != 4 then s
  else
    let l := s.lane p n
    let tap := field m 10 8
    let req := field m 12 11
    let v : Int := (BitVec.ofNat 8 (l.taps.getD tap 0)).toInt
    let nv := if req = 1 then min (v + 1) 127 else if req = 2 then max (v - 1) (-128) else v
    let stat := if nv = 127 then 3 else if nv = -128 then 2 else 1
    let (l, s) := if tap = 4 then
        ({ l with taps := (List.range 4).map fun i => (Config.freeBits 8 (s.free + i)).toNat }, { s with free := s.free + 4 })
      else if tap < 4 then ({ l with taps := l.taps.set tap ((nv % 256).toNat) }, s) else (l, s)
    let s := s.setLane p n { l with rxReady := bitOf m 18 }
    let s := if tap = 4 || (tap < 4 && (req = 1 || req = 2)) then sendTrain s p 2 (2 ^ 8 * tap + 2 ^ 16 * (if tap = 4 then 1 else stat) + 2 ^ 18) else s
    if (healthy (s.lanePort p)).all fun n => (s.lane p n).rxReady then
      (if x.retrain then enterAlign s p else enter s p 5)
    else s
def execEq (p n : Nat) (msg : BitVec 128) (s : State) : Host.Outcome State Fault Refusal := trainRow p n 2 msg s fun s m => takeEq s p n m

/-- Both results of CHECK are known. -/
def checkBoth (s : State) (p : Nat) : State :=
  let x := s.lanePort p
  match x.resOk, x.peerRes with
  | some a, some b => if a && b then rungPass s p else rungFail s p
  | _, _ => s
/-- CHECK_PERIOD_END: 1 ms of PRBS31. At rung 0 each lane passes or not; above it, every lane that passed before must pass again. -/
def checkPeriodEnd (s : State) (p : Nat) (errors : List Nat) : State :=
  let x := s.lanePort p
  if x.tstate != 5 || x.resOk.isSome || s.now < x.since + ms 1 then s
  else
    let good := fun (n : Nat) => decide (errors.getD n 0 ≤ 2 ^ x.chkLog2)
    let h := healthy x
    let first := x.rung = 0 && !x.fallback
    let ok := if first then decide (2 ≤ (h.filter good).length) else h.all good
    let x := onLanes { x with resOk := some ok } fun n l =>
      { l with errs := errors.getD n 0, passed := if first then l.passed && good n else l.passed, cause := if first && l.passed && !good n then 5 else l.cause }
    let s := sendTrain (s.setLanePort p x) p 4 (2 ^ 8 + flag ok 9)
    checkBoth s p
def execCheckPeriodEnd (p : Nat) (errors : List Nat) (s : State) : Host.Outcome State Fault Refusal :=
  onInst (decide (p < 14)) (checkPeriodEnd s p errors)
/-- CHECK: the partner's result. -/
def execCheck (p n : Nat) (msg : BitVec 128) (s : State) : Host.Outcome State Fault Refusal :=
  trainRow p n 4 msg s fun s m =>
    if (s.lanePort p).tstate = 5 && bitOf m 8 then checkBoth (s.onPort p fun x => { x with peerRes := some (bitOf m 9) }) p else s
/-- STEP: the follower counts down with the leader and changes rung at COUNT 0. The leader ignores the follower's. -/
def takeStep (s : State) (p m : Nat) : State :=
  let x := s.lanePort p
  if x.leads || x.stepCnt = some 0 && x.tstate = 6 || (x.tstate != 4 && x.tstate != 5 && x.tstate != 6) then s
  else if field m 17 10 = 0 then changeRung s p (field m 9 8) (bitOf m 18)
  else (if x.tstate = 6 then s else enter s p 6).onPort p fun x => { x with stepCnt := some (field m 17 10) }
def execStep (p n : Nat) (msg : BitVec 128) (s : State) : Host.Outcome State Fault Refusal := trainRow p n 3 msg s fun s m => takeStep s p m
/-- ALIGN: the partner's READY. -/
def execAlign (p n : Nat) (msg : BitVec 128) (s : State) : Host.Outcome State Fault Refusal :=
  trainRow p n 5 msg s fun s m => if (s.lanePort p).tstate = 7 && bitOf m 8 then alignDone (s.onPort p fun x => { x with peerReady := true }) p else s

/-- The time a training state may last, and what its end does (R353). -/
def trainTimeout (s : State) (p : Nat) : State :=
  let x := s.lanePort p
  let overs := fun (t : Nat) => decide (x.since + t ≤ s.now)
  if x.retrain then s
  else match x.tstate with
    | 1 => if overs (ms 100) then bringUpFail s p 1 else s
    | 2 => if overs (ms 10) then (if 2 ≤ (lanesWhere x (·.locked)).length then enterCaps s p else bringUpFail s p 2) else s
    | 3 => if overs (ms 2) then bringUpFail s p 3 else s
    | 4 => if overs (ms x.eqMs) then rungFail s p else s
    | 5 => if overs (ms 2) then rungFail s p else s
    | 6 => if overs (ms 1) then rungFail s p else s
    | 7 => if overs (ms 1) then bringUpFail s p 6 else s
    | _ => s
def execTrainStateTimeout (p : Nat) (s : State) : Host.Outcome State Fault Refusal := onInst (decide (p < 14)) (trainTimeout s p)
/-- RETRAIN_TIMEOUT: 5 ms. -/
def execRetrainTimeout (p : Nat) (s : State) : Host.Outcome State Fault Refusal :=
  onInst (decide (p < 14)) (
    let l := s.link p
    if l.state = 4 && (s.lanePort p).retrain && decide (l.retrainAt + ms 5 ≤ s.now) then linkDown s p 7 else s)

/-! ## Lane failure (R327, R328, R352) -/

/-- Declares a lane failed: of a data lane of an ACTIVE port, LS takes over, or the width falls, or the link goes down. -/
def failLane (s : State) (p n cause : Nat) : State :=
  let x := s.lanePort p
  let l := s.lane p n
  let st := (s.link p).state
  if st < 2 || 4 < st || l.failed then s
  else
    let ok := x.lanesOk &&& ~~~(BitVec.ofNat 9 (2 ^ n))
    let s := (s.setLane p n { l with failed := true, cause := cause, locked := false, signal := l.signal && cause != 1 }).onPort p fun x =>
      { x with lanesOk := ok }
    let x := s.lanePort p
    if st != 3 || l.logical = 15 then corrected s (unitOf 0xA p) 0x08 0 0
    else
      let h := (healthy x).length
      if spareFree x && n < 8 then linkRequest s p 2 n
      else if (s.link p).width = 0 && 4 ≤ h then linkRequest s p 3 4
      else if 2 ≤ h then linkRequest s p 3 2
      else linkDown s p 0
def execLaneFailure (p n cause : Nat) (s : State) : Host.Outcome State Fault Refusal :=
  onInst (decide (p < 14) && decide (n < 9) && decide (1 ≤ cause) && decide (cause ≤ 4)) (failLane s p n cause)

/-! ## Register marks (R349-R351) -/

def ones (n x : Nat) : Nat := (List.range n).foldl (fun c i => c + x / 2 ^ i % 2) 0
/-- MARK_NO of a mark; none where it is rejected on the lane: symbol 8 names an active logical lane of `w`, or, on a spare that is not in
use, none. -/
def markOf (w : Nat) (l : Lane) (sy : List (BitVec 10)) : Option Nat :=
  let at_ := fun (i : Nat) => (sy.getD i 0).toNat
  let bad := (List.range 8).foldl (fun c i => c + ones 10 (at_ i ^^^ (if i % 2 = 0 then 0x3C5 else 0x0FA))) 0
  let no := at_ 9 + 2 ^ 10 * (at_ 10 % 64)
  let next := match l.markNo with
    | some m => no == (m + 1) % 65536
    | none => true
  let named := at_ 8 % 16
  if sy.length = 16 && bad ≤ 2 && at_ 8 / 16 == 0b101011 && (decide (named < w) || named == l.logical) && next then some no else none
/-- The lane whose data moves to LS after a mark (R349). -/
def movedBy (sy : List (BitVec 10)) : Option Nat :=
  let x := (sy.getD 11 0).toNat
  if x % 2 = 1 then some (field x 4 1) else none

/-- Adjusts a quad zone for an occupancy (R350): quads inserted and deleted. -/
def zoneQuads (occ : Nat) : Nat × Nat :=
  let d : Int := (occ : Int) - 64
  if 2 < d then (0, min 10 ((d.toNat + 3) / 4)) else if d < -2 then (min 10 (((-d).toNat + 3) / 4), 0) else (0, 0)
/-- The zone after a mark, once per interval: its occupancy, in [0, 128], depends on two clocks and is free (log 5). -/
def zone (s : State) (p : Nat) : State :=
  let (ins, del) := zoneQuads ((s.fresh 8).toNat % 129)
  s.bump.onPort p fun x => { x with
    quadIns := satAdd 32 x.quadIns ins, quadDel := satAdd 32 x.quadDel del
    ovf := x.ovf ||| BitVec.ofNat 5 (flag (satOvf 32 x.quadIns ins) 0 ||| flag (satOvf 32 x.quadDel del) 1) }

/-- REGISTER_MARK: accepted, or a mark error, of which three in a row fail the lane. With a mark on every active lane the port is
aligned and says READY. -/
def registerMark (s : State) (p n : Nat) (sy : List (BitVec 10)) (matched : Bool) : State :=
  let x := s.lanePort p
  let l := s.lane p n
  if x.tstate < 7 || l.logical = 15 && n != 8 then s
  else match markOf (linkLanes (s.link p)) l sy with
    | some no =>
      if matched then
        let s := s.setLane p n { l with markNo := some no, badMarks := 0, locked := true }
        let s := if l.logical = 0 then zone s p else s
        let x := s.lanePort p
        if x.moving.isSome && x.moving == movedBy sy then doSpare (s.setLanePort p { x with moving := none }) p (x.moving.getD 0)
        else if x.tstate = 7 && !x.myReady && (healthy x).all (fun n => (s.lane p n).logical == 15 || (s.lane p n).markNo.isSome)
        then alignDone (sendTrain (s.onPort p fun x => { x with myReady := true }) p 5 (2 ^ 8)) p else s
      else markError s p n l
    | none => markError s p n l
where
  /-- A mark rejected or unmatched. -/
  markError (s : State) (p n : Nat) (l : Lane) : State :=
    let s := s.onPort p fun x => { x with markErr := satAdd 32 x.markErr 1, ovf := x.ovf ||| BitVec.ofNat 5 (flag (satOvf 32 x.markErr 1) 2) }
    let s := s.setLane p n { l with badMarks := l.badMarks + 1, markNo := l.markNo.map fun m => (m + 1) % 65536 }
    if 3 ≤ l.badMarks + 1 then failLane s p n 3 else s
/-- Counts the RS symbols corrected on a lane since its last mark; more than 2^SER_LOG2 within 1 ms fail the lane (R352). -/
def countSer (s : State) (p n k : Nat) : State :=
  let x := s.lanePort p
  let l := s.lane p n
  if k = 0 || x.tstate < 7 then s
  else
    let ser := (s.now, k) :: l.ser.filter fun e => decide (s.now < e.1 + ms 1)
    let s := (s.setLane p n { l with ce := satAdd 32 l.ce k, ser := ser }).onPort p fun x =>
      { x with ovf := x.ovf ||| BitVec.ofNat 5 (flag (satOvf 32 l.ce k) 3) }
    if x.tstate = 8 && decide (2 ^ x.serLog2 < ser.foldl (fun m e => m + e.2) 0) then failLane s p n 4 else s
def execRegisterMark (p n : Nat) (symbols : List (BitVec 10)) (check : MarkCheck) (s : State) : Host.Outcome State Fault Refusal :=
  onInst (decide (p < 14) && decide (n < 9)) (countSer (registerMark s p n symbols check.matched) p n check.corrected)

/-! ## Commands of the port (R325, R330) -/

/-- RFL_CTRL_UP: from DOWN, after HOLDOFF. -/
def execRflCtrlUp (p : Nat) (s : State) : Host.Outcome State Fault Refusal := onInst (decide (p < 14)) (onBar s 0x20 (detectStart s p))
/-- RFL_CTRL_DOWN. -/
def execRflCtrlDown (p : Nat) (s : State) : Host.Outcome State Fault Refusal := onInst (decide (p < 14)) (onBar s 0x20 (linkDown s p 0))
/-- RFL_CTRL_RETRAIN: a retrain as leader candidate. -/
def execRflCtrlRetrain (p : Nat) (s : State) : Host.Outcome State Fault Refusal := onInst (decide (p < 14)) (onBar s 0x20 (linkRequest s p 1 0))
/-- HOLDOFF_END: 1 s after a link went down; a partner already seen starts training. -/
def holdoffEnd (s : State) (p : Nat) : State :=
  let l := s.link p
  if l.state != 5 || s.now < l.holdAt + ms 1000 then s
  else
    let s := s.setLink p { l with state := 0 }
    if (s.lanePort p).tstate = 0 && 2 ≤ (lanesWhere (s.lanePort p) (·.signal)).length then detectStart s p else s
def execHoldoffEnd (p : Nat) (s : State) : Host.Outcome State Fault Refusal := onInst (decide (p < 14)) (holdoffEnd s p)

/-! ## Loop-backs (R355-R357) -/

/-- A write of `LNE_PORT_LB`. RUNG is taken in every state, MODE as R355 says. -/
def lbWrite (s : State) (p v : Nat) : State :=
  let x := s.lanePort p
  let x := { x with lbRung := field v 3 2 }
  let mode := v % 4
  if mode = 0 then
    if x.tstate = 9 && x.lbState != 2 then linkDown (s.setLanePort p x) p 0
    else s.setLanePort p { x with lbMode := 0 }
  else if x.tstate != 0 then s.setLanePort p x
  else if mode = 3 then s.setLanePort p { x with lbMode := 3 }
  else
    let s := (s.setLanePort p { x with lbMode := mode, lbState := 1, rung := x.lbRung }).onLink p fun l => { l with state := 1 }
    enter s p 9
def execLoopbackNearSerial (p : Nat) (value : W32) (s : State) : Host.Outcome State Fault Refusal :=
  onInst (decide (p < 14)) (if value.toNat % 4 = 1 then onBar s 0x30 (lbWrite s p value.toNat) else s)
def execLoopbackNearParallel (p : Nat) (value : W32) (s : State) : Host.Outcome State Fault Refusal :=
  onInst (decide (p < 14)) (if value.toNat % 4 = 2 then onBar s 0x30 (lbWrite s p value.toNat) else s)
def execLoopbackFarRequest (p : Nat) (value : W32) (s : State) : Host.Outcome State Fault Refusal :=
  onInst (decide (p < 14)) (if value.toNat % 4 = 3 then onBar s 0x30 (lbWrite s p value.toNat) else s)
def execLoopbackEnd (p : Nat) (value : W32) (s : State) : Host.Outcome State Fault Refusal :=
  onInst (decide (p < 14)) (if value.toNat % 4 = 0 then onBar s 0x30 (lbWrite s p value.toNat) else s)
/-- FAR_END_SIGNAL_LOSS: the port that serves a far-end loop-back leaves it. -/
def execFarEndSignalLoss (p : Nat) (s : State) : Host.Outcome State Fault Refusal :=
  onInst (decide (p < 14)) (if (s.lanePort p).tstate = 9 && (s.lanePort p).lbState = 2 then linkDown s p 0 else s)
/-- PRBS_CHECKER_LOCK: of an enabled checker with a pattern; bit errors that it has found since are counted. -/
def execPrbsCheckerLock (p : Nat) (found : PrbsCheck) (s : State) : Host.Outcome State Fault Refusal :=
  let n := found.lane
  onInst (decide (p < 14) && decide (n < 9)) (
    let l := s.lane p n
    if (s.lanePort p).tstate = 9 && l.chk && l.pat != 0 then
      (s.setLane p n { l with chkLock := true, prbsErr := satAdd 32 l.prbsErr found.errors }).onPort p fun x =>
        { x with ovf := x.ovf ||| BitVec.ofNat 5 (flag (satOvf 32 l.prbsErr found.errors) 4) }
    else s)

end Sys2Proof.Machine
end

