-- ==== Sys2Proof/Machine/Bulk.lean ====
section
/-! DEFINITION. FILL, COPY, COMPARE, REDUCE and NMO_RELEASE (R233-R242). -/
namespace Sys2Proof.Machine

/-! ## FILL (R238) -/

def fillDst (c : Cmd) : Nat := if descBit c.raw then c.par 0 8 else c.par 16 8
def fillLen (c : Cmd) : Nat := if descBit c.raw then c.par 8 8 else c.par 24 8
def fillInkLen (c : Cmd) : Nat := if descBit c.raw then c.par 16 1 else c.par 32 1
/-- The ink byte at offset `o` of the destination. -/
def fillByte (c : Cmd) (o : Nat) : Byte :=
  BitVec.ofNat 8 (c.par ((if descBit c.raw then 64 else 40) + o % fillInkLen c) 1)

def fillStep (s : State) (k : Nat) : State :=
  match s.cmd k with
  | none => s
  | some c =>
    let a := fillDst c
    let o := granOff a c.progress
    let n := granLen a (fillLen c) c.progress
    underSeq c (fun s => match writeAll s c.host (a + o) ((List.range n).map fun i => fillByte c (o + i)) with
      | (.ok (), s1) => endIfLast (granDone s1 k n) k fun _ => 0
      | (.stop ra w, s1) => stopGran s1 k ra rWrite w n) s

def specFill : OpSpec := {
  form := .either [128]
  valid := fun _ c => spanOk (fillDst c) (fillLen c)
    && (if descBit c.raw then [1, 2, 4, 8, 16, 32, 64].contains (fillInkLen c) && c.par 17 47 == 0
          && c.par (64 + fillInkLen c) (64 - fillInkLen c) == 0
        else [1, 2, 4, 8].contains (fillInkLen c) && c.par 33 7 == 0 && c.par (40 + fillInkLen c) (8 - fillInkLen c) == 0)
  rights := fun s c => rightsAt s c.host (fillDst c) rWrite
  size := fun s c => some (fillLen c, [spanSlices s c.host (fillDst c) (fillLen c)])
  total := fun _ c => some (granules (fillDst c) (fillLen c))
  step := some fillStep }

/-! ## COPY (R239) -/

def copyStep (s : State) (k : Nat) : State :=
  match s.cmd k with
  | none => s
  | some c =>
    let dst := c.par 16 8
    let o := granOff dst c.progress
    let n := granLen dst (c.par 32 8) c.progress
    underSeq c (fun s => match readAll s c.host (c.par 24 8 + o) n with
      | (.stop ra w, s1) => stopGran s1 k ra rRead w (2 * n)
      | (.ok bs, s1) => match writeAll s1 c.host (dst + o) bs with
        | (.ok (), s2) => endIfLast (granDone s2 k (2 * n)) k fun _ => 0
        | (.stop ra w, s2) => stopGran s2 k ra rWrite w (2 * n)) s

def specCopy : OpSpec := {
  valid := fun _ c => spanOk (c.par 16 8) (c.par 32 8) && spanOk (c.par 24 8) (c.par 32 8) && c.par 40 8 == 0
    && spansOk (c.par 16 8) (c.par 32 8) (c.par 24 8) (c.par 32 8) false
  rights := fun s c => firstRefusal [rightsAt s c.host (c.par 24 8) rRead, rightsAt s c.host (c.par 16 8) rWrite]
  size := fun s c => some (2 * c.par 32 8,
    [spanSlices s c.host (c.par 24 8) (c.par 32 8), spanSlices s c.host (c.par 16 8) (c.par 32 8)])
  total := fun _ c => some (granules (c.par 16 8) (c.par 32 8))
  step := some copyStep }

/-! ## COMPARE (R240) -/

/-- Bytes of an element: one in mode 0. -/
def cmpWidth (c : Cmd) : Nat := if c.par 40 1 = 0 then 1 else container (c.par 41 1) / 8

/-- Do two elements differ (R240)? -/
def cmpDiffers (c : Cmd) (x y : Nat) : Bool :=
  if c.par 40 1 = 0 then x != y
  else
    let a := elemValue (c.par 41 1) x
    let b := elemValue (c.par 41 1) y
    match a, b with
    | .nan, .nan => false
    | .inf p, .inf q => p != q
    | .fin _ _ _, .fin _ _ _ =>
      let m := if a.abs.lt b.abs then b.abs else a.abs
      let rel := if c.par 42 1 = 0 then FV.fin false 0 0 else m.mul (.fin false 1 (-(c.par 42 1 : Nat)))
      (sumExact [f32 (c.par 44 4), rel]).lt (a.add b.flip).abs
    | _, _ => true

/-- The indices of the elements that differ. -/
def cmpDiffs (c : Cmd) (xs ys : List Byte) : List Nat :=
  let w := cmpWidth c
  (List.range (xs.length / w)).filter fun i => cmpDiffers c (leAt xs (w * i) w) (leAt ys (w * i) w)

/-- Reads granule `i` of both operands, which belong to A's granules. -/
def cmpRead (s : State) (c : Cmd) (i : Nat) : Span (List Byte × List Byte) × State :=
  let a := c.par 16 8
  let o := granOff a i
  let n := granLen a (c.par 32 8) i
  match readAll s c.host (a + o) n with
  | (.stop ra w, s1) => (.stop ra w, s1)
  | (.ok xs, s1) => match readAll s1 c.host (c.par 24 8 + o) n with
    | (.stop ra w, s2) => (.stop ra w, s2)
    | (.ok ys, s2) => (.ok (xs, ys), s2)

/-- The end of a COMPARE: the granule of the first difference is compared again for FIRST (R240). -/
def cmpEnd (s : State) (k : Nat) (c : Cmd) : State :=
  let result := fun (first : Nat) => first + 2 ^ 64 * c.sat
  let none_ := 2 ^ 64 - 1
  if c.opState = 0 then settle (finish s k (endStatus c) c.progress (result none_) [] (c.sat = 2 ^ 32 - 1))
  else match cmpRead s c (c.opState - 1) with
    | (.stop ra w, s1) => stopGran s1 k ra rRead w (2 * granLen (c.par 16 8) (c.par 32 8) (c.opState - 1))
    | (.ok (xs, ys), s1) =>
      let first := match cmpDiffs c xs ys with
        | i :: _ => granOff (c.par 16 8) (c.opState - 1) + cmpWidth c * i
        | [] => none_
      settle (finish (granStart s1 k (2 * xs.length)) k (endStatus c) c.progress (result first) [] (c.sat = 2 ^ 32 - 1))

def compareStep (s : State) (k : Nat) : State :=
  match s.cmd k with
  | none => s
  | some c =>
    underSeq c (fun s =>
      if c.total ≤ c.progress then cmpEnd s k c
      else match cmpRead s c c.progress with
        | (.stop ra w, s1) => stopGran s1 k ra rRead w (2 * granLen (c.par 16 8) (c.par 32 8) c.progress)
        | (.ok (xs, ys), s1) =>
          let d := (cmpDiffs c xs ys).length
          let s2 := granDone s1 k (2 * xs.length) fun c =>
            { c with sat := satAdd 32 c.sat d, opState := if c.opState = 0 && d != 0 then c.progress else c.opState }
          match s2.cmd k with
          | some c2 => if c2.total ≤ c2.progress then cmpEnd s2 k c2 else s2
          | none => s2) s

/-- ABS_TOL: FP32, finite and not negative (R240). -/
def absTolOk (x : Nat) : Bool := match f32 x with
  | .fin neg m _ => !neg || m == 0
  | _ => false

def specCompare : OpSpec := {
  valid := fun _ c => spanOk (c.par 16 8) (c.par 32 8) && spanOk (c.par 24 8) (c.par 32 8) && c.par 43 1 == 0
    && spansOk (c.par 16 8) (c.par 32 8) (c.par 24 8) (c.par 32 8) true
    && (if c.par 40 1 = 0 then c.par 41 2 == 0 && c.par 44 4 == 0
        else c.par 40 1 == 1 && decide (c.par 41 1 ≤ 4) && decide (c.par 42 1 ≤ 24) && absTolOk (c.par 44 4))
  rights := fun s c => firstRefusal [rightsAt s c.host (c.par 16 8) rRead, rightsAt s c.host (c.par 24 8) rRead]
  size := fun s c => some (2 * c.par 32 8,
    [spanSlices s c.host (c.par 16 8) (c.par 32 8), spanSlices s c.host (c.par 24 8) (c.par 32 8)])
  total := fun _ c => some (granules (c.par 16 8) (c.par 32 8))
  step := some compareStep }

/-! ## REDUCE (R241, R242) -/

def redFmtIn (c : Cmd) : Nat := c.par 17 1
def redFmtOut (c : Cmd) : Nat := c.par 18 1
def redN (c : Cmd) : Nat := c.par 20 4
def redStrided (c : Cmd) : Bool := c.par 19 1 == 1
def inBytes (c : Cmd) : Nat := container (redFmtIn c) / 8
def outBytes (c : Cmd) : Nat := container (redFmtOut c) / 8
/-- RA of contributor `i`. -/
def redSrc (c : Cmd) (i : Nat) : Nat := if redStrided c then c.par 32 8 + i * c.par 24 8 else c.par (64 + 8 * i) 8
def redIn (c : Cmd) : Nat := c.par 8 8 * inBytes c
def redOut (c : Cmd) : Nat := c.par 8 8 * outBytes c

/-- An element as the fold holds it: an FP32 code, or the INT32 code. -/
def redLoad (c : Cmd) (x : Nat) : Nat := if redFmtIn c = 8 then x else (convert (redFmtIn c) 0 .rne false x).code
/-- One step of the fold (R242): the accumulator and whether it saturated. -/
def redFold (c : Cmd) (acc : Nat × Nat) (x : Nat) : Nat × Nat :=
  if redFmtIn c = 8 then
    let a := intOf 8 acc.1
    let b := intOf 8 x
    let r := match c.par 16 1 with
      | 0 => a + b
      | 1 => max a b
      | _ => min a b
    if 2 ^ 31 - 1 < r then (intCode 8 (2 ^ 31 - 1), acc.2 + 1)
    else if r < -(2 ^ 31) then (intCode 8 (-(2 ^ 31)), acc.2 + 1)
    else (intCode 8 r, acc.2)
  else (redStep (c.par 16 1) acc.1 x, acc.2)

/-- One output element from the contributors' elements, with its saturations. -/
def redElem (c : Cmd) : List Nat → Nat × Nat
  | [] => (0, 0)
  | x :: t =>
    let (acc, sat) := t.foldl (fun a y => redFold c a (redLoad c y)) (redLoad c x, 0)
    let out := convert (if redFmtIn c = 8 then 8 else 0) (redFmtOut c) .rne false acc
    (out.code, sat + (if out.sat then 1 else 0))

/-- Reads the inputs of `n` elements from element `e0`, contributor by contributor in ascending order. -/
def redReads (c : Cmd) (e0 n : Nat) : Nat → Nat → State → List (List Byte) → Span (List (List Byte)) × State
  | 0, _, s, acc => (.ok acc, s)
  | m + 1, i, s, acc => match readAll s c.host (redSrc c i + e0 * inBytes c) (n * inBytes c) with
    | (.stop ra w, s1) => (.stop ra w, s1)
    | (.ok bs, s1) => redReads c e0 n m (i + 1) s1 (acc ++ [bs])

def reduceStep (s : State) (k : Nat) : State :=
  match s.cmd k with
  | none => s
  | some c =>
    let dst := c.par 0 8
    let o := granOff dst c.progress
    let n := granLen dst (redOut c) c.progress / outBytes c
    let e0 := o / outBytes c
    let bytes := n * (redN c * inBytes c + outBytes c)
    underSeq c (fun s => match redReads c e0 n (redN c) 0 s [] with
      | (.stop ra w, s1) => stopGran s1 k ra rRead w bytes
      | (.ok ins, s1) =>
        let outs := (List.range n).map fun j => redElem c (ins.map fun bs => leAt bs (j * inBytes c) (inBytes c))
        let sat := outs.foldl (fun m x => m + x.2) 0
        match writeAll s1 c.host (dst + o) (outs.flatMap fun x => leBytes (outBytes c) x.1) with
        | (.stop ra w, s2) => stopGran s2 k ra rWrite w bytes
        | (.ok (), s2) =>
          endIfLast (granDone s2 k bytes fun c => { c with sat := satAdd 32 c.sat sat })
            k (fun c => c.sat) (fun c => c.sat = 2 ^ 32 - 1)) s

/-- Every pair of contributor spans keeps R235; strided ones are apart by STRIDE. -/
def redSpansOk (c : Cmd) : Bool :=
  let l := (List.range (redN c)).map (redSrc c)
  (redStrided c || (List.range (redN c)).all fun i => (l.drop (i + 1)).all fun b => spansOk (l.getD i 0) (redIn c) b (redIn c) false)
    && l.all fun a => spansOk (c.par 0 8) (redOut c) a (redIn c) true

def specReduce : OpSpec := {
  form := .desc []
  valid := fun _ c =>
    let n := redN c
    let fmtOk := fun (f : Nat) => decide (f ≤ 4) || f == 8
    c.par 8 8 % 64 == 0 && decide (64 ≤ c.par 8 8) && decide (c.par 8 8 ≤ 2 ^ 38) && decide (c.par 16 1 ≤ 2)
      && fmtOk (redFmtIn c) && fmtOk (redFmtOut c) && ((redFmtIn c == 8) == (redFmtOut c == 8)) && decide (c.par 19 1 ≤ 1)
      && decide (1 ≤ n) && decide (n ≤ if redStrided c then 1024 else 504) && c.par 40 24 == 0
      && spanOk (c.par 0 8) (redOut c)
      && (if redStrided c then c.par 24 8 % 64 == 0 && decide (redIn c ≤ c.par 24 8) && c.desc.length == 64
          else c.par 24 16 == 0 && c.desc.length == roundUp (64 + 8 * n) 64
            && leNat (c.desc.drop (64 + 8 * n)) == 0)
      && (List.range n).all (fun i => spanOk (redSrc c i) (redIn c)) && redSpansOk c
  rights := fun s c => firstRefusal (((List.range (redN c)).map fun i => rightsAt s c.host (redSrc c i) rRead)
    ++ [rightsAt s c.host (c.par 0 8) rWrite])
  size := fun s c => some (redN c * redIn c + redOut c,
    (List.range (redN c)).map (fun i => spanSlices s c.host (redSrc c i) (redIn c)) ++ [spanSlices s c.host (c.par 0 8) (redOut c)])
  total := fun _ c => some (granules (c.par 0 8) (redOut c))
  step := some reduceStep }

/-! ## NMO_RELEASE (R236) -/

def nmoReleaseAct (s : State) (k : Nat) : State :=
  match s.cmd k with
  | none => s
  | some c =>
    let x := s.chan c.chan
    settle (finish (s.setChan c.chan { x with halted := false, haltCount := 0 }) k stOK 0 x.haltCount [] (x.haltCount = 2 ^ 32 - 1))
def specNmoRelease : OpSpec := { valid := fun _ c => zeroB c.raw 16 32, act := nmoReleaseAct }

def execFill (c : CmdIn) (s : State) : Host.Outcome State Fault Refusal :=
  done (haltSweep (receive s (some specFill) (withOpcode c 0x0300)) c.chan)
def execCopy (c : CmdIn) (s : State) : Host.Outcome State Fault Refusal :=
  done (haltSweep (receive s (some specCopy) (withOpcode c 0x0301)) c.chan)
def execCompare (c : CmdIn) (s : State) : Host.Outcome State Fault Refusal :=
  done (haltSweep (receive s (some specCompare) (withOpcode c 0x0302)) c.chan)
def execReduce (c : CmdIn) (s : State) : Host.Outcome State Fault Refusal :=
  done (haltSweep (receive s (some specReduce) (withOpcode c 0x0303)) c.chan)
def execNmoRelease (c : CmdIn) (s : State) : Host.Outcome State Fault Refusal :=
  done (receive s (some specNmoRelease) (withOpcode c 0x030F))

end Sys2Proof.Machine
end

