-- ==== Sys2Proof/Machine/Firmware.lean ====
section
/-! DEFINITION. Firmware images (R449, R450), the firmware opcodes (R454-R456), Coleth messages and the mailbox (R457-R462),
and what follows the reload of a core (R463). -/
namespace Sys2Proof.Machine

/-! ## Images (R450) -/

/-- 16 MiB. -/
def mib16 : Nat := 2 ^ 24

/-- The component entries of an image: type, offset, length, hash, and whether the other bytes are 0. -/
structure Comp where
  ty   : Nat
  off  : Nat
  len  : Nat
  hash : List Byte
  rsv  : Bool
deriving DecidableEq, Repr

def imgComps (img : List Byte) : List Comp :=
  (List.range (leAt img 6 2)).map fun i =>
    let e := (img.drop (64 + 64 * i)).take 64
    { ty := leAt e 0 1, off := leAt e 4 4, len := leAt e 8 4, hash := (e.drop 16).take 48
      rsv := leAt e 1 3 == 0 && leAt e 12 4 == 0 }

/-- Size and place checks: TOTAL_LEN, and every component and the key inside it. -/
def imgSizeOk (img : List Byte) : Bool :=
  let total := leAt img 20 4
  let n := leAt img 6 2
  decide (total ≤ mib16) && decide (64 + 64 * n + 96 ≤ total) && decide (total ≤ img.length)
    && decide (leAt img 24 8 + 97 ≤ total)
    && (imgComps img).all (fun c => decide (c.off + c.len ≤ total) && (c.ty != 1 || decide (c.len ≤ 262144)))

/-- The stated fields, and types 1 to 5 once each. -/
def imgFormOk (img : List Byte) : Bool :=
  leAt img 0 4 == 0x4D494657 && leAt img 4 2 == 1 && decide (5 ≤ leAt img 6 2) && decide (leAt img 6 2 ≤ 8)
    && leAt img 17 3 == 0 && leAt img 32 32 == 0 && decide (leAt img 8 4 ≤ 63) && (imgComps img).all (·.rsv)
    && [1, 2, 3, 4, 5].all fun t => ((imgComps img).filter (·.ty == t)).length == 1

/-- The public key hashes to the fuses, and the signature at the end of the image verifies over header and entries. -/
def imgSigOk (s : State) (img : List Byte) : Bool :=
  let key := (img.drop (leAt img 24 8)).take 97
  let total := leAt img 20 4
  Config.sha384 key == s.fuses.fwKeyHash
    && Config.sigOk key (img.take (64 + 64 * leAt img 6 2)) ((img.drop (total - 96)).take 96)

/-- The ERROR of the check of an image (R450, R455): 0 where it is valid. A bad stated field counts as a bad signature, since
the header is what is signed (DESIGN CHOICE, log 27). -/
def imgError (s : State) (img : List Byte) : Nat :=
  if !imgSizeOk img then 4
  else if !imgFormOk img || !imgSigOk s img then 1
  else if leAt img 8 4 < s.fuses.minSvn then 2
  else if (imgComps img).all fun c => Config.sha384 ((img.drop c.off).take c.len) == c.hash then 0 else 3

/-- Puts a checked image into a slot, in the state given. -/
def programSlot (s : State) (slot st : Nat) (img : List Byte) : State :=
  { s with fw := { s.fw with
    slotState := s.fw.slotState.set slot st, slotImg := s.fw.slotImg.set slot img
    svn := s.fw.svn.set slot (leAt img 8 4), version := s.fw.version.set slot (BitVec.ofNat 32 (leAt img 12 4)) } }

/-! ## The firmware opcodes (R454-R456) -/

/-- Who may issue them (R454): never the fabric; in CLAIMED the administrator; otherwise rings of the physical function. -/
def fwRights (s : State) (c : Cmd) : Option (Nat × Rights × Nat) :=
  match c.chan with
  | .rank _ => some (1, 0, 0)
  | .ring n =>
    if s.iso.tenant = 1 && !s.fw.standby then adminOnly s c
    else if ringFn s n = 0 then none else some (6, 0, 0)

/-- Is an update being verified or programmed? -/
def fwBusy (s : State) : Bool := s.fw.state == 1 || s.fw.state == 2

def fwStageAct (s : State) (k : Nat) : State :=
  match s.cmd k with
  | none => s
  | some c =>
    let src := c.par 16 8
    let len := c.par 28 4
    if s.hostFails src len then settle (finish s k stMALFORMED)
    else settle (finish { s with fw := { s.fw with staging := memPutL s.fw.staging (c.par 24 4) (s.hostRead src len) } } k stOK)
def specFwStage : OpSpec := {
  valid := fun _ c => c.par 24 4 % 65536 == 0 && decide (c.par 24 4 ≤ mib16 - 65536) && c.par 28 4 % 4096 == 0
    && decide (4096 ≤ c.par 28 4) && decide (c.par 28 4 ≤ 65536) && zeroB c.raw 32 16
  rights := fwRights
  admits := fun s _ => if fwBusy s then some stRESOURCES else none
  act := fwStageAct }

def fwCommitAct (s : State) (k : Nat) : State :=
  match s.cmd k with
  | none => s
  | some c => settle (finish { s with fw := { s.fw with state := 1, error := 0, totalLen := c.par 16 4, programmed := 0 } } k stOK)
def specFwCommit : OpSpec := {
  valid := fun _ c => zeroB c.raw 20 28
  rights := fwRights
  admits := fun s _ => if fwBusy s then some stRESOURCES else none
  act := fwCommitAct }

/-- Does SEC run: it serves the sideband (R462) and the updates, which wait while it restarts (R464)? -/
def secRuns (s : State) : Bool := !unitDown s (unitOf 5 0)

/-- The staged image of `n` bytes. -/
def stagedImage (s : State) (n : Nat) : List Byte := memGetL s.fw.staging 0 n

/-- FW_PROGRAM_COMPLETE (R455): the verification ends, and then, where it passed, the programming of the slot that is not
running; `flashOk` says whether the flash took the image. -/
def execFwProgramComplete (flashOk : Bool) (s : State) : Host.Outcome State Fault Refusal :=
  done (
    let slot := 1 - s.fw.running
    if !secRuns s then s
    else if s.fw.state = 1 then
      let img := stagedImage s s.fw.totalLen
      let e := if decide (mib16 < s.fw.totalLen) || leAt img 20 4 != s.fw.totalLen then 4 else imgError s img
      if e = 0 then { s with fw := { s.fw with state := 2 } } else { s with fw := { s.fw with state := 4, error := e } }
    else if s.fw.state = 2 then
      if flashOk then
        let s := programSlot s slot 1 (stagedImage s s.fw.totalLen)
        { s with fw := { s.fw with state := 3, programmed := s.fw.totalLen } }
      else { s with fw := { s.fw with state := 4, error := 5, slotState := s.fw.slotState.set slot 4 } }
    else s)

/-- A restart of SEC or a reset during an update: ERROR 6, and a slot being programmed is INVALID (R455). -/
def fwInterrupt (s : State) : State :=
  if s.fw.state = 2 then
    { s with fw := { s.fw with state := 4, error := 6, slotState := s.fw.slotState.set (1 - s.fw.running) 4 } }
  else if s.fw.state = 1 then { s with fw := { s.fw with state := 4, error := 6 } }
  else s

def fwStatusAct (s : State) (k : Nat) : State :=
  let f := s.fw
  settle (finish s k stOK 0 (f.state + 2 ^ 8 * f.error + 2 ^ 32 * f.programmed + 2 ^ 64 * f.running
    + 2 ^ 72 * f.slotState.getD 0 0 + 2 ^ 80 * f.slotState.getD 1 0 + 2 ^ 88 * s.fuses.minSvn))
def specFwStatus : OpSpec := { valid := fun _ c => zeroB c.raw 16 32, rights := fwRights, act := fwStatusAct }

/-- FW_ACTIVATE needs an idle update and a STAGED or VALID slot (R456). -/
def fwMayActivate (s : State) (x : Nat) : Bool :=
  !fwBusy s && (s.fw.slotState.getD x 0 == 1 || s.fw.slotState.getD x 0 == 3)

def fwActivateAct (s : State) (k : Nat) : State :=
  match s.cmd k with
  | none => s
  | some c =>
    let x := c.par 16 1
    let st := s.fw.slotState.getD x 0
    if !fwMayActivate s x then settle (finish s k stMALFORMED)
    else
      let s := { s with fw := { s.fw with preferred := x } }
      let s := if st = 1 then { s with fw := { s.fw with slotState := s.fw.slotState.set x 2, tries := s.fw.tries.set x 3 } } else s
      settle (finish s k stOK)
def specFwActivate : OpSpec := {
  valid := fun s c => decide (c.par 16 1 ≤ 1) && zeroB c.raw 17 31 && fwMayActivate s (c.par 16 1)
  rights := fwRights
  act := fwActivateAct }

/-- FW_CONFIRM: a TRIAL slot that runs is VALID, and the minimum SVN rises to that of the running image. -/
def fwConfirmAct (s : State) (k : Nat) : State :=
  let r := s.fw.running
  let s := if s.fw.slotState.getD r 0 = 2 then
      { s with fw := { s.fw with slotState := s.fw.slotState.set r 3 } }
    else s
  settle (finish { s with fuses := { s.fuses with minSvn := max s.fuses.minSvn (s.fw.svn.getD r 0) } } k stOK)
def specFwConfirm : OpSpec := { valid := fun _ c => zeroB c.raw 16 32, rights := fwRights, act := fwConfirmAct }

def execFwStage (c : CmdIn) (s : State) : Host.Outcome State Fault Refusal :=
  done (receive s (some specFwStage) (withOpcode c 0x0F02))
def execFwCommit (c : CmdIn) (s : State) : Host.Outcome State Fault Refusal :=
  done (receive s (some specFwCommit) (withOpcode c 0x0F03))
def execFwStatus (c : CmdIn) (s : State) : Host.Outcome State Fault Refusal :=
  done (receive s (some specFwStatus) (withOpcode c 0x0F04))
def execFwActivate (c : CmdIn) (s : State) : Host.Outcome State Fault Refusal :=
  done (receive s (some specFwActivate) (withOpcode c 0x0F05))
def execFwConfirm (c : CmdIn) (s : State) : Host.Outcome State Fault Refusal :=
  done (receive s (some specFwConfirm) (withOpcode c 0x0F06))

/-! ## Coleth messages (R457-R459) -/

/-- CRC-32 of IEEE 802.3 (R458), one byte on. -/
def crc32Bit (x : Nat) : Nat := if x % 2 = 1 then (x / 2) ^^^ 0xEDB88320 else x / 2
def crc32Byte (x : Nat) (b : Byte) : Nat :=
  crc32Bit (crc32Bit (crc32Bit (crc32Bit (crc32Bit (crc32Bit (crc32Bit (crc32Bit (x ^^^ b.toNat))))))))
def crc32 (bs : List Byte) : Nat := bs.foldl crc32Byte 0xFFFFFFFF ^^^ 0xFFFFFFFF

/-- A whole message: header, CRC over bytes 0-11 and the body, body (R457). -/
def colethBytes (ty flags seq : Nat) (body : List Byte) : List Byte :=
  let h : List Byte := [1, 0] ++ leBytes 2 ty ++ leBytes 2 body.length ++ leBytes 2 flags ++ leBytes 4 seq
  h ++ leBytes 4 (crc32 (h ++ body)) ++ body

/-- Is the message whole: a header, LENGTH within the bytes written and at most 4,080, and its CRC good (R458)? -/
def colethGood (bs : List Byte) : Bool :=
  let n := leAt bs 4 2
  decide (16 + n ≤ bs.length) && decide (n ≤ 4080) && leAt bs 12 4 == crc32 (bs.take 12 ++ (bs.drop 16).take n)

/-- Writes a message into `MBX_F2H_DATA` and sets VALID (R461). -/
def mbxPut (s : State) (bs : List Byte) : State :=
  { s with fw := { s.fw with f2hValid := true, f2hLen := bs.length, f2hData := memPutL [] 0 bs } }

def mbxError (s : State) : State := { s with fw := { s.fw with mbxErrors := satAdd 32 s.fw.mbxErrors 1 } }

/-- A response on the path of its request; on the mailbox it waits while VALID is 1 (R461). -/
def colethReply (s : State) (p : ColethPath) (bs : List Byte) : State :=
  match p with
  | .sideband _ => s.send (.coleth true bs)
  | .mailbox => if s.fw.f2hValid then { s with fw := { s.fw with resp := s.fw.resp ++ [bs] } } else mbxPut s bs

/-- An EVENT (R459): CODE, subject and value; at most 16 wait, and the oldest beyond them are dropped and counted (R461).
What VALUE holds is a DESIGN CHOICE (log 28). Without running firmware none is sent. -/
def sendEvent (s : State) (code subject value : Nat) : State :=
  if !s.fw.fwReady then s
  else
    let bs := colethBytes 0x0010 0 (2 ^ 31 + s.fw.eventSeq % 2 ^ 31) ([BitVec.ofNat 8 code, BitVec.ofNat 8 subject, 0, 0] ++ leBytes 4 value)
    let s := { s with fw := { s.fw with eventSeq := s.fw.eventSeq + 1 } }
    if !s.fw.f2hValid then mbxPut s bs
    else if s.fw.events.length < 16 then { s with fw := { s.fw with events := s.fw.events ++ [bs] } }
    else mbxError { s with fw := { s.fw with events := s.fw.events.drop 1 ++ [bs] } }

/-- VALID was cleared: a waiting response, or the oldest waiting EVENT, is written next (R461). -/
def mbxNext (s : State) : State :=
  if s.fw.f2hValid then s
  else match s.fw.resp, s.fw.events with
    | r :: rs, _ => mbxPut { s with fw := { s.fw with resp := rs } } r
    | [], e :: es => mbxPut { s with fw := { s.fw with events := es } } e
    | [], [] => s

/-- A write of `MBX_F2H_CTRL` with VALID = 1 (R461). -/
def mbxClear (s : State) (v : Nat) : State :=
  if bitOf v 31 && s.fw.f2hValid then mbxNext { s with fw := { s.fw with f2hValid := false } } else s
def execMbxF2hValidClear (value : W32) (s : State) : Host.Outcome State Fault Refusal := done (onBar s 4 (mbxClear s value.toNat))

/-- Is a message of this path served: firmware waiting for HELLO or running, or ROM mode (R453, R459, R461), and for the sideband SEC? -/
def colethServed (s : State) (p : ColethPath) : Bool :=
  (match p with
    | .sideband _ => secRuns s
    | .mailbox => true) && (s.boot.stage == 6 || s.boot.stage == 7 || s.boot.stage == 8 || s.fw.romMode) && !s.boot.inReset && !s.flt.failed && !s.saf.tripped

/-- The effect of a good message of major 1, and its STATUS and response body (R459, R460). -/
def colethAct (s : State) (ty : Nat) (body : List Byte) : (Nat × List Byte) × State :=
  let f := s.fw
  match ty with
  | 0x0001 =>
    let go := !f.romMode && (s.boot.stage == 6 || s.boot.stage == 8)
    let s := if go then { s with boot := { s.boot with stage := 7, served := true }, fw := { s.fw with standby := false } } else s
    ((0, leBytes 4 (f.version.getD f.running 0).toNat ++ [BitVec.ofNat 8 f.running, BitVec.ofNat 8 s.boot.stage]), s)
  | 0x0002 =>
    ((0, [1, 0, 0, 0] ++ leBytes 4 (f.version.getD 0 0).toNat ++ leBytes 4 (f.svn.getD 0 0)
      ++ leBytes 4 (f.version.getD 1 0).toNat ++ leBytes 4 (f.svn.getD 1 0)
      ++ leBytes 1 (f.slotState.getD 0 0) ++ leBytes 1 (f.slotState.getD 1 0)), s)
  | 0x0003 =>
    if !f.romMode then ((2, []), s)
    else if body.length < 4 || 4080 < body.length || mib16 < leAt body 0 4 + (body.length - 4) then ((3, []), mbxError s)
    else ((0, []), { s with fw := { f with staging := memPutL f.staging (leAt body 0 4) (body.drop 4) } })
  | 0x0004 =>
    if !f.romMode then ((2, []), s)
    else
      let n := leAt body 0 4
      let slot := leAt body 4 1
      let img := stagedImage s n
      if body.length < 5 || 1 < slot then ((3, []), mbxError s)
      else if decide (mib16 < n) || leAt img 20 4 != n || imgError s img != 0 then ((5, []), s)
      else
        let s := programSlot s slot 3 img
        ((0, []), { s with fw := { s.fw with preferred := slot } })
  | _ => ((2, []), s)

/-- The message that a path holds. -/
def colethMsg (s : State) : ColethPath → Option (List Byte)
  | .sideband bs => some bs
  | .mailbox => if s.fw.h2fGo then some (memGetL s.fw.h2fData 0 s.fw.h2fLen) else none

/-- Firmware, or the boot ROM, takes a message and answers it (R457-R462). -/
def colethServe (s : State) (p : ColethPath) (bs : List Byte) : State :=
  let ty := leAt bs 2 2
  let seq := leAt bs 8 4
  let answer : State → Nat → List Byte → State := fun s st body =>
    colethReply s p (colethBytes ty 1 seq ([BitVec.ofNat 8 st, 0, 0, 0] ++ body))
  let busy := match p with
    | .mailbox => s.fw.resp != []
    | .sideband _ => false
  let s := match p with
    | .mailbox => { s with fw := { s.fw with h2fGo := false } }
    | .sideband _ => s
  if !colethGood bs then answer (mbxError s) 3 []
  else if busy then answer s 4 []
  else
    let s := if ty = 1 then { s with fw := { s.fw with hostVer := BitVec.ofNat 8 (leAt bs 0 1 % 16 * 16 + leAt bs 1 1 % 16) } } else s
    if leAt bs 0 1 != 1 then
      let refused := ty == 1 && !s.fw.romMode
      let s := if refused then { s with boot := { s.boot with stage := 8, served := true }, fw := { s.fw with standby := true } } else s
      answer s 1 []
    else
      let ((st, body), s) := colethAct s ty ((bs.drop 16).take (leAt bs 4 2))
      answer s st body

/-- A row of the table for one TYPE: a message of that type, or one whose type is none of the four or unreadable. -/
def colethRow (s : State) (ty : Nat) (p : ColethPath) : State :=
  match colethMsg s p with
  | none => s
  | some bs =>
    let t := leAt bs 2 2
    let other := [1, 2, 3, 4].contains t && t != ty && colethGood bs
    if !colethServed s p || other then s else colethServe s p bs

def execHello (m : ColethPath) (s : State) : Host.Outcome State Fault Refusal := done (colethRow s 1 m)
def execVersionQuery (m : ColethPath) (s : State) : Host.Outcome State Fault Refusal := done (colethRow s 2 m)
def execFwChunk (m : ColethPath) (s : State) : Host.Outcome State Fault Refusal := done (colethRow s 3 m)
def execFwRomCommit (m : ColethPath) (s : State) : Host.Outcome State Fault Refusal := done (colethRow s 4 m)

end Sys2Proof.Machine
end

