-- ==== Sys2Proof/Machine/Power.lean ====
section
/-! DEFINITION. The energy account, the budgets, the planner and thermal control (R466-R476). Energy in mJ, power in W or µW. -/
namespace Sys2Proof.Machine

/-- Does PMC restart now (R464): nothing is planned, and thermal control is frozen? -/
def pmcDown (s : State) : Bool :=
  let u := (s.unit (unitOf 5 1)).state
  u == 1 || u == 2

/-! ## The energy account (R466, R471) -/

/-- The 26 domains: 3p + d of partition p, then 24 SERDES and 25 IOD. -/
def energySample (s : State) (mj : List Nat) : State :=
  let mj := mj.take 26
  let e := ((List.range mj.length).zip mj).foldl (fun t x => tabSet 0 t x.1 (satAdd 64 (tabGet 0 t x.1) x.2)) s.pwr.energy
  let sum := mj.foldl (· + ·) 0
  { s with pwr := { s.pwr with energy := e, bucketMj := s.pwr.bucketMj + sum, epochMj := s.pwr.epochMj + sum } }
def execEnergySample (mj : List Nat) (s : State) : Host.Outcome State Fault Refusal := done (energySample s mj)

/-- ENERGY_BUCKET: the window is the sum of the last 100 buckets, kept oldest first. -/
def energyBucket (s : State) : State :=
  let b := s.pwr.buckets ++ [s.pwr.bucketMj]
  let b := b.drop (b.length - 100)
  { s with pwr := { s.pwr with buckets := b, bucketMj := 0, window := b.foldl (· + ·) 0 } }
def execEnergyBucket (s : State) : Host.Outcome State Fault Refusal := done (energyBucket s)

/-! ## Budgets (R467) -/

def budgetSetAct (s : State) (k : Nat) : State :=
  match s.cmd k with
  | none => s
  | some c => settle (finish { s with pwr := { s.pwr with nextB := some (c.par 16 2, c.par 20 4) } } k stOK)
def specPwrBudgetSet : OpSpec := {
  valid := fun _ c => decide (400 ≤ c.par 16 2) && decide (c.par 16 2 ≤ 950) && zeroB c.raw 18 2
    && decide (1000 ≤ c.par 20 4) && decide (c.par 20 4 ≤ 9500) && zeroB c.raw 24 24
  rights := adminOnly
  act := budgetSetAct }

/-- The highest DVFS level a throttle level permits (R473). -/
def capOf (throttle : Nat) : Nat := [4, 3, 1, 0].getD throttle 0
/-- The highest level that some compute die permits. -/
def highestLevel (s : State) : Nat := (s.pwr.throttle.take 4).foldl (fun m t => max m (capOf t)) 0

def pwrQueryAct (s : State) (k : Nat) : State :=
  let p := s.pwr
  settle (finish s k stOK 0 (p.pEff % 2 ^ 16 + 2 ^ 16 * min p.draw 65535 + 2 ^ 32 * min (p.window / 1000) (2 ^ 32 - 1)
    + 2 ^ 64 * min p.planned 65535 + 2 ^ 80 * highestLevel s))
def specPwrQuery : OpSpec := { valid := fun _ c => zeroB c.raw 16 32, rights := adminOnly, act := pwrQueryAct }
def execPwrBudgetSet (c : CmdIn) (s : State) : Host.Outcome State Fault Refusal :=
  done (receive s (some specPwrBudgetSet) (withOpcode c 0x0F10))
def execPwrQuery (c : CmdIn) (s : State) : Host.Outcome State Fault Refusal :=
  done (receive s (some specPwrQuery) (withOpcode c 0x0F11))

/-- SITE_CAP_SET: a cap outside [400, 950] changes nothing. -/
def execSiteCapSet (watts : Nat) (s : State) : Host.Outcome State Fault Refusal :=
  done (if 400 ≤ watts && watts ≤ 950 then { s with pwr := { s.pwr with nextCap := some watts } } else s)

/-- Budget changes take effect at the epoch, with an EVENT of CODE 4 whose value is the new effective budget. -/
def applyBudget (s : State) : State :=
  if s.pwr.nextB.isNone && s.pwr.nextCap.isNone then s
  else
    let (b, e) := s.pwr.nextB.getD (s.pwr.pB, s.pwr.eB)
    let cap := s.pwr.nextCap.getD s.pwr.pCap
    let s := { s with intr := { s.intr with pwr := if s.pwr.pEff = min b cap then s.intr.pwr else s.intr.pwr ||| 4 }
                      pwr := { s.pwr with pB := b, eB := e, pCap := cap, pEff := min b cap, nextB := none, nextCap := none } }
    sendEvent s 4 0 s.pwr.pEff

/-! ## The planner (R470, R472, R475) -/

/-- A running run: its slot, its tiles, its floor 0, and the cap of the dies that its tiles lie on. -/
structure PlanRun where
  key  : Nat
  n    : Nat
  cap  : Nat
  seq  : Nat
  lvl  : Nat
deriving DecidableEq, Repr

/-- The running runs in order of admission. -/
def planRuns (s : State) : List PlanRun :=
  s.store.cmds.filterMap fun e =>
    if opcodeOf e.2.raw == 0x0381 && e.2.started && (e.2.st == .running || e.2.st == .stopping || e.2.st == .suspended)
    then
      let ts := runTiles s e.2
      let cap := ts.foldl (fun m t => min m (capOf (s.pwr.throttle.getD (tilePart t / 2) 0))) 4
      some { key := e.1, n := ts.length, cap := cap, seq := e.2.seq, lvl := tabGet 0 s.pwr.runLvl e.1 }
    else none

/-- Power of the running work other than runs. -/
def otherPower (s : State) : Nat :=
  s.store.cmds.foldl (fun n e => if e.2.started && e.2.loads != [] then n + opPower s e.2 else n) 0
    + s.work.slots.foldl (fun n e => if e.2.running then n + slotPower e.2 else n) 0
    + s.work.gals.foldl (fun n _ => n + Config.galPower) 0

/-- The run whose target rises next: the lowest target below its cap, the earlier admission first. -/
def nextRaise (rs : List (PlanRun × Nat)) : Option (PlanRun × Nat) :=
  (rs.filter fun r => decide (r.2 < r.1.cap)).foldl (fun b r => match b with
    | none => some r
    | some x => if r.2 < x.2 || (r.2 == x.2 && decide (r.1.seq < x.1.seq)) then some r else some x) none

/-- The targets of R470; `fuel` bounds the raises, at most four for each run. -/
def planTargets : Nat → Int → List (PlanRun × Nat) → List (PlanRun × Nat)
  | 0, _, rs => rs
  | fuel + 1, spare, rs =>
    match nextRaise rs with
    | none => rs
    | some (w, t) =>
      let cost : Int := (w.n * tilePower (t + 1) : Nat) - (w.n * tilePower t : Nat)
      if spare < cost then rs
      else planTargets fuel (spare - cost) (rs.map fun r => if r.1.key = w.key then (r.1, t + 1) else r)

/-- Would the window exceed E_B within the next second at the present draw (R472)? -/
def windowOver (s : State) : Bool :=
  (List.range 10).any fun i =>
    let n := i + 1
    let gone := (s.pwr.buckets.take (s.pwr.buckets.length + n - 100)).foldl (· + ·) 0
    decide (s.pwr.eB * 1000 < s.pwr.window - gone + s.pwr.draw * 100 * n)

/-- PLANNER_EPOCH: `unres` is the measured P_UNRES in µW (R468). While PMC restarts no level changes (R464). -/
def plannerEpoch (s : State) (unres : Nat) : State :=
  let s := { s with pwr := { s.pwr with draw := s.pwr.epochMj, epochMj := 0 } }
  if pmcDown s then s
  else
    let s := applyBudget { s with pwr := { s.pwr with unres := unres } }
    let rs := planRuns s
    let base := rs.foldl (fun n r => n + r.n * tilePower 0) 0
    let spare : Int := (s.pwr.pEff * 1000000 : Nat) - (pFix + unres + otherPower s + base : Nat)
    let ts := planTargets (4 * rs.length) spare (rs.map fun r => (r, 0))
    let lvls := ts.map fun r => (r.1, if r.1.lvl < r.2 then r.1.lvl + 1 else r.2)
    let overs := decide (s.pwr.pEff < s.pwr.draw) || windowOver s
    -- over budget, no level rises, and the runs at the highest level go one down; at the floor new starts are held
    let flat := ts.map fun r => (r.1, min r.1.lvl r.2)
    let top := flat.foldl (fun m r => max m r.2) 0
    let lvls := if overs then flat.map (fun r => (r.1, if r.2 = top then r.2 - 1 else r.2)) else lvls
    let hold := overs && (s.pwr.hold || top == 0)
    let tab := lvls.foldl (fun t r => tabSet 0 t r.1.key r.2) []
    let planned := pFix + unres + otherPower s + lvls.foldl (fun n r => n + r.1.n * tilePower r.2) 0
    let s := { s with pwr := { s.pwr with runLvl := tab, hold := hold, planned := planned / 1000000 } }
    let s := setLevels s
    let s := if overs then
        let n := s.pwr.overs
        sendEvent { s with intr := { s.intr with pwr := s.intr.pwr ||| 1 }
                           pwr := { s.pwr with overs := satAdd 32 n 1
                                               ovf := if satOvf 32 n 1 then s.pwr.ovf ||| 2 else s.pwr.ovf } } 3 0 s.pwr.draw
      else s
    if hold then s else s.work.slots.foldl (fun s e => tryStep s e.1) s
def execPlannerEpoch (unres : Nat) (s : State) : Host.Outcome State Fault Refusal := done (plannerEpoch s unres)

/-! ## Thermal control (R473-R475) -/

/-- T1, T2 and T3 in sixteenths of a degree. -/
def thermT (i : Nat) : Int := [1520, 1600, 1680].getD i 1680

/-- A dwell: the moment it began (plus 1; 0 where none runs), after a sample that keeps it or breaks it, and whether it has
lasted 10 ms. -/
def dwell (start now : Nat) (keeps : Bool) : Nat × Bool :=
  if !keeps then (0, false)
  else
    let t := if start = 0 then now + 1 else start
    (t, decide (t + ms 10 ≤ now + 1))

/-- One sensor against one threshold (R474). -/
def thermCross (s : State) (sensor i : Nat) (t : Int) : State :=
  let k := 3 * sensor + i
  let (u, up) := dwell (tabGet 0 s.pwr.dwellUp k) s.now (decide (thermT i ≤ t))
  let (d, dn) := dwell (tabGet 0 s.pwr.dwellDn k) s.now (decide (t ≤ thermT i - 48))
  let c := if up then true else if dn then false else tabGet false s.pwr.crossed k
  { s with pwr := { s.pwr with dwellUp := tabSet 0 s.pwr.dwellUp k u, dwellDn := tabSet 0 s.pwr.dwellDn k d
                               crossed := tabSet false s.pwr.crossed k c } }

/-- The level a sensor asks for: the highest threshold it has crossed. -/
def sensorLevel (s : State) (sensor : Nat) : Nat :=
  (List.range 3).foldl (fun m i => if tabGet false s.pwr.crossed (3 * sensor + i) then i + 1 else m) 0
/-- The sensors that govern die `k`: its own, its two stacks' and the IOD's; the IOD is 4. -/
def dieSensors (k : Nat) : List Nat := if k = 4 then [4] else [k, 5 + 2 * k, 6 + 2 * k, 4]

/-- Moves a die one level towards its target, at most once in 50 ms; an EVENT of CODE 2 names the die and its new level. -/
def moveDie (s : State) (k : Nat) : State :=
  let cur := s.pwr.throttle.getD k 0
  let tgt := (dieSensors k).foldl (fun m x => max m (sensorLevel s x)) 0
  let last := s.pwr.lastMove.getD k 0
  if cur = tgt || (last != 0 && decide (s.now + 1 < last + ms 50)) then s
  else
    let new := if cur < tgt then cur + 1 else cur - 1
    sendEvent { s with intr := { s.intr with pwr := s.intr.pwr ||| 2 }
                       pwr := { s.pwr with throttle := s.pwr.throttle.set k new, lastMove := s.pwr.lastMove.set k (s.now + 1) } } 2 k new

/-- THERMAL_SAMPLE: 13 temperatures in sixteenths of a degree, signed. -/
def thermalSample (s : State) (temps : List (BitVec 16)) : State :=
  if pmcDown s || temps.length != 13 then s
  else
    let s := { s with pwr := { s.pwr with temps := temps } }
    let s := ((List.range 13).zip temps).foldl (fun s x =>
      (List.range 3).foldl (fun s i => thermCross s x.1 i x.2.toInt) s) s
    [0, 1, 2, 3, 4].foldl moveDie s
def execThermalSample (temps : List (BitVec 16)) (s : State) : Host.Outcome State Fault Refusal := done (thermalSample s temps)

/-- THERMAL_TRIP (R476): at or above 110 °C SAF asserts THERMTRIP_N, stops the clocks, latches the sensor and logs class 0x14.
A trip already latched changes nothing. -/
def thermalTrip (s : State) (sensor : Nat) (temp : BitVec 16) : State :=
  if temp.toInt < 1760 || s.saf.tripped then s
  else
    let s := raiseFault s (unitOf 0x14 0) 0x0D 0 0 1
    { s with pins := { s.pins with thermtripN := false }, saf := { s.saf with tripped := true, tripSensor := sensor, statusByte := s.saf.statusByte ||| 4 } }
def execThermalTrip (sensor : Nat) (temp : BitVec 16) (s : State) : Host.Outcome State Fault Refusal :=
  onInst (decide (sensor < 13)) (thermalTrip s sensor temp)

end Sys2Proof.Machine
end

