-- ==== Sys2Proof/Machine/Qos.lean ====
section
/-! DEFINITION. The service of a memory stop (R138, R141), the QoS commands (R147, R148), queue sampling and histograms
(R149-R151). -/
namespace Sys2Proof.Machine

/-- A coherent request whose line a gate holds waits on (R104). -/
def gateHolds (s : State) (i : QItem) : Bool := match i.work with
  | .coh _ m => gated s (winLine (s.win m.win) m.line)
  | _ => false
/-- The item that a memory stop, filled to now as `x`, serves next (R141). -/
def stopNext (s : State) (x : Point) : Option QItem := selectItem { x with items := x.items.filter fun i => !gateHolds s i } s.now
/-- A memory stop with its buckets filled to now. -/
def stopNow (s : State) (pt : Nat) : Point := (s.point pt).refill s.now (pointRate s pt) (stopReserved s pt)

/-- A memory stop is free: it serves the next item (R141). -/
def stopSelect (s : State) (pt : Nat) : State :=
  let x := stopNow s pt
  match stopNext s x with
  | none => s
  | some i =>
    let s := s.setPoint pt (x.take i)
    match i.work with
    | .cmd k => match s.cmd k with
      | some c => if c.st == .queued then memService (s.setCmd k { c with st := .running }) k else s
      | none => s
    | .burst _ l => pushLines s l
    | .coh code m => cohGo s code m (m.token != 0)

/-- YELLOW_WITHDRAWAL (R138, R280): a hardware opcode yellow, or of a galley's ingest, whose service has not started 16 µs after it
became visible is withdrawn unapplied and answered RETRY with a token. -/
def execYellowWithdrawal (k : Nat) (s : State) : Host.Outcome State Fault Refusal :=
  done (match s.cmd k with
    | none => s
    | some c =>
      if c.st == .queued && (c.color == 2 || c.color == 4) && decide (c.visible + 16000 ≤ s.now) then
        let load := loadOf s c
        let s := (cleanup s k c).delCmd k
        let s := if c.color = 2 then { s with qos := { s.qos with withdrawn := satAdd 32 s.qos.withdrawn 1 } } else s
        settle (retry s c.replyTo load)
      else s)

/-! ## QoS commands (R147, R148) -/

def meterSetAct (s : State) (k : Nat) : State :=
  match s.cmd k with
  | none => s
  | some c =>
    let m : Meter := { unmetered := c.par 18 1 == 1, cir := c.par 20 4, pir := c.par 24 4, cbs := c.par 28 4, pbs := c.par 32 4
                       tc := c.par 28 4 * 1024000, tp := c.par 32 4 * 1024000, last := s.now }
    settle (finish (s.setMeter (c.par 16 2) m) k stOK)
def specQosMeterSet : OpSpec := {
  valid := fun _ c =>
    let rate := fun (x lo : Nat) => decide (lo ≤ x) && decide (x ≤ 16777215)
    let burst := fun (x : Nat) => decide (4 ≤ x) && decide (x ≤ 1048576)
    decide (c.par 16 2 < 4096) && decide (c.par 18 1 ≤ 1) && zeroB c.raw 19 1 && rate (c.par 20 4) 1
      && rate (c.par 24 4) (c.par 20 4) && burst (c.par 28 4) && burst (c.par 32 4) && zeroB c.raw 36 12
  rights := adminOnly
  act := meterSetAct }

def meterQueryAct (s : State) (k : Nat) : State :=
  match s.cmd k with
  | none => s
  | some c =>
    let m := s.meter (c.par 16 2)
    let b := if m.unmetered then m else m.fill s.now
    settle (finish s k stOK 0 (b.tc / 1000 % 2 ^ 32 + 2 ^ 32 * (b.tp / 1000 % 2 ^ 32) + 2 ^ 64 * m.red + 2 ^ 96 * m.yellow)
      [] (m.red = 2 ^ 32 - 1 || m.yellow = 2 ^ 32 - 1))
def specQosMeterQuery : OpSpec := {
  valid := fun _ c => decide (c.par 16 2 < 4096) && zeroB c.raw 18 30
  rights := fun s c => match s.host c.host with
    | some e => if e.admin || e.meter == c.par 16 2 then none else some (1, 0, 0)
    | none => some (1, 0, 0)
  act := meterQueryAct }

def channelSetAct (s : State) (k : Nat) : State :=
  match s.cmd k with
  | none => s
  | some c =>
    let i := c.par 20 4
    let p := c.par 17 1
    let s := if c.par 16 1 = 0 then s.setRing i { s.ring i with prioMax := p }
      else s.setChan (.rank i) { s.chan (.rank i) with prioMax := p, creditMax := c.par 18 1 }
    settle (finish s k stOK)
def specQosChannelSet : OpSpec := {
  valid := fun s c => decide (c.par 16 1 ≤ 1) && decide (c.par 17 1 < 4) && zeroB c.raw 19 1 && zeroB c.raw 24 24
    && (if c.par 16 1 = 0 then c.par 18 1 == 0 && decide (c.par 20 4 < 1024)
        else decide (1 ≤ c.par 18 1) && decide (c.par 18 1 ≤ 64) && decide (c.par 20 4 < 2 ^ 20) && (s.rankE (c.par 20 4)).isSome)
  rights := adminOnly
  act := channelSetAct }

def tcWeightsAct (s : State) (k : Nat) : State :=
  match s.cmd k with
  | none => s
  | some c => settle (finish { s with qos := { s.qos with weights := (List.range 5).map fun i => c.par (16 + i) 1 } } k stOK)
def specQosTcWeights : OpSpec := {
  valid := fun _ c => (List.range 5).all (fun i => c.par (16 + i) 1 != 0) && zeroB c.raw 21 27
  rights := adminOnly
  act := tcWeightsAct }

def execQosMeterSet (c : CmdIn) (s : State) : Host.Outcome State Fault Refusal :=
  done (receive s (some specQosMeterSet) (withOpcode c 0x0800))
def execQosMeterQuery (c : CmdIn) (s : State) : Host.Outcome State Fault Refusal :=
  done (receive s (some specQosMeterQuery) (withOpcode c 0x0801))
def execQosChannelSet (c : CmdIn) (s : State) : Host.Outcome State Fault Refusal :=
  done (receive s (some specQosChannelSet) (withOpcode c 0x0802))
def execQosTcWeights (c : CmdIn) (s : State) : Host.Outcome State Fault Refusal :=
  done (receive s (some specQosTcWeights) (withOpcode c 0x0803))

/-! ## Sampling and histograms (R149-R151) -/

/-- The depth bin and the delay bin of R150. -/
def depthBin (n : Nat) : Nat := if n = 0 then 0 else min 15 (log2 n + 1)
def delayBin (d : Nat) : Nat := if d < 32 then 0 else min 15 (log2 (d / 32) + 1)

/-- Depth and delay of a class queue: port egress, memory stop, PCIe egress (whose packets leave at once). -/
def queueState (s : State) (q : Nat) : Nat × Nat :=
  let head := fun (l : List Nat) => match l with
    | t :: _ => s.now - t
    | [] => 0
  if q < 112 then
    let l := (s.fab.outq.filter fun p => pktPort s p == some (q / 8) && p.tc == q % 8).map (·.since)
    (l.length, head l)
  else if q < 752 then
    let l := ((s.point ((q - 112) / 8)).items.filter fun i => i.tc == q % 8 && (i.color != 0)).map (·.since)
    (l.length, head l)
  else (0, 0)

/-- Adds 1 to a bin (R150). -/
def addBin (t : Tab Nat) (i : Nat) : Tab Nat := tabSet 0 t i (satAdd 32 (tabGet 0 t i) 1)

/-- Samples one class queue. -/
def sampleQueue (s : State) (q : Nat) : State :=
  let (n, d) := queueState s q
  { s with qos := { s.qos with
    live := tabSet (0, 0) s.qos.live q (n, d)
    bins := addBin (addBin s.qos.bins (32 * q + depthBin n)) (32 * q + 16 + delayBin d) } }

/-- QUEUE_SAMPLE (R149): all 760 queues, while HIST_EN is 1, once in every period of 1,000 ns. -/
def execQueueSample (s : State) : Host.Outcome State Fault Refusal :=
  done (if s.qos.histEn && decide (s.qos.ticks < s.now / 1000) then
      let s := (List.range 760).foldl sampleQueue s
      { s with qos := { s.qos with samples := satAdd 32 s.qos.samples 1, ticks := s.now / 1000 } }
    else s)

/-- HIST_SNAP (R151, R152): a write of `QOS_HIST_SEL`. -/
def histSel (s : State) (v : Nat) : State :=
  let q := v % 1024
  let s := if q ≤ 759 then { s with qos := { s.qos with sel := q } } else s
  if bitOf v 31 then
    let bins := fun (o : Nat) => (List.range 16).map fun i => tabGet 0 s.qos.bins (32 * s.qos.sel + o + i)
    { s with qos := { s.qos with snapValid := false, snapBusy := true, snapDepth := bins 0, snapDelay := bins 16 } }
  else s
def execHistSnap (value : W32) (s : State) : Host.Outcome State Fault Refusal := done (onBar s 0x60 (histSel s value.toNat))
/-- HIST_SNAPSHOT_DONE (R151). -/
def execHistSnapshotDone (s : State) : Host.Outcome State Fault Refusal :=
  done (if s.qos.snapBusy then { s with qos := { s.qos with snapValid := true, snapBusy := false } } else s)
/-- HIST_CLEAR_ALL (R151, R152): a write of `QOS_CFG`. -/
def qosCfg (s : State) (v : Nat) : State :=
  let s := { s with qos := { s.qos with histEn := bitOf v 0 } }
  if bitOf v 1 then { s with qos := { s.qos with bins := [], samples := 0 } } else s
def execHistClearAll (value : W32) (s : State) : Host.Outcome State Fault Refusal := done (onBar s 0x60 (qosCfg s value.toNat))

end Sys2Proof.Machine
end

