-- ==== Sys2Proof/Machine/Specs.lean ====
section
/-! DEFINITION. CAP_QUERY (R72, R73, R226, R274, R292), and what every opcode outside group 0x09 does, by its number. -/
namespace Sys2Proof.Machine

/-- The capability words of the part; an index it does not define reads as 0. -/
def capWord : Nat → W64
  | 0x0 => 0x100003FF83FE1010
  | 0x5 => 0x1000011601001010
  | 0x7 => 0x1000000010337FFF
  | 0x9 => 0x1000371810004010
  | _ => 0

def capQueryAct (s : State) (k : Nat) : State :=
  match s.cmd k with
  | none => s
  | some c => settle (finish s k stOK 0 (capWord (c.par 16 2)).toNat)
def specCapQuery : OpSpec := { valid := fun _ c => zeroB c.raw 18 30, act := capQueryAct }
def execCapQuery (c : CmdIn) (s : State) : Host.Outcome State Fault Refusal :=
  done (receive s (some specCapQuery) (withOpcode c 0x0F00))

/-- The groups 0x01 to 0x03. -/
def specLow : Nat → Option OpSpec
  | 0x0100 => some specNop
  | 0x0101 => some specMemRead
  | 0x0102 => some specMemWrite
  | 0x0103 => some specMemAtomic
  | 0x0104 => some specMemCas
  | 0x0105 => some specRangeCreate
  | 0x0106 => some specRangeDestroy
  | 0x0107 => some specRangeQuery
  | 0x0108 => some specAdvise
  | 0x0109 => some specPrefetch
  | 0x0200 => some specXltS1Root
  | 0x0201 => some specXltInvalidate
  | 0x0202 => some specXltFaultResume
  | 0x0203 => some specXltCommit
  | 0x0300 => some specFill
  | 0x0301 => some specCopy
  | 0x0302 => some specCompare
  | 0x0303 => some specReduce
  | 0x030F => some specNmoRelease
  | 0x0310 => some specRedSlotOpen
  | 0x0311 => some specRedContribute
  | 0x0312 => some specRedSlotClose
  | 0x0313 => some specRedSlotQuery
  | 0x0380 => some specProgLoad
  | 0x0381 => some specProgRun
  | 0x0382 => some specProgUnload
  | 0x0383 => some specProgQuery
  | _ => none

/-- The groups 0x04 to 0x08 and 0x0F. -/
def specHigh : Nat → Option OpSpec
  | 0x0400 => some specAttPoolOpen
  | 0x0401 => some specAttPoolClose
  | 0x0402 => some specAttAppend
  | 0x0403 => some specAttScore
  | 0x0404 => some specAttRedigest
  | 0x0500 => some specGalOpen
  | 0x0501 => some specGalClose
  | 0x0502 => some specGalBegin
  | 0x0503 => some specGalLockup
  | 0x0504 => some specGalExport
  | 0x0505 => some specGalQuery
  | 0x0600 => some specSyncConfig
  | 0x0601 => some specSyncRelease
  | 0x0602 => some specSyncSet
  | 0x0603 => some specSyncAdd
  | 0x0604 => some specSyncRead
  | 0x0700 => some specWinOpen
  | 0x0701 => some specWinClose
  | 0x0702 => some specWinReopen
  | 0x0703 => some specWinQuery
  | 0x0800 => some specQosMeterSet
  | 0x0801 => some specQosMeterQuery
  | 0x0802 => some specQosChannelSet
  | 0x0803 => some specQosTcWeights
  | 0x0F00 => some specCapQuery
  | 0x0F01 => some specCancel
  | 0x0F02 => some specFwStage
  | 0x0F03 => some specFwCommit
  | 0x0F04 => some specFwStatus
  | 0x0F05 => some specFwActivate
  | 0x0F06 => some specFwConfirm
  | 0x0F10 => some specPwrBudgetSet
  | 0x0F11 => some specPwrQuery
  | _ => none

/-- What an opcode outside group 0x09 does; none for an opcode that the manual does not define. -/
def specMirrored (op : Nat) : Option OpSpec := if op < 0x0400 then specLow op else specHigh op

/-- A near-memory operation that arrives on a halted channel ends at once (R236). -/
def sweepNmo (s : State) (c : CmdIn) : State := if nmoOp (opcodeOf c.raw) then haltSweep s c.chan else s
/-- The arrival of a command outside group 0x09. -/
def receiveMirrored (s : State) (c : CmdIn) (vis : Option Nat := none) : State :=
  sweepNmo (receive s (specMirrored (opcodeOf c.raw)) c vis) c

end Sys2Proof.Machine
end

