-- ==== Sys2Proof/Machine/Pair.lean ====
section
/-! DEFINITION. The mirrored pair (R391-R417): its commands, the records of the mirror stream, digests, the timers, failover and
resynchronisation. STATE of MIR_STATUS: 0 SOLO, 1 ACTIVE, 2 SYNCING, 3 STANDBY, 4 OUT, 5 FENCED. What the manual leaves open of the
records' exchange is in log 33. -/
namespace Sys2Proof.Machine

/-! ## Counters and notices -/

def State.onMir (s : State) (f : Mir → Mir) : State := { s with mir := f s.mir }
/-- Sets bits of INT_PAIR: 0 FAILOVER, 1 LEFT_STEP, 2 IN_STEP, 3 DIVERGENCE, 4 BROKEN, 5 FENCED. -/
def pairInt (s : State) (bit : Nat) : State := { s with intr := { s.intr with pair := s.intr.pair ||| BitVec.ofNat 6 (2 ^ bit) } }
def bumpDiverg (m : Mir) : Mir := { m with diverg := satAdd 32 m.diverg 1, ovf := m.ovf ||| BitVec.ofNat 3 (flag (satOvf 32 m.diverg 1) 0) }
def bumpFailovers (m : Mir) : Mir := { m with failovers := satAdd 32 m.failovers 1, ovf := m.ovf ||| BitVec.ofNat 3 (flag (satOvf 32 m.failovers 1) 1) }
def bumpOrphans (m : Mir) : Mir := { m with orphans := satAdd 32 m.orphans 1, ovf := m.ovf ||| BitVec.ofNat 3 (flag (satOvf 32 m.orphans 1) 2) }
/-- Sends a notice: 1 FAIL, 2 SWITCH, 3 BREAK, 4 LEAVE, 5 JOIN, with a cause (R403). -/
def sendNotice (s : State) (code cause : Nat) : State := sendMir s (mirHead 5 2 ++ [BitVec.ofNat 8 code, BitVec.ofNat 8 cause] ++ leBytes 6 0)
/-- A record arrived: the partner lives (R410, R417). -/
def sawRecord (s : State) : State := s.onMir fun m => { m with lastRec := s.now }
/-- Is the part strapped as a pair member (R391)? -/
def pairStrap (s : State) : Bool := s.boot.pairRole == 1 || s.boot.pairRole == 2
/-- Did PEER_ALIVE move within PEER_SILENT_US? -/
def peerAliveOk (s : State) : Bool := decide (s.now < s.mir.lastEdge + us s.mir.peerSilentUs)

/-! ## Leaving step -/

/-- The standby leaves step (R398): OUT, with a LEAVE notice. -/
def leaveStep (s : State) (cause : Nat) : State :=
  if s.mir.state != 3 && s.mir.state != 2 then s
  else
    let s := pairInt (sendNotice s 4 cause) 1
    s.onMir fun m => { m with state := 4, inStep := false, cause := cause, tokens := [], due := [], digesting := [], intervals := [], joinSent := false }
/-- On the active, the standby is out of step: what waited for it goes on (R411, R417). -/
def lostStandby (s : State) (cause : Nat) : State :=
  if s.mir.state != 1 || !s.mir.inStep then s
  else
    let s := (pairInt s 1).onMir fun m => { m with inStep := false, cause := cause, intervals := [], digesting := [] }
    releaseTokens s
/-- The active gives its role up (R410, R416): it serves no more, and its mirrored commands send no replies. -/
def giveUpRole (s : State) (cause : Nat) : State :=
  s.onMir fun m => { m with state := 4, inStep := false, cause := cause, watermark := none, cutHold := none, intervals := [], digesting := [], replyLog := [], joinSent := false }
/-- A FAIL notice, where a standby is in step: the active hands over (R410). -/
def activeFail (s : State) : State :=
  if s.mir.state = 1 && s.mir.inStep then giveUpRole (sendNotice s 1 0) 1 else s
/-- The pair is no more (R392, R417): the active runs alone, and a standby, OUT, too. -/
def breakPair (s : State) : State :=
  if s.mir.state = 2 || s.mir.state = 3 || s.mir.state = 4 then
    s.onMir fun m => { m with state := 4, partner := 0, inStep := false, tokens := [], due := [], digesting := [], intervals := [], copies := [], replyLog := [] }
  else
    releaseTokens (s.onMir fun m => { m with state := 0, partner := 0, inStep := false, watermark := none, cutHold := none, intervals := [], digesting := [] })

/-! ## The standby's order (R396-R399) -/

/-- Fields of a token record: SEQ, SRC, TAG, OPCODE, OUTCOME, FLAGS and INTERVAL. -/
structure Tok where
  seq : Nat
  src : Nat
  tag : Nat
  op  : Nat
  outcome : Nat
  hw  : Bool
  interval : Nat
deriving DecidableEq, Repr
def tokOf (r : BitVec 256) : Tok :=
  let b := fun (o n : Nat) => r.toNat / 256 ^ o % 256 ^ n
  { seq := b 8 8, src := b 16 4, tag := b 20 4, op := b 24 2, outcome := b 26 1, hw := bitOf (b 27 1) 0, interval := b 28 4 }
/-- The copy that a token matches: by SRC and TAG. -/
def copyFor (s : State) (t : Tok) : Option (Nat × CmdIn × Nat) :=
  s.mir.copies.find? fun c => srcOf c.2.1.raw == t.src && tagOf c.2.1.raw == t.tag
/-- Counts an accepted command in its interval, which its first token opens. -/
def noteInterval (s : State) (n : Nat) : State :=
  let have_ := s.mir.intervals.any (·.n == n)
  let l := if have_ then s.mir.intervals else s.mir.intervals ++ [{ n := n, opened := s.now }]
  s.onMir fun m => { m with curInt := max m.curInt n, intervals := l.map fun i =>
    if i.n = n then { i with count := i.count + 1 } else if i.n < n then { i with cut := true } else i }
/-- Admits the copy of an accepted command at its place: the active's admission stands, and only what this member cannot do
makes it leave (R398). A command that the active applied at a memory stop is applied at once. -/
def admitCopy (s : State) (t : Tok) (c : CmdIn) : State :=
  let old := s.chan c.chan
  let (e, s1) := entryChecks (s.setChan c.chan { old with lastCredit := some 65536 }) (specMirrored t.op) c
  let s1 := s1.setChan c.chan old
  match e, specMirrored t.op with
  | .pass x, some sp =>
    let s1 := noteInterval s1 t.interval
    let x := { x with mirSeq := t.seq, mirInt := t.interval }
    if t.hw then
      let (k, s2) := storeCmd s1 { x with st := .queued, startedAt := s1.now }
      memApply s2 k
    else sweepNmo (acceptCmd s1 sp x) c
  | _, _ => leaveStep s1 9
/-- Starts tokens in SEQ order while the copy of the first is there; `fuel` bounds them. -/
def advanceN : Nat → State → State
  | 0, s => s
  | fuel + 1, s =>
    match s.mir.tokens with
    | [] => s
    | (r, _) :: rest =>
      let t := tokOf r
      match copyFor s t with
      | none => s
      | some (n, c, _) =>
        let s := s.onMir fun m => { m with tokens := rest, copies := m.copies.filter fun x => x.1 != n, seq := max m.seq t.seq }
        if t.outcome != 1 then advanceN fuel s
        else if opcodeOf c.raw != t.op then leaveStep s 8
        else advanceN fuel (admitCopy s t c)
/-- The command of the store with a SEQ. -/
def cmdOfSeq (s : State) (seq : Nat) : Option (Nat × Cmd) := s.store.cmds.find? fun e => e.2.mirSeq == seq
/-- How far a command has come, as its events count it. -/
def pointOf (s : State) (c : Cmd) : Nat := if opcodeOf c.raw = 0x0381 && c.started then runProgress s (runTiles s c) else c.progress

/-- The point of an event's ARG at which its command ends. -/
def eventPoint (ty arg : Nat) : Nat := if ty = 2 then arg else if ty = 3 || ty = 5 then arg / 256 else 0
/-- Ends a command as the active did: the status of the event. A run traps with the cause of that status. -/
def endAsActive (s : State) (k : Nat) (c : Cmd) (ty arg : Nat) : State :=
  let p := eventPoint ty arg
  let st := [0, stWAIT_EXPIRED, stFAULT_PENDING, stCANCELLED, stPOISONED, stOFFLINE, stENERGY].getD ty 0
  let run := opcodeOf c.raw == 0x0381 && c.started
  if ty = 3 then (if run then (cancelCmd s k none).2 else settle (finish s k st p))
  else if run then
    let cause := [0, 9, 7, 0xC, 5, 0xB, 0].getD ty 0xB
    settle (match (runTiles s c).find? fun n => (s.tile n).st.active with
      | some n => trapTile s n cause 0
      | none => s)
  else if ty = 4 then
    let s := match lookup s c.host arg 0 with
      | (.ok ppa _, s1) => poisonLine s1 ppa
      | _ => s
    poisonStop s k arg
  else if ty = 7 then
    -- what the active's expiry, cancellation or escalation posts to ARRIVE is posted here as well (R250)
    closeSlot (abandonStep s (c.par 16 2) (c.par 20 4) arg ([stWAIT_EXPIRED, stCANCELLED, stFAULT_PENDING].contains arg)) (c.par 16 2)
  else settle (finish s k st p)
/-- Applies an event; none where its command or copy has not come to its point. -/
def applyEvent (s : State) (e : Nat × Nat × Nat) : Option State :=
  let (seq, ty, arg) := e
  if ty = 8 then
    match s.mir.cohCopies.find? fun x => x.1.win == arg % 64 && x.1.agent == arg / 64 % 64 && x.1.txn % 4096 == arg / 4096 % 4096 && x.1.line == arg / 2 ^ 24 with
    | none => none
    | some x =>
      let s := s.onMir fun m => { m with cohCopies := m.cohCopies.erase x }
      some (cohWrite s (s.win x.1.win) x.1)
  else match cmdOfSeq s seq with
    | none => if s.mir.seq < seq then none else some s
    | some (k, c) =>
      if ty = 9 then some (lockupReady s (c.par 16 1))
      else if pointOf s c < eventPoint ty arg then none
      else some (endAsActive s k c ty arg)
/-- Applies what is due, in order; an event that waits holds none that follows it. -/
def applyDue (s : State) : State :=
  s.mir.due.foldl (fun s e => match applyEvent s e with
    | some s1 => s1.onMir fun m => { m with due := m.due.erase e }
    | none => s) s
/-- What a record lets the standby do. What it had received when it took over runs as usual (R412). -/
def advance (s : State) : State :=
  if s.mir.state = 3 then applyDue (advanceN (s.mir.tokens.length + 1) s) else if s.mir.state = 1 then applyDue s else s

/-- TOKEN_RECORD (R397, R398): kept while SYNCING, started in order in step. -/
def tokenRecord (s : State) (r : BitVec 256) : State :=
  let s := sawRecord s
  let t := tokOf r
  if s.mir.state != 2 && s.mir.state != 3 then s
  else if s.mir.tokens.any (fun x => (tokOf x.1).seq == t.seq) then s
  else
    let s := s.onMir fun m => { m with tokens := m.tokens ++ [(r, s.now)] }
    advance s
def execTokenRecord (r : BitVec 256) (s : State) : Host.Outcome State Fault Refusal := done (tokenRecord s r)

/-- EVENT_RECORD (R399): takes effect after every token that precedes it. -/
def eventRecord (s : State) (r : BitVec 256) : State :=
  let s := sawRecord s
  let b := fun (o n : Nat) => r.toNat / 256 ^ o % 256 ^ n
  if s.mir.state != 3 then s
  else advance (s.onMir fun m => { m with due := m.due ++ [(b 16 8, b 8 1, b 24 8)] })
def execEventRecord (r : BitVec 256) (s : State) : Host.Outcome State Fault Refusal := done (eventRecord s r)

/-- REPLY_SENT_RECORD (R402). -/
def replySent (s : State) (r : BitVec 128) : State :=
  let s := sawRecord s
  if s.mir.state != 3 then s
  else advance (s.onMir fun m => { m with replyLog := m.replyLog.filter fun x => x.seq != r.toNat / 2 ^ 64 })
def execReplySentRecord (r : BitVec 128) (s : State) : Host.Outcome State Fault Refusal := done (replySent s r)

/-- Commands of the standby that have not started, with the moments they were received. -/
def unstarted (s : State) : List Nat :=
  s.mir.tokens.map (·.2) ++ (s.store.cmds.filter fun e => e.2.mirSeq != 0 && !e.2.started && (e.2.st == .held || e.2.st == .ready)).map fun e => e.2.accepted
/-- TOKEN_MISSING_TIMEOUT: 500 µs without its copy. -/
def execTokenMissingTimeout (seq : Nat) (s : State) : Host.Outcome State Fault Refusal :=
  done (match s.mir.tokens.find? fun x => (tokOf x.1).seq == seq with
    | some (r, t) => if s.mir.state == 3 && (copyFor s (tokOf r)).isNone && decide (t + us 500 ≤ s.now) then leaveStep s 8 else s
    | none => s)
/-- ORPHAN_TIMEOUT: 2 ms without its token. -/
def execOrphanTimeout (k : Nat) (s : State) : Host.Outcome State Fault Refusal :=
  done (match s.mir.copies.find? fun x => x.1 == k with
    | some (_, c, t) =>
      let matched := s.mir.tokens.any fun x => let y := tokOf x.1; y.src == srcOf c.raw && y.tag == tagOf c.raw
      if !matched && decide (t + ms 2 ≤ s.now) then s.onMir fun m => bumpOrphans { m with copies := m.copies.filter fun x => x.1 != k } else s
    | none => s)
/-- LAG_TIMEOUT: more than 65,536 tokens not started, or one older than LAG_MS. -/
def execLagTimeout (s : State) : Host.Outcome State Fault Refusal :=
  done (if s.mir.state == 3 && (decide (65536 < (unstarted s).length) || (unstarted s).any fun t => decide (t + ms s.mir.lagMs < s.now))
    then leaveStep s 10 else s)

/-! ## Range resynchronisation (R407) -/

/-- Σ mix(crc(offset ‖ line)) over a range. -/
def rangeDigest (s : State) (e : RangeE) : W64 × State :=
  (List.range (64 * e.lenG)).foldl (fun (d, s) i =>
    let (bs, s) := copyData s (e.ppa + 64 * i)
    (d + BitVec.ofNat 64 (mix64 (crc64 0 (leBytes 8 (64 * i) ++ bs))), s)) (0, s)
/-- Range digest list records (kind 8), 256 entries each; an entry is the RANGE_ID and the digest, 8 bytes each (log 33). -/
def sendLists : Nat → State → List (Nat × W64) → State
  | 0, s, _ => s
  | fuel + 1, s, l =>
    if l = [] then s
    else
      let x := l.take 256
      sendLists fuel (sendMir s (mirHead 8 (1 + 2 * x.length) ++ x.flatMap fun e => leBytes 8 e.1 ++ leBytes 8 e.2.toNat)) (l.drop 256)
def digestsOf (s : State) (rids : List Nat) : List (Nat × W64) × State :=
  rids.foldl (fun (l, s) r => match s.range r with
    | some e => let (d, s) := rangeDigest s e; (l ++ [(r, d)], s)
    | none => (l, s)) ([], s)
/-- The ranges that an interval's commands wrote: every range where it is wide. -/
def candidates (s : State) (i : Interval) : List Nat := if i.wide then s.xlt.dirA.map (·.1) else i.ranges
/-- Marks the candidates DISPUTED and exchanges their digests. -/
def rangeResync (s : State) (rids : List Nat) : State :=
  let (ds, s) := digestsOf s rids
  let s := s.onMir fun m => { m with disputed := (m.disputed ++ rids).eraseDups, digesting := ds }
  sendLists (ds.length + 1) s ds
/-- Copies a range to the standby as resynchronisation data. -/
def copyRange (s : State) (e : RangeE) : State := (List.range e.lenG).foldl (fun s i => sendBlock s (e.ppa + 4096 * i)) s
/-- RANGE_DIGEST_LIST: the active clears the ranges that match and copies those that differ; the standby answers with its own digests. -/
def rangeList (s : State) (l : List (Nat × W64)) : State :=
  let s := sawRecord s
  if s.mir.state = 3 then
    let (ds, s) := digestsOf s (l.map (·.1))
    sendLists (ds.length + 1) s ds
  else if s.mir.state = 1 then
    l.foldl (fun s e => match s.range e.1 with
      | none => s
      | some r =>
        let (own, s) := match s.mir.digesting.find? fun d => d.1 == e.1 with
          | some d => (d.2, s)
          | none => rangeDigest s r
        let s := if own = e.2 then s else copyRange s r
        s.onMir fun m => { m with disputed := m.disputed.filter (· != e.1), digesting := m.digesting.filter fun d => d.1 != e.1 }) s
  else s
def execRangeDigestList (entries : List (Nat × W64)) (s : State) : Host.Outcome State Fault Refusal := done (rangeList s entries)

/-! ## Digests (R404-R406, R408) -/

/-- The active breaks the pair on too many divergences within 24 h. -/
def diverged (s : State) : State :=
  let s := pairInt (s.onMir fun m => bumpDiverg { m with divTimes := (s.now :: m.divTimes).filter fun t => decide (s.now < t + ms 86400000) }) 3
  if s.mir.divLimit ≤ s.mir.divTimes.length then
    let s := sendNotice s 3 13
    let s := pairInt (raiseFault s (unitOf 0x11 0) 0x10 0 0 3) 4
    releaseTokens (s.onMir fun m => { m with state := 0, partner := 0, inStep := false, cause := 13, broken := true, intervals := [], digesting := [] })
  else s

/-- Compares the two records of an interval. The standby does what follows from a fault of the active
alone, the failover that `failover` carries out, and of both, for no record tells it to (log 33). -/
def compareInterval (failover : State → State) (s : State) (i : Interval) : State :=
  match i.peer, i.sentAt with
  | some p, some _ =>
    let b := fun (o n : Nat) => p.toNat / 256 ^ o % 256 ^ n
    let drop := fun (s : State) => s.onMir fun m => { m with intervals := m.intervals.filter fun x => decide (i.n < x.n + 4) || x.sentAt.isNone || x.peer.isNone }
    if b 16 8 = i.rd.toNat && b 24 8 = i.wd.toNat then drop s
    else
      let peerF := b 32 1 == 1
      if s.mir.state = 3 then
        if peerF && !i.faulted then failover s
        else if peerF then leaveStep (drop s) 12
        else rangeResync (drop s) (candidates s i)
      else if s.mir.state = 1 then
        match i.faulted, peerF with
        | true, false => giveUpRole s 3
        | false, true => rangeResync (drop s) (candidates s i)
        | true, true => lostStandby ((drop s).onMir fun m => { m with disputed := (m.disputed ++ candidates s i).eraseDups }) 12
        | false, false =>
          let s1 := diverged (drop s)
          if s1.mir.state = 1 then rangeResync s1 (candidates s i) else s1
      else s
  | _, _ => s
/-- The interval with a number. -/
def State.interval (s : State) (n : Nat) : Option Interval := s.mir.intervals.find? fun i => i.n == n
def State.setInterval (s : State) (i : Interval) : State := s.onMir fun m => { m with intervals := m.intervals.map fun x => if x.n = i.n then i else x }

/-- INTERVAL_CUT: after 4,096 tokens, or 100 µs after the interval opened. -/
def intervalCut (s : State) : State :=
  match s.interval s.mir.curInt with
  | some i =>
    if s.mir.state == 1 && !i.cut && (decide (4096 ≤ i.count) || decide (i.opened + us 100 ≤ s.now)) then
      (s.setInterval { i with cut := true }).onMir fun m => { m with curInt := m.curInt + 1 }
    else s
  | none => s
def execIntervalCut (s : State) : Host.Outcome State Fault Refusal := done (intervalCut s)
/-- Has every accepted command of a cut interval its final reply? -/
def intervalOver (s : State) (i : Interval) : Bool :=
  (i.cut || i.peer.isSome) && i.sentAt.isNone && !(s.store.cmds.any fun e => e.2.mirSeq != 0 && e.2.mirInt == i.n)
    && !(s.mir.tokens.any fun t => (tokOf t.1).interval == i.n)
/-- The digest record of an interval. -/
def digestBytes (i : Interval) : List Byte :=
  mirHead 3 6 ++ leBytes 4 i.n ++ leBytes 4 i.count ++ leBytes 8 i.rd.toNat ++ leBytes 8 i.wd.toNat ++ [if i.faulted then 1 else 0, i.parts] ++ List.replicate 14 0

/-! ## Failover (R410-R412) -/

/-- The ranks of the active rank table. -/
def allRanks (s : State) : List Nat := s.fab.ranksA.map fun e => e.2.hi * 65536 + e.1
/-- The notice of R412 step 6. -/
def failoverReply (s : State) (rank : Nat) : Pkt :=
  let bs := leBytes 4 0 ++ [0, BitVec.ofNat 8 (flag true 5)] ++ leBytes 2 0 ++ leBytes 2 0x09FF ++ [0x10, 0] ++ leBytes 4 0
    ++ leBytes 8 s.fuses.deviceId.toNat ++ leBytes 8 s.mir.seq
  { ty := 1, rank := rank, ptype := 2, tc := 6, txn := 0, body := bs }
/-- The standby takes over. -/
def failover (s : State) (cause : Nat) : State :=
  if s.mir.state != 3 then s
  else
    let s := advance s
    if s.mir.state != 3 then s
    else
      let copies := s.mir.copies
      let s := s.onMir fun m => bumpFailovers { m with
        state := 1, inStep := false, cause := cause, tokens := [], copies := [], cohCopies := [], intervals := [], digesting := []
        curInt := m.curInt + 1, watermark := none, cutHold := none, acked := 0 }
      let s := pairInt s 0
      let s := copies.foldl (fun s c => receiveMirrored s c.2.1 (some c.2.2)) s
      let s := (s.coh.wins.filter fun w => w.2.state == 1 || w.2.state == 2).foldl (fun s w => windowDown s w.1 6) s
      let s := releaseTokens s
      (allRanks s).foldl (fun s r => s.sendPkt (failoverReply s r)) s

/-- INTERVAL_CLOSE: the digest record is sent, and compared with the partner's where that has come. -/
def intervalClose (s : State) (n : Nat) : State :=
  match s.interval n with
  | some i =>
    if (s.mir.state == 1 || s.mir.state == 3) && intervalOver s i then
      let i := { i with cut := true, sentAt := some s.now }
      let s := s.setInterval i
      let s := if s.mir.state == 3 || s.mir.inStep then sendMir s (digestBytes i) else s.onMir fun m => { m with intervals := m.intervals.filter fun x => x.n != n }
      compareInterval (fun s => failover s 3) s i
    else s
  | none => s
def execIntervalClose (n : Nat) (s : State) : Host.Outcome State Fault Refusal := done (intervalClose s n)
/-- DIGEST_RECORD. -/
def digestRecord (s : State) (r : BitVec 384) : State :=
  let s := advance (sawRecord s)
  match s.interval (r.toNat / 256 ^ 8 % 256 ^ 4) with
  | some i =>
    let i := { i with peer := some r }
    compareInterval (fun s => failover s 3) (s.setInterval i) i
  | none => s
def execDigestRecord (r : BitVec 384) (s : State) : Host.Outcome State Fault Refusal := done (digestRecord s r)
/-- DIGEST_LATE: 10 ms after the member's own record. -/
def execDigestLate (n : Nat) (s : State) : Host.Outcome State Fault Refusal :=
  done (match s.interval n with
    | some i => match i.sentAt, i.peer with
      | some t, none => if s.now < t + ms 10 then s else if s.mir.state = 3 then leaveStep s 11 else lostStandby s 11
      | _, _ => s
    | none => s)

/-! ## Heartbeats, notices and silence (R403, R410, R411, R417) -/

/-- Partitions that are recovering. -/
def recovering (s : State) : Nat := (allParts.filter fun p => let x := (s.part p).state; decide (1 ≤ x) && decide (x ≤ 5)).length
/-- MIRROR_HEARTBEAT_TIMER: a heartbeat every 10 µs. -/
def execMirrorHeartbeatTimer (s : State) : Host.Outcome State Fault Refusal :=
  done (if s.mir.partner != 0 && !s.flt.failed && !s.flt.recovery && !s.boot.inReset && decide (s.mir.sentHb + us 10 ≤ s.now) then
      let bs := mirHead 4 3 ++ [BitVec.ofNat 8 s.mir.state, BitVec.ofNat 8 (recovering s)] ++ leBytes 6 0 ++ leBytes 8 s.mir.seq
      advance (sendMir (s.onMir fun m => { m with sentHb := s.now }) bs)
    else s)
/-- A member out of step asks to join, once, when it hears an active (R415, R416): not after a divergence. -/
def askJoin (s : State) : State :=
  if s.mir.state == 4 && s.mir.partner != 0 && s.mir.peerState == 1 && s.mir.cause != 13 && !s.mir.joinSent && recovering s == 0
  then (sendNotice s 5 0).onMir fun m => { m with joinSent := true } else s
/-- HEARTBEAT_RECORD. -/
def heartbeatRecord (s : State) (r : BitVec 192) : State :=
  let b := fun (o n : Nat) => r.toNat / 256 ^ o % 256 ^ n
  let s := (sawRecord s).onMir fun m => { m with peerState := b 8 1, peerParts := b 9 1, peerSeq := b 16 8 }
  askJoin (advance s)
def execHeartbeatRecord (r : BitVec 192) (s : State) : Host.Outcome State Fault Refusal := done (heartbeatRecord s r)

/-- 4 KiB blocks of the ranges. -/
def rangeBlocks (s : State) : Nat := s.xlt.dirA.foldl (fun n e => n + e.2.lenG) 0
/-- The operands of a resynchronisation: the ranges that it reads, and the mirror ports that carry them. -/
def resyncSlices (s : State) : List (List (Nat × Nat)) :=
  let total := 4096 * rangeBlocks s
  [s.xlt.dirA.foldl (fun l e => addSlice l (sliceOf e.2.ppa) (4096 * e.2.lenG)) [], [(28, total / 2), (29, total / 2)]]
/-- Starts a copy phase: the partner is asked to sync (R415). `k` is the slot of its PAIR_RESYNC. -/
def resyncBegin (s : State) (k : Nat) : State :=
  let s := sendNotice s 5 0
  s.onMir fun m => { m with inStep := false, watermark := some 0, resyncKey := some k, cutHold := none, cutRetry := 0, intervals := [], digesting := [] }
/-- The active issues a PAIR_RESYNC itself (R392, R415), on no ring. -/
def ownResync (s : State) : State :=
  if s.mir.state != 1 || s.mir.watermark.isSome then s
  else
    let c : Cmd := { chan := .ring 1024, raw := 0x0904, prio := 3, st := .ready, seq := s.store.seq + 1, visible := s.now, accepted := s.now, startedAt := s.now
                     size := 4096 * rangeBlocks s, total := rangeBlocks s + 1 }
    let (k, s) := storeCmd s c
    resyncBegin s k
/-- The lowest block of a range at or above a PPA. -/
def nextBlock (s : State) (w : Nat) : Option Nat :=
  s.xlt.dirA.foldl (fun best e =>
    let lo := max e.2.ppa w
    if e.2.ppa + 4096 * e.2.lenG ≤ lo then best
    else match best with
      | some b => some (min b lo)
      | none => some lo) none
/-- One block of the copy phase, in ascending PPA. After the last, the cut may come. -/
def resyncStep (s : State) (k : Nat) : State :=
  match s.cmd k, s.mir.watermark with
  | some c, some w =>
    match nextBlock s w with
    | some a => ((sendBlock s a).onMir fun m => { m with watermark := some (a + 4096) }).setCmd k { c with progress := c.progress + 1 }
    | none => (s.onMir fun m => { m with watermark := some (2 ^ 45), cutRetry := s.now }).setCmd k { c with st := .finishing }
  | _, _ => settle (finish s k stCANCELLED)

/-- The mirror port that is ACTIVE with a partner of ROLE 1, and the partner's identity. -/
def mirrorPartner (s : State) : Option W64 :=
  if (s.link 12).state = 3 then some (s.link 12).partner else if (s.link 13).state = 3 then some (s.link 13).partner else none
/-- The partner of an active starts to sync (R392, R415): its outstanding commands end CANCELLED, and its state is replaced. -/
def startSync (s : State) : State :=
  let s := cancelNow s fun _ => true
  let id := if s.mir.partner = 0 then (mirrorPartner s).getD 0 else s.mir.partner
  s.onMir fun m => { m with state := 2, partner := id, inStep := false, tokens := [], copies := [], due := [], cohCopies := [], intervals := [], replyLog := []
                            watermark := none, lastRec := s.now, lastEdge := max m.lastEdge s.now }
/-- The cut, on the standby: in step at the next SEQ. -/
def joinStep (s : State) : State :=
  (pairInt s 2).onMir fun m => { m with state := 3, inStep := true, tokens := [], due := [], replyLog := [], intervals := [], broken := false }

/-- NOTICE_RECORD. -/
def noticeRecord (s : State) (r : BitVec 128) : State :=
  let s := advance (sawRecord s)
  let code := r.toNat / 256 ^ 8 % 256
  let cause := r.toNat / 256 ^ 9 % 256
  match code with
  | 1 => failover s 1
  | 2 => failover s 4
  | 3 =>
    let s := if cause = 13 then (pairInt s 4).onMir fun m => { m with cause := 13, broken := true } else s
    breakPair s
  | 4 => lostStandby s cause
  | 5 =>
    -- of two members that were both told to form, A is the active (R392)
    if s.mir.state = 1 && s.boot.pairRole == 2 && !s.mir.inStep && decide (s.now < s.mir.formedAt + ms 1) then startSync s
    else if s.mir.state = 1 then (if s.mir.autoRejoin && !s.mir.inStep then ownResync s else s)
    else if s.mir.state = 2 then joinStep s
    else if pairStrap s && (s.mir.state == 0 || s.mir.state == 4) then startSync s
    else s
  | _ => s
def execNoticeRecord (r : BitVec 128) (s : State) : Host.Outcome State Fault Refusal := done (noticeRecord s r)

/-- MIR_SILENT_TIMEOUT (R411): the standby leaves with LINK while PEER_ALIVE still moves; the active goes on alone, or is FENCED while
its own fault state holds ALIVE still. -/
def mirSilent (s : State) : State :=
  if s.now < s.mir.lastRec + us s.mir.mirSilentUs then s
  else if s.mir.state = 3 || s.mir.state = 2 then (if peerAliveOk s then leaveStep s 14 else s)
  else if s.mir.state = 1 && s.mir.inStep then
    if aliveHeld s then (pairInt s 5).onMir fun m => { m with state := 5, inStep := false, intervals := [], digesting := [] }
    else lostStandby s 14
  else s
def execMirSilentTimeout (s : State) : Host.Outcome State Fault Refusal := done (mirSilent s)
/-- PEER_SILENT_TIMEOUT (R410): neither records nor PEER_ALIVE. -/
def execPeerSilentTimeout (s : State) : Host.Outcome State Fault Refusal :=
  done (if s.mir.state == 3 && !peerAliveOk s && decide (s.mir.lastRec + us s.mir.mirSilentUs ≤ s.now) then failover s 2 else s)
/-- PEER_ALIVE_EDGE (R499, R417). -/
def execPeerAliveEdge (s : State) : Host.Outcome State Fault Refusal :=
  done { s with mir := { s.mir with lastEdge := s.now, edgeAt := some s.now } }

/-! ## Resynchronisation (R415) -/

/-- May a mutating command not start now: new work is held for a cut, its channel's writes wait for the copy phase, or its first
granule lies in a range whose digests are being compared (R407, R415)? -/
def pairWaits (s : State) (c : Cmd) : Bool :=
  !readClass c.raw && opcodeOf c.raw / 256 != 9 && s.mir.state == 1
    && (s.mir.cutHold.isSome
      || (match s.mir.watermark with
        | some w => decide (w < 2 ^ 45) && !memOp (opcodeOf c.raw) && c.size != 0
        | none => false)
      || (s.mir.digesting != [] && c.loads != []))
/-- A mutating command of the store that runs. -/
def mutRuns (e : Nat × Cmd) : Bool :=
  !readClass e.2.raw && opcodeOf e.2.raw / 256 != 9 && (e.2.st == .running || e.2.st == .queued || e.2.st == .resuming || e.2.st == .stopping)
/-- The token of a stored command. -/
def tokenBytes (c : Cmd) : List Byte :=
  mirHead 1 4 ++ leBytes 8 c.mirSeq ++ leBytes 4 (srcOf c.raw) ++ leBytes 4 (tagOf c.raw) ++ leBytes 2 (opcodeOf c.raw) ++ [1, 0] ++ leBytes 4 c.mirInt
/-- Puts the standby in step: it is told, and has the tokens of the commands that have not started (log 33). -/
def cutDone (s : State) : State :=
  let s := sendNotice s 5 0
  let waiting := (s.store.cmds.filter fun e => e.2.mirSeq != 0).mergeSort fun a b => decide (a.2.mirSeq ≤ b.2.mirSeq)
  let s := waiting.foldl (fun s e => sendMir s (tokenBytes e.2)) s
  let key := s.mir.resyncKey
  let s := (pairInt s 2).onMir fun m => { m with inStep := true, watermark := none, cutHold := none, resyncKey := none, disputed := [], intervals := [], lastRec := s.now
                                                 curInt := m.curInt + 1, acked := m.seq }
  match key with
  | some k => match s.cmd k with
    | some c => settle (finish s k stOK c.progress (4096 * c.progress))
    | none => settle s
  | none => settle s
/-- RESYNC_CUT. -/
def resyncCut (s : State) : State :=
  if s.mir.state != 1 || s.mir.watermark != some (2 ^ 45) then s
  else match s.mir.cutHold with
    | none => if s.now < s.mir.cutRetry then s else if s.store.cmds.any mutRuns then s.onMir fun m => { m with cutHold := some s.now } else cutDone s
    | some t =>
      if !s.store.cmds.any mutRuns then cutDone s
      else if s.now < t + ms 5 then s
      else settle (s.onMir fun m => { m with cutHold := none, cutRetry := s.now + ms 100 })
def execResyncCut (s : State) : Host.Outcome State Fault Refusal := done (resyncCut s)
/-- RESYNCHRONISATION_DATA: the data bytes go to the lines from the PPA on. Such writes are counted in no digest (R404). -/
def resyncData (s : State) (ppa : Nat) (bs : List Byte) : State :=
  let s := sawRecord s
  if s.mir.state = 2 || s.mir.state = 3 || s.mir.state = 1 then secWrite s ppa (bs.take 4096) else s
/-- A record that names memory which does not exist (R20) stops the model. -/
def execResynchronisationData (ppa : W64) (bytes : List Byte) (s : State) : Host.Outcome State Fault Refusal :=
  if (lineCuts ppa.toNat (bytes.take 4096).length).all fun o => backed s (ppa.toNat + o) then done (resyncData s ppa.toNat bytes) else .fault .unbacked

/-! ## The commands (R392) -/

def pairQueryAct (s : State) (k : Nat) : State :=
  settle (finish s k stOK 0 (s.mir.state + 2 ^ 8 * flag s.mir.inStep 0 + 2 ^ 16 * s.mir.cause + 2 ^ 64 * s.mir.partner.toNat))
def specPairQuery : OpSpec := { valid := fun _ c => zeroB c.raw 16 32, act := pairQueryAct }
/-- What this part knows of the conditions of PAIR_FORM; of the partner's tenant, ordering code, skim, measurements and strap it learns only
whether they agree, a free value (log 5). -/
def formValid (s : State) (c : Cmd) : Bool :=
  pairStrap s && zeroB c.raw 24 24 && s.iso.tenant == 1 && mirrorPartner s == some (BitVec.ofNat 64 (c.par 16 8)) && s.fresh 1 == 1
def pairFormAct (s : State) (k : Nat) : State :=
  match s.cmd k with
  | none => s
  | some c =>
    let id := BitVec.ofNat 64 (c.par 16 8)
    let s := (settle (finish s k stOK)).bump
    let s := s.onMir fun m => { m with
      state := 1, partner := id, inStep := false, cause := 0, broken := false, seq := 0, acked := 0, curInt := 0, intervals := [], tokens := [], copies := []
      due := [], cohCopies := [], disputed := [], digesting := [], divTimes := [], formedAt := s.now, watermark := none, cutHold := none, lastRec := s.now, lastEdge := max m.lastEdge s.now }
    ownResync (releaseTokens s)
def specPairForm : OpSpec := { valid := formValid, rights := adminOnly, act := pairFormAct }
def pairSwitchAct (s : State) (k : Nat) : State := giveUpRole (sendNotice (s.delCmd k) 2 0) 4
def specPairSwitch : OpSpec := {
  valid := fun s c => zeroB c.raw 16 32 && pairStrap s && s.mir.state == 1 && s.mir.inStep, rights := adminOnly, act := pairSwitchAct }
def pairBreakAct (s : State) (k : Nat) : State := breakPair (sendNotice (settle (finish s k stOK)) 3 0)
def specPairBreak : OpSpec := { valid := fun s c => zeroB c.raw 16 32 && pairStrap s, rights := adminOnly, act := pairBreakAct }
def specPairResync : OpSpec := {
  valid := fun s c => zeroB c.raw 16 32 && pairStrap s && s.mir.state == 1 && s.mir.watermark.isNone
  rights := adminOnly
  size := fun s _ => some (max 4096 (4096 * rangeBlocks s), resyncSlices s)
  total := fun s _ => some (rangeBlocks s + 1)
  step := some fun s k => if s.mir.resyncKey = some k then resyncStep s k else if s.mir.watermark.isNone then resyncStep (resyncBegin s k) k
    else settle (finish s k stCANCELLED) }

/-- What an opcode does; none for an opcode that the manual does not define (R45). -/
def specOf : Nat → Option OpSpec
  | 0x0900 => some specPairQuery
  | 0x0901 => some specPairForm
  | 0x0902 => some specPairSwitch
  | 0x0903 => some specPairBreak
  | 0x0904 => some specPairResync
  | op => specMirrored op

/-- The arrival of any command (R36). -/
def receiveCmd (s : State) (c : CmdIn) (vis : Option Nat := none) : State := sweepNmo (receive s (specOf (opcodeOf c.raw)) c vis) c

def execPairQuery (c : CmdIn) (s : State) : Host.Outcome State Fault Refusal :=
  done (receive s (some specPairQuery) (withOpcode c 0x0900))
def execPairForm (c : CmdIn) (s : State) : Host.Outcome State Fault Refusal :=
  done (receive s (some specPairForm) (withOpcode c 0x0901))
def execPairSwitch (c : CmdIn) (s : State) : Host.Outcome State Fault Refusal :=
  done (receive s (some specPairSwitch) (withOpcode c 0x0902))
def execPairBreak (c : CmdIn) (s : State) : Host.Outcome State Fault Refusal :=
  done (receive s (some specPairBreak) (withOpcode c 0x0903))
def execPairResync (c : CmdIn) (s : State) : Host.Outcome State Fault Refusal :=
  done (receive s (some specPairResync) (withOpcode c 0x0904))

end Sys2Proof.Machine
end

