-- ==== Sys2Proof/Machine/Arrive.lean ====
section
/-! DEFINITION. What arrives on a port: packets (R331, R333-R335, R114), coherence messages, mirror records, and the seven flit rows
(R314, R317). -/
namespace Sys2Proof.Machine

/-- A coherence message in the bytes of log 12; none where its length is wrong. -/
def cohOf (src : Nat) (b : List Byte) : Option (Nat × CohMsg) :=
  if b.length != 12 && b.length != 76 then none
  else some (leAt b 0 1, {
    rank := src, win := leAt b 1 1, agent := leAt b 2 1, line := leAt b 4 4, txn := leAt b 8 2, token := leAt b 10 2
    data := BitVec.ofNat 512 (leAt b 12 64), poison := bitOf (leAt b 3 1) 0 })
/-- A coherence packet: an unknown code takes its window down (R297, R304). -/
def cohArrive (s : State) (src : Nat) (b : List Byte) : State :=
  match cohOf src b with
  | none => s
  | some (code, m) =>
    if 64 ≤ m.win then s
    else match code with
      | 1 => cohRequest s 1 m
      | 2 => cohRequest s 2 m
      | 3 => cohRequest s 3 m
      | 4 => cohWb s m
      | 5 => cohAnswer s m true false
      | 6 => cohAnswer s m false false
      | 7 => cohAnswer s m false true
      | _ => if agentListed (s.win m.win) m then settle (windowDown s m.win 2) else s

/-- One mirror record (R403). -/
def mirRecord (s : State) (b : List Byte) : State :=
  let x := leNat b
  match leAt b 0 1 with
  | 1 => tokenRecord s (BitVec.ofNat 256 x)
  | 2 => eventRecord s (BitVec.ofNat 256 x)
  | 3 => digestRecord s (BitVec.ofNat 384 x)
  | 4 => heartbeatRecord s (BitVec.ofNat 192 x)
  | 5 => noticeRecord s (BitVec.ofNat 128 x)
  | 6 => replySent s (BitVec.ofNat 128 x)
  | 7 => forwarded (sawRecord s) (leAt b 8 1) (b.drop 9)
  | 8 => rangeList s ((List.range ((b.length - 8) / 16)).map fun i => (leAt b (8 + 16 * i) 8, BitVec.ofNat 64 (leAt b (16 + 16 * i) 8)))
  | 9 => if leAt b 8 8 % 4096 = 0 && b.length = 4112 && backed s (leAt b 8 8) then resyncData s (leAt b 8 8) (b.drop 16) else s
  | _ => s
/-- The records of a packet, each of LEN8 × 8 bytes; `fuel` bounds them. -/
def mirRecords : Nat → State → List Byte → State
  | 0, s, _ => s
  | fuel + 1, s, b =>
    let n := 8 * leAt b 2 2
    if n = 0 || b.length < n then s else mirRecords fuel (mirRecord s (b.take n)) (b.drop n)

/-- The command of a CMD packet. -/
def packetCmd (p src txn : Nat) (b : List Byte) : CmdIn :=
  { chan := .rank src, port := p, txn := txn, raw := BitVec.ofNat 512 (leNat (b.take 64)), data := b.drop 64 }

/-- Is a packet that was sent again one that came before (R331): EPKT not above the record, within half the number space? -/
def stalePkt (record epkt : Nat) : Bool := let d := (epkt + 2 ^ 24 - record) % 2 ^ 24; d == 0 || decide (2 ^ 23 ≤ d)

/-- A packet that arrived whole on a port. -/
def arrivePkt (s : State) (p : Nat) (b : List Byte) : State :=
  let src := leAt b 9 3
  let ty := leAt b 12 1
  let f13 := leAt b 13 1
  let body := b.drop 24
  let known := [1, 4, 5, 6].contains ty || (ty == 8 && decide (12 ≤ p))
  let bad := decide (b.length < 24) || leAt b 5 1 / 16 != leAt b 5 1 % 16 || leAt b 6 3 != s.fab.selfRank || leAt b 16 2 != body.length
    || decide (4160 < body.length) || !known || (bitOf f13 3 && decide (12 ≤ p))
  if bad then s.onLink p bumpDiscards
  else if ty = 8 then mirRecords (body.length / 8 + 1) s body
  else
    let entry := s.rankE src
    let portOk := match entry with
      | some e => p == e.portA || p == (e.portA ^^^ 1)
      | none => false
    let epkt := leAt b 20 3
    let stale := match tabFind s.fab.epktIn src with
      | some n => bitOf f13 4 && stalePkt (n - 1) epkt
      | none => false
    if portOk && stale then s.onLink p bumpDiscards
    else
      let s := if !portOk then s else match tabFind s.fab.epktIn src with
        | some n => if stalePkt (n - 1) epkt then s else { s with fab := { s.fab with epktIn := tabIns s.fab.epktIn src (epkt + 1) } }
        | none => { s with fab := { s.fab with epktIn := tabIns s.fab.epktIn src (epkt + 1) } }
      if ty = 1 then
        (if body.length < 64 then s.onLink p bumpDiscards
         else
           receiveCmd s (packetCmd p src (leAt b 18 2) body))
      else if !portOk then
        appendLog s ((entry.map (·.host)).getD 65535) (if entry.isSome then 4 else 7) 0 (BitVec.ofNat 512 ((2 ^ 20 + src) * 2 ^ 64)) 0
      else match ty with
        | 4 => rrdData s src (leAt b 18 2) body
        | 5 => rrdErr s src (leAt b 18 2)
        | _ => cohArrive s src body

/-! ## The flit rows -/

/-- A flit arrives on a port: `kind` is that of its row, and a flit of another kind is not the row's. A flit whose KIND is not
listed comes under DATA. -/
def flitRow (p : Nat) (flit : List Byte) (kind : Nat) (s : State) : State :=
  let k := leAt flit 0 1 % 16
  if flit.length = 256 && (k = kind || (kind = 0 && 7 ≤ k)) then rx arrivePkt s p flit else s

def execData (p : Nat) (flit : List Byte) (s : State) : Host.Outcome State Fault Refusal := onInst (decide (p < 14)) (flitRow p flit 0 s)
def execIdle (p : Nat) (flit : List Byte) (s : State) : Host.Outcome State Fault Refusal := onInst (decide (p < 14)) (flitRow p flit 1 s)
def execReplayMark (p : Nat) (flit : List Byte) (s : State) : Host.Outcome State Fault Refusal := onInst (decide (p < 14)) (flitRow p flit 2 s)
def execNak (p : Nat) (flit : List Byte) (s : State) : Host.Outcome State Fault Refusal := onInst (decide (p < 14)) (flitRow p flit 3 s)
def execInit (p : Nat) (flit : List Byte) (s : State) : Host.Outcome State Fault Refusal := onInst (decide (p < 14)) (flitRow p flit 4 s)
def execLinkReq (p : Nat) (flit : List Byte) (s : State) : Host.Outcome State Fault Refusal := onInst (decide (p < 14)) (flitRow p flit 5 s)
def execLinkAck (p : Nat) (flit : List Byte) (s : State) : Host.Outcome State Fault Refusal := onInst (decide (p < 14)) (flitRow p flit 6 s)

end Sys2Proof.Machine
end

