-- ==== Sys2Proof/Machine/Faults.lean ====
section
/-! DEFINITION. Faults and their containment (R419-R434), partition resets with their dumps (R435-R440), device recovery (R441-R443),
BIST (R444, R445) and the commands of `FLT_CMD` (R446). -/
namespace Sys2Proof.Machine

/-! ## Units (R426) -/

/-- Is there such a unit? -/
def unitOk (u : W32) : Bool :=
  let n := [0, 1, 8, 10240, 40, 3, 32, 256, 288, 80, 14, 1, 1, 1, 141, 3, 64, 1, 4, 256, 1].getD (unitClass u) 0
  decide (unitIx u < n)
/-- The unit that a clock island clocks; any other unit is itself. -/
def clocked (u : W32) : W32 :=
  let i := unitIx u
  if unitClass u != 0xE then u
  else if i < 40 then unitOf 2 (i / 5)
  else if i < 80 then unitOf 4 (i - 40)
  else if i < 88 then unitOf 2 (i - 80)
  else if i < 120 then unitOf 6 (i - 88)
  else if i = 120 then unitOf 0xC 0
  else if i = 121 then unitOf 0xD 0
  else if i < 136 then unitOf 0xA (i - 122)
  else if i = 136 then unitOf 0xB 0
  else if i < 140 then unitOf 5 (i - 137)
  else unitOf 0xF 0
/-- The partition that a unit's containment resets. -/
def unitPart (u : W32) : Option Nat :=
  let v := clocked u
  match unitClass v with
  | 2 => some (unitIx v)
  | 6 => some (unitIx v / 4)
  | 7 => some (unitIx v / 32)
  | 9 => some (unitIx v / 10)
  | _ => none
/-- The partition in whose reset domain a unit lies (R28). -/
def unitInside (u : W32) : Option Nat :=
  let v := clocked u
  match unitClass v with
  | 3 => some (unitIx v / 1280)
  | 4 => some (unitIx v / 5)
  | 8 => some (if unitIx v < 32 then unitIx v / 4 else (unitIx v - 32) / 32)
  | 0x13 => some (unitIx v / 32)
  | _ => unitPart v
/-- The class bound in ns. -/
def unitBound (u : W32) : Nat :=
  match unitClass (clocked u) with
  | 2 => ms 3000
  | 3 => ms 1
  | 4 => ms 5
  | 5 => ms 5
  | 6 => ms 3000
  | 7 => ms 3000
  | 8 => 0
  | 9 => ms 3000
  | 0xA => us 10
  | 0xB => us 10
  | 0x10 => us 50
  | 0x11 => ms 1
  | 0x12 => ms 1
  | 0x13 => ms 1
  | _ => ms 12000
/-- Does the class make up the whole device: its containment is device recovery? -/
def deviceClass (u : W32) : Bool := [1, 0xC, 0xD, 0x14].contains (unitClass (clocked u))

/-- Sets a unit's state of R427. -/
def setUnitState (s : State) (u : W32) (st : Nat) : State :=
  let x := s.unit u
  if x.state = st then s else s.setUnit u { x with state := st, since := s.now, stuck := x.stuck && st != 0 && st != 3 }
/-- The units other than the partition whose recovery is the partition's reset. -/
def followers (s : State) (p : Nat) : List W32 :=
  (s.flt.units.filter fun e => let u := BitVec.ofNat 32 e.1
    u != unitOf 2 p && unitPart u == some p && (e.2.state == 1 || e.2.state == 2)).map fun e => BitVec.ofNat 32 e.1
/-- Moves a partition through `FLT_PART_STATE`, its unit with it, and the units whose recovery is its reset. -/
def setPartState (s : State) (p st : Nat) : State :=
  let fs := followers s p
  let s := s.setPart p { s.part p with state := st }
  let s := setUnitState s (unitOf 2 p) (partUnitState st)
  fs.foldl (fun s u => setUnitState s u (if st = 7 then 0 else partUnitState st)) s
def setIntFault (s : State) (bit : Nat) : State := { s with intr := { s.intr with fault := s.intr.fault ||| BitVec.ofNat 5 (2 ^ bit) } }

/-! ## The work of a partition (R437) -/

/-- Is this a program run under way, which a trap ends (R178, R192)? -/
def runUnderWay (c : Cmd) : Bool :=
  opcodeOf c.raw == 0x0381 && c.started && (c.st == .running || c.st == .stopping || c.st == .suspended)
/-- Does the command have work in the partition: its memory, tiles or slices? What a program reads and writes it shows as it goes, so a
run has work in its tiles' partitions (R181-R186). -/
def worksIn (s : State) (p : Nat) (c : Cmd) : Bool :=
  if opcodeOf c.raw == 0x0381 then (runTiles s c).any fun n => n / 1280 == p
  else (c.loads.any fun l => decide (l.1 < 16) && l.1 % 8 == p) || (c.points.any fun q => decide (112 ≤ q) && (q - 112) / 80 == p)
/-- Has the command work there now, rather than a claim on it? -/
def activeIn (s : State) (p : Nat) (c : Cmd) : Bool :=
  worksIn s p c && (c.started || c.st == .queued || c.st == .ready || c.st == .heldUnit) && c.st != .finishing
/-- Does a region or a tile of the slot lie there? A region lies in the partitions of all its extents. -/
def slotIn (s : State) (p : Nat) (x : Slot) : Bool :=
  (x.tiles.any fun n => n / 1280 == p)
    || (slotRegions x).any fun r => (spanSlices s x.host r.1 r.2).any fun l => decide (l.1 < 16) && l.1 % 8 == p
/-- Abandons the steps of the slots with a region or tiles there (R250); a slot that closes is then free. -/
def abandonSlots (s : State) (p : Nat) : State :=
  (s.work.slots.filter fun e => slotIn s p e.2).foldl
    (fun s e => closeSlot (if e.2.running || e.2.marked != [] then abandonStep s e.1 e.2.k stOFFLINE false else s) e.1) s
/-- A run with tiles there traps PARTITION: at the first tile there that still executes, or at its first tile there where all of them have
ended (R178, R192). One that has trapped keeps its trap (R179). -/
def trapPart (s : State) (p k : Nat) : State :=
  match s.cmd k with
  | none => s
  | some c =>
    let there := (runTiles s c).filter fun n => n / 1280 == p
    if (runTrap s (runTiles s c)).isSome then s
    else match there.find? fun n => (s.tile n).st.active, there with
      | some n, _ => trapTile s n 0xB 0
      | none, n :: _ => (runTiles s c).foldl stopTile (s.setTile n { s.tile n with st := .trapped 0xB 0 (s.tile n).pc })
      | none, [] => s
/-- The runs with tiles in the partition trap. Lines that their engines there had issued are served (R33), and nothing waits for them; the
tiles elsewhere still finish theirs, and the run then ends (R179). -/
def trapRuns (s : State) (p : Nat) : State :=
  let there := fun (r : ChReq) => match r.tile with
    | some (n, _, _) => n / 1280 == p
    | none => false
  let s := ((s.store.cmds.filter fun e => runUnderWay e.2 && worksIn s p e.2).map (·.1)).foldl (fun s k => trapPart s p k) s
  let s := drainReqs s there
  let s := { s with mem := { s.mem with chq := tabMapD {} (fun _ x => { x with reqs := x.reqs.filter fun r => !there r }) s.mem.chq } }
  let still : Nat → Tile → Tile := fun n t => if n / 1280 = p then { t with e0 := { t.e0 with wait := 0 }, e1 := { t.e1 with wait := 0 } } else t
  settle { s with churn := { s.churn with tiles := tabMapD {} still s.churn.tiles } }
/-- Ends the commands with work there: PARTITION_OFFLINE, with PROGRESS. A run under way ends by its trap. -/
def endWork (s : State) (p : Nat) : State :=
  settle ((s.store.cmds.filter fun e => activeIn s p e.2 && !runUnderWay e.2).foldl (fun s e => match s.cmd e.1 with
    | some c => finish s e.1 stOFFLINE (pointOf s c)
    | none => s) s)
/-- What a partition's fault takes with it beside its commands: queues, buffers, the cache slice, windows, an unwrap. -/
def clearPart (s : State) (p : Nat) : State :=
  let s := (s.coh.wins.filter fun w => (w.2.ext ++ w.2.dirExt).any fun e => ppaPart e.1 == p).foldl (fun s w => windowDown s w.1 4) s
  let s := dropPart s p
  let progs := s.churn.progs.map fun (e : Nat × Prog) => if e.2.tiles.any fun n => n / 1280 == p then (e.1, { e.2 with state := 3 }) else e
  let s := { s with
    churn := { s.churn with progs := progs }
    xlt := { s.xlt with caches := tabDel s.xlt.caches p, counts := tabDel s.xlt.counts p }
    qos := { s.qos with points := s.qos.points.filter fun e => !(decide (e.1 < 80) && e.1 / 10 == p)
                        streamBuf := s.qos.streamBuf.filter fun e => !(decide (112 ≤ e.1) && (e.1 - 112) / 80 == p) } }
  let s := scrubLeave s p
  match s.iso.unwrap with
  | some u => if ppaPart u.dstPpa = p then unwrapLost s u else s
  | none => s

/-! ## Dumps (R438-R440) -/

/-- `SYN_CTRL` (R252). -/
def synCtrl (o : SyncObj) : Nat :=
  flag o.valid 0 + flag o.err 1 + flag o.oWait 2 + flag o.oSig 3 + flag o.sat 4 + 2 ^ 8 * (o.errCnt % 256) + 2 ^ 16 * (o.owner % 65536)
/-- Section 1: the 80 class queues. -/
def dumpQueues (s : State) (p : Nat) : List (List Byte) :=
  (List.range 80).map fun i =>
    let q := 112 + 80 * p + i
    let items := ((s.point ((q - 112) / 8)).items.filter fun x => x.tc == q % 8)
    let n := fun (c : Nat) => (items.filter (·.color == c)).length
    leBytes 2 q ++ leBytes 2 (n 1) ++ leBytes 2 (n 2) ++ leBytes 2 0 ++ leBytes 4 (min (queueState s q).2 (2 ^ 32 - 1)) ++ leBytes 4 0
/-- STATE of a command in a dump. -/
def dumpState (c : Cmd) : Nat := match c.st with
  | .preempted => 1
  | .suspended => 2
  | .resuming => 3
  | .running => 4
  | .stopping => 4
  | .finishing => 4
  | .heldUnit => 6
  | _ => 5
/-- NEXT_ADDR of a command: the requester address of its next granule, 0 where its chapter says so (R190, R261, R263, R271, R287). The
granules of a step are those of the residuals it writes, or else of OUT (R248). -/
def nextAddr (s : State) (c : Cmd) : Nat :=
  let at_ := fun (a : Nat) => a + granOff a c.progress
  match opcodeOf c.raw with
  | 0x0300 => at_ (fillDst c)
  | 0x0301 => at_ (c.par 16 8)
  | 0x0302 => at_ (c.par 16 8)
  | 0x0303 => at_ (c.par 0 8)
  | 0x0311 => match s.slot (c.par 16 2) with
    | some x => if x.outRes then x.res + ((x.k + 1) % 2) * 4 * x.l + 4096 * c.progress
      else x.out + (x.k % 2) * rowO x + 128 * rowBits x.ofmt * c.progress
    | none => 0
  | 0x0108 => match lookup s c.host (c.par 16 8) 0 with
    | (.ok ppa rid, _) => c.par 16 8 - (ppa - ((s.range rid).map (·.ppa)).getD ppa) + 4096 * c.progress
    | _ => c.par 16 8
  | op => if decide (0x0101 ≤ op) && decide (op ≤ 0x0109) then at_ (c.par 16 8) else 0
/-- OP_STATE of a command, as its chapter says. -/
def opState (c : Cmd) : Nat :=
  match opcodeOf c.raw with
  | 0x0302 => c.opState
  | 0x0311 => c.par 16 2
  | 0x0381 => c.runHandle
  | 0x0402 => c.progress
  | 0x0403 => c.progress
  | 0x0404 => c.progress
  | 0x0503 => c.progress
  | 0x0504 => c.progress
  | _ => 0
/-- Section 2: the commands, as progress records (R68). -/
def dumpCmds (s : State) (p : Nat) : List (List Byte) :=
  (s.store.cmds.filter fun e => worksIn s p e.2).map fun e =>
    let c := e.2
    leBytes 4 (tagOf c.raw) ++ leBytes 4 (srcOf c.raw) ++ leBytes 2 (opcodeOf c.raw) ++ leBytes 1 (dumpState c) ++ leBytes 1 c.prio
      ++ leBytes 4 (pointOf s c) ++ leBytes 8 (nextAddr s c) ++ leBytes 4 c.sat ++ leBytes 4 (opState c)
/-- Section 3: the sync objects that those commands name. -/
def dumpSyncs (s : State) (p : Nat) : List (List Byte) :=
  let cs := s.store.cmds.filter fun e => worksIn s p e.2
  let bound := fun (c : Cmd) => if opcodeOf c.raw = 0x0381 then (match s.prog c.runHandle with
    | some g => (List.range g.syncN).map c.runSync
    | none => []) else []
  let ids := (cs.flatMap fun e => (waits e.2.raw).map (·.1) ++ (sigs e.2.raw).map (·.1) ++ bound e.2).eraseDups
  (ids.mergeSort fun a b => decide (a ≤ b)).map fun i =>
    let o := s.obj i
    leBytes 2 i ++ leBytes 2 0 ++ leBytes 4 (synCtrl o) ++ leBytes 8 o.count.toNat ++ leBytes 4 o.thr.toNat ++ leBytes 4 0
/-- Section 4: the tiles. -/
def dumpTile (s : State) (n : Nat) : List Byte :=
  let t := s.tile n
  let st := if t.scratchPoison != [] then 4 else if t.offline then 3 else match t.st with
    | .trapped .. => 2
    | x => if x.active then 1 else 0
  let cause := match t.st with
    | .trapped c _ _ => c
    | _ => 0
  let next := fun (e : Engine) => match e.queue with
    | x :: _ => x.ra + x.row * x.stride + 64 * x.line
    | [] => 0
  let h := match runOf s n with
    | some (_, c) => c.runHandle
    | none => 0
  leBytes 2 n ++ leBytes 1 st ++ leBytes 1 cause ++ leBytes 2 t.pc ++ leBytes 2 h ++ leBytes 1 t.e0.queue.length ++ leBytes 1 t.e1.queue.length
    ++ [BitVec.ofNat 8 (flag t.e0.halted 0 + flag t.e1.halted 1), 0] ++ leBytes 8 (next t.e0) ++ leBytes 8 (next t.e1) ++ leBytes 4 (tileCycles s n)
/-- Section 5: the memory controllers: four channels, then 32 pseudo-channels. -/
def dumpCtl (s : State) (p i : Nat) : List Byte :=
  let qs := if i < 4 then [2 * (4 * p + i), 2 * (4 * p + i) + 1] else [64 + 32 * p + (i - 4)]
  let x := qs.map s.chq
  let reqs := x.flatMap (·.reqs)
  let b := if i < 4 then (s.part p).chans.getD i {} else (s.part p).stack
  let post := x.foldl (fun n c => n + c.postponed.foldl (fun n e => n + e.2) 0) 0
  let age := reqs.foldl (fun m r => max m (s.now - r.at_)) 0
  let pos := (s.cnt (if i < 4 then 4 * p + i else 32 + 32 * p + (i - 4))).scrubPos
  let conf := (s.part p).confirmed.contains (min i 4)
  [if i < 4 then 0 else 1, BitVec.ofNat 8 (if i < 4 then i else i - 4), BitVec.ofNat 8 b.state, BitVec.ofNat 8 post]
    ++ leBytes 2 (reqs.filter fun r => !r.write).length ++ leBytes 2 (reqs.filter (·.write)).length ++ leBytes 4 age ++ leBytes 4 pos
    ++ [if conf then 1 else 0] ++ List.replicate 15 0
/-- Section 6: the low scratchpad of a tile; unreadable words are 0. -/
def dumpScratch (s : State) (n : Nat) : List Byte :=
  let t := s.tile n
  (List.range 512).flatMap fun w => if t.scratchPoison.contains w then List.replicate 8 0 else memGetL t.scratch (8 * w) 8

/-- Lays the sections out: (TYPE, record length, records), with each one's offset; those that do not fit SIZE_KIB are cut from the
highest TYPE down. -/
def dumpPlace (limit : Nat) : Nat → List (Nat × Nat × List (List Byte)) → List (Nat × Nat × Nat × List Byte) × Bool
  | _, [] => ([], false)
  | off, (ty, len, recs) :: rest =>
    let o := roundUp off 64
    if limit < o + len * recs.length then ([], true)
    else
      let (l, cut) := dumpPlace limit (o + len * recs.length) rest
      ((ty, len, o, recs.flatten) :: l, cut)
/-- Writes the dump of a partition, or counts it as skipped while one is held. -/
def dumpWrite (s : State) (p : Nat) : State :=
  let cfg := s.flt.dumpCfg.toNat
  if !bitOf cfg 31 then s
  else if s.flt.dumpValid then { s with flt := { s.flt with skipped := satAdd 8 s.flt.skipped 1 } }
  else
    let x := s.part p
    let tiles := (List.range 1280).map (1280 * p + ·)
    let secs := [(1, 16, x.dump.getD 0 []), (2, 32, x.dump.getD 1 []), (3, 24, x.dump.getD 2 []), (4, 32, tiles.map (dumpTile s)), (5, 32, (List.range 36).map (dumpCtl s p))]
      ++ (if bitOf cfg 30 then [(6, 4096, tiles.map (dumpScratch s))] else [])
    let (placed, cut) := dumpPlace (1024 * (cfg % 2 ^ 24)) 192 secs
    let total := placed.foldl (fun m e => max m (e.2.2.1 + e.2.2.2.length)) 192
    let flags := flag (bitOf cfg 30) 0 + flag cut 1
    let head := leBytes 4 0x504D5544 ++ leBytes 2 1 ++ leBytes 1 p ++ leBytes 1 flags ++ leBytes 8 x.fltTime ++ leBytes 4 x.fltSeq ++ leBytes 4 x.fltUnit.toNat
      ++ leBytes 4 total ++ List.replicate 36 0
    let table := (List.range 8).flatMap fun i => match placed[i]? with
      | some (ty, len, off, bs) => leBytes 2 ty ++ leBytes 2 len ++ leBytes 4 (bs.length / max len 1) ++ leBytes 4 off ++ leBytes 4 0
      | none => List.replicate 16 0
    let a := s.flt.dumpAddr.toNat
    -- a buffer that does not even hold the header takes nothing
    let s := if 1024 * (cfg % 2 ^ 24) < 192 then s
      else placed.foldl (fun s e => s.hostWrite (a + e.2.2.1) e.2.2.2) (s.hostWrite a (head ++ table))
    { s with flt := { s.flt with dumpValid := true, dumpTrunc := cut, dumpInc := false, dumpPart := p } }

/-! ## Partition reset (R435-R437) -/

/-- A partition goes out of service: its work ends, and what the dump shows of it is noted first. -/
def partOff (s : State) (p : Nat) (u : W32) (seq st : Nat) : State :=
  let dump := if bitOf s.flt.dumpCfg.toNat 31 then [dumpQueues s p, dumpCmds s p, dumpSyncs s p] else []
  let s := s.setPart p { s.part p with fltTime := s.time, fltUnit := u, fltSeq := seq, dump := dump, confirmed := [], quiesceAt := s.now, holdAt := 0
                                       lossySkim := false, lossyCream := false }
  let s := unparkPart s p
  let s := setPartState s p st
  clearPart (endWork (trapRuns (abandonSlots s p) p) p) p
/-- A partition latches OFFLINE (R428, R429, R443). -/
def latchPart (s : State) (p : Nat) : State := setIntFault (setPartState s p 7) 1
/-- The next phase of a contained partition: the dump where one is written, else the quiesce. -/
def firstPhase (s : State) : Nat := if bitOf s.flt.dumpCfg.toNat 31 then 2 else 3
/-- A mirrored member's answer to a partition reset (R414). -/
def partPair (s : State) : State :=
  if s.mir.state = 3 || s.mir.state = 2 then leaveStep s 15
  else if s.mir.state = 1 && s.mir.inStep && !s.mir.restore then sendNotice (lostStandby s 15) 4 15
  else s

/-- Clears a partition's tiles, and the tables of SCH for them. The segments of broken programs stay until they are unloaded, and how a
tile of a run ended until the run ends (R179). -/
def clearTiles (s : State) (p : Nat) : State :=
  let f : Nat → Tile → Tile := fun n t =>
    if n / 1280 != p then t
    else if t.run.isSome && t.st.ended then { offline := t.offline, slots := t.slots, run := t.run, st := t.st, grans := t.grans, satc := t.satc }
    else { offline := t.offline, slots := t.slots }
  { s with churn := { s.churn with tiles := tabMapD {} f s.churn.tiles } }
/-- The CLU_ registers of the partition's clusters at their reset values (R194). -/
def cluReset (s : State) (p : Nat) : State :=
  { s with churn := { s.churn with clus := s.churn.clus.filter fun e => e.1 / 5 != p } }
/-- Clears the histograms of the partition's 10 stops (R151). -/
def clearBins (s : State) (p : Nat) : State :=
  { s with qos := { s.qos with bins := s.qos.bins.filter fun e => !(decide (112 + 80 * p ≤ e.1 / 32) && decide (e.1 / 32 < 192 + 80 * p)) } }
/-- The reset of a partition's domain (R28): its tiles, clusters, stops and controllers stand as after reset, and training begins. -/
def resetDomain (s : State) (p : Nat) : State :=
  setPartState (trainStart (memRegsReset (cluReset (clearTiles (clearBins s p) p) p) p) p) p 4
/-- Reset over the domain of R28 ends: tiles, cores and controllers start anew and training begins. -/
def resetPart (s : State) (p : Nat) : State :=
  let inside := s.flt.units.filter fun e => let u := BitVec.ofNat 32 e.1
    unitInside u == some p && (unitPart u).isNone && (e.2.state == 1 || e.2.state == 2)
  let s := inside.foldl (fun s e => setUnitState s (BitVec.ofNat 32 e.1) 3) s
  resetDomain s p
/-- Marks the log record of a partition's fault LOSSY (R436). -/
def markLossy (s : State) (p : Nat) : State :=
  let q := (s.part p).fltSeq
  match tabFind s.flt.log (q % 1024) with
  | some r => if r.seq = q then { s with flt := { s.flt with log := tabIns s.flt.log (q % 1024) { r with flags := r.flags ||| 4 } } } else s
  | none => s
/-- The tiers whose controllers did not confirm are lossy. -/
def settleLossy (s : State) (p : Nat) : State :=
  let x := s.part p
  let skim := !([0, 1, 2, 3].all fun i => x.confirmed.contains i)
  let cream := !x.confirmed.contains 4
  let s := s.setPart p { x with lossySkim := skim, lossyCream := cream }
  if skim || cream then markLossy s p else s
/-- A lossy tier reads zeros, the system area excepted, and waits for its fill (R436). -/
def zeroLossy (s : State) (p : Nat) : State :=
  let x := s.part p
  let s := if x.lossySkim then zeroSpan s (ppaOf false p 0) (mappable s false p) else s
  let s := if x.lossyCream then zeroSpan s (ppaOf true p 0) (mappable s true p) else s
  s.setPart p { x with fillSkim := x.fillSkim || x.lossySkim, fillCream := x.fillCream || x.lossyCream }
/-- A partition returns to service (R435 step 7, R110): in QUIET, with what a release or a failed unwrap left to clear done first. -/
def partReturn (s : State) (p : Nat) : State :=
  let s := if s.iso.offlineScrub.contains p then { scrubPart s p with iso := { s.iso with offlineScrub := s.iso.offlineScrub.filter (· != p) } } else s
  let s := zeroLossy s p
  let mine := s.iso.zeroOnReturn.filter fun r => match s.range r with
    | some e => ppaPart e.ppa == p
    | none => true
  let s := mine.foldl (fun s r => match s.range r with
    | some e => zeroSpan s e.ppa (4096 * e.lenG)
    | none => s) { s with iso := { s.iso with zeroOnReturn := s.iso.zeroOnReturn.filter fun r => !mine.contains r } }
  settle (setIntFault (setPartState (repin s) p 6) 2)

/-! ## Device recovery and FAILED (R441-R443) -/

/-- The device fails: it serves nothing until RESET_N (R442). -/
def deviceFailed (s : State) : State :=
  { s with flt := { s.flt with failed := true, recovery := false }, saf := { s.saf with statusByte := s.saf.statusByte ||| 8 } }
/-- A port's link-layer state is lost; its configuration and counters stay. -/
def relink (s : State) (p : Nat) : State :=
  let l := s.link p
  let s := lanesOff s p 0
  s.setLink p { linkReset p with
    replayLimit := l.replayLimit, creditToUs := l.creditToUs, replayTimer := l.replayTimer, alloc := l.alloc, replays := l.replays
    retrains := l.retrains, crcErr := l.crcErr, downEv := l.downEv, discards := l.discards, laneEv := l.laneEv, ovf := l.ovf }
/-- Device recovery begins: the pair is told, every unit but SAF and the key store is reset, and every operation stops. -/
def deviceRecovery (s : State) : State :=
  let s := if s.mir.state = 1 then activeFail s else leaveStep s 15
  let s := { s with flt := { s.flt with recovery := true, recHoldAt := s.now } }
  let s := allParts.foldl (fun s p => abandonSlots s p) s
  let held : Nat → Cmd → Cmd := fun _ c => { c with st := .heldUnit }
  let runs := (s.store.cmds.filter fun e => runUnderWay e.2).map (·.1)
  let seq := s.flt.head.toNat - 1
  let parts := allParts.filter fun p => (s.part p).state != 7
  let dump := fun (s : State) (p : Nat) => if bitOf s.flt.dumpCfg.toNat 31 then [dumpQueues s p, dumpCmds s p, dumpSyncs s p] else []
  let s := parts.foldl (fun s p => dumpWrite (s.setPart p { s.part p with
    fltTime := s.time, fltUnit := unitOf 1 0, fltSeq := seq, dump := dump s p, confirmed := [], quiesceAt := s.now, holdAt := 0 }) p) s
  let s := { s with store := { s.store with
    cmds := tabMap held s.store.cmds, refusals := s.store.refusals.filter fun r => r.key.isNone } }
  -- the runs trap where they stand, and are answered when the recovery ends
  let s := runs.foldl (fun s k => allParts.foldl (fun s p => trapPart s p k) s) s
  let s := endRequests (parts.foldl (fun s p => setPartState (clearPart (unparkPart s p) p) p 3) s) rBUSY
  let s := { s with
    fab := { s.fab with outq := [], onPartner := [], retryBack := [], cktTok := [], epktIn := [], epktOut := [] }
    work := { s.work with rrds := [], remote := [] } }
  let s := allParts.foldl clearTiles s
  let s := (s.coh.wins.filter fun w => w.2.state == 1 || w.2.state == 2).foldl (fun s w => windowDown s w.1 4) s
  let s := (List.range 14).foldl relink s
  let units := s.flt.units.filter fun e => let u := BitVec.ofNat 32 e.1
    (e.2.state == 1 || e.2.state == 2 || e.2.state == 3) && unitClass u != 1 && unitClass u != 2 && unitClass u != 0xF && unitClass u != 0x14
  let s := units.foldl (fun s e => setUnitState s (BitVec.ofNat 32 e.1) 0) s
  fwInterrupt (setUnitState s (unitOf 1 0) 2)

/-! ## A fault arrives (R424, R426) -/

/-- A fault of a unit whose containment is the reset of partition `p`. One that is already being contained or recovered latches OFFLINE
(R443); reports during the reset itself are masked (R423) but for `own`, a failure of the reset. -/
def partFault (s : State) (p : Nat) (u : W32) (prot detail : Nat) (info : W64) (flags : Nat) (own : Bool) : State :=
  let st := (s.part p).state
  let seq := s.flt.head.toNat
  if st = 7 then raiseFault s u prot detail info (s.unit u).state flags
  else if decide (3 ≤ st) && decide (st ≤ 5) && !own then s
  else if decide (1 ≤ st) && decide (st ≤ 5) then latchPart (raiseFault s u prot detail info 1 (flags ||| 2)) p
  else
    let s := raiseFault s u prot detail info 1 flags
    let s := partPair (partOff s p u seq (firstPhase s))
    if 2 < recovering s && (s.mir.state = 1 && s.mir.inStep) then deviceRecovery (raiseFault (activeFail s) (unitOf 1 0) 0x11 0 0 1)
    else s

/-- The PCIe port stops every ring with FETCH_ERR. -/
def stopRings (s : State) : State :=
  { s with rings := s.rings.map fun (e : Nat × Ring) => if e.2.en then (e.1, { e.2 with fetchErr := true, stopped := true }) else e }
/-- A fault of the whole device: one more during its recovery is the end (R442). -/
def deviceFault (s : State) (u : W32) (prot detail : Nat) (info : W64) (flags : Nat) : State :=
  let s := raiseFault s u prot detail info 1 flags
  if s.flt.recovery then deviceFailed s else deviceRecovery s
/-- The trap of a tile for a protection (R178): SECDED, residue or shadow, parity; a hang of its engine counts as a poisoned burst
(log 34). A SECDED report is of instruction memory where the word at PC cannot be corrected, or where its DETAIL is no scratch address
(log 34). -/
def tileCause (t : Tile) (prot : Nat) (info : W64) : Nat := match prot with
  | 2 => if decide (2 ≤ flips t.fetchErr) || decide (65536 ≤ info.toNat) then 3 else 4
  | 3 => 0xD
  | 4 => 0xA
  | 5 => 0xA
  | _ => 5
/-- A SAF channel disagrees: the first is outvoted; a second is a fault of the device, and one during its recovery the end (R443). -/
def safFault (s : State) (u : W32) (prot detail : Nat) (info : W64) : State :=
  let bit : BitVec 3 := BitVec.ofNat 3 (2 ^ unitIx u)
  let s1 := corrected { s with saf := { s.saf with chAgree := s.saf.chAgree &&& ~~~bit } } u prot detail info
  if s.flt.recovery then deviceFailed s1
  else if s.saf.chAgree &&& bit = 0 then s1
  else if s.saf.chAgree = 7 then { s1 with flt := { s1.flt with degraded := true } }
  else deviceFault s1 (unitOf 1 0) 0x0C 0 0 0
/-- A double-bit error in a structure of the IOD (R434): `info` names the slot, entry or object. The entry is rewritten at once
(log 34). -/
def iodFault (s : State) (ix n : Nat) : State :=
  if ix = 0 then (match s.cmd n with
    | some c => settle (finish s n stPOISONED c.progress)
    | none => s)
  else if ix = 3 then
    let o := s.obj n
    settle (if o.valid then s.setObj n { o with err := true, count := 0 } else s)
  else s

/-- A fault of a unit: logged, and contained as its class says. -/
def faultAt (s : State) (u : W32) (prot detail : Nat) (info : W64) (flags : Nat := 0) : State :=
  let v := clocked u
  let i := unitIx v
  let cls := unitClass v
  let old := s.unit u
  let inside := match unitInside v with
    | some p => (s.part p).state
    | none => 0
  if cls = 0xF then safFault s u prot detail info
  else if s.flt.failed then raiseFault s u prot detail info old.state flags
  else if deviceClass v then deviceFault s u prot detail info flags
  else if s.flt.recovery then s
  else match unitPart v with
  | some p => partFault s p u prot detail info flags false
  | none =>
    if inside = 7 || old.state = 4 then raiseFault s u prot detail info old.state flags
    else if decide (3 ≤ inside) && decide (inside ≤ 5) then s
    else if cls = 3 then
      let s := raiseFault s u prot detail info 3 flags
      let s := if prot = 4 || prot = 5 then cluMac s (cluOf i) else s
      match (s.tile i).run with
      | some _ =>
        -- the trap does not log a second record of the fault
        let s1 := trapTile s i (tileCause (s.tile i) prot info) 0 info
        settle { s1 with flt := s.flt }
      | none => s
    else if cls = 4 || cls = 5 then
      let s := raiseFault s u prot detail info 2 flags
      if cls = 5 && i = 0 then fwInterrupt s else s
    else if cls = 8 then
      let a := info.toNat
      raiseFault (if backed s a then poisonLine s a else s) u prot detail info 3 flags
    else if cls = 0xA then
      let cause := if prot = 9 then 9 else 0
      let log := fun (s : State) => raiseFault s u prot detail info 3 flags
      if 2 ≤ (s.link i).state && (s.link i).state != 5 then linkDownBy s i cause log else log (linkDown s i cause)
    else if cls = 0xB then raiseFault (stopRings s) u prot detail info 3 flags
    else if cls = 0x10 then
      let s1 := settle (windowDown s i 2)
      raiseFault { s1 with flt := s.flt } u prot detail info 3 flags
    else if cls = 0x11 then
      let s := raiseFault (sendNotice s 3 13) u prot detail info 3 flags
      let s := pairInt (s.onMir fun m => { m with broken := true, cause := 13 }) 4
      breakPair s
    else if cls = 0x12 then iodFault (raiseFault s u prot detail info 3 flags) i info.toNat
    else raiseFault s u prot detail info 3 flags

/-- FAULT_REPORT. -/
def execFaultReport (unit : W32) (prot detail : Byte) (info : W64) (s : State) : Host.Outcome State Fault Refusal :=
  onInst (unitOk unit) (faultAt s unit prot.toNat detail.toNat info)
/-- BROKEN_WIRE: a fault of the source unit, which stays CONTAINED until it escalates (R423). -/
def brokenWire (s : State) (u : W32) : State :=
  let s := faultAt s u 0x0A 0 0
  if unitClass u = 4 || unitClass u = 5 || ((unitPart u).isNone && !deviceClass u && (s.unit u).state == 3)
  then s.setUnit u { s.unit u with state := 1, since := s.now, stuck := true } else s
def execBrokenWire (unit : W32) (s : State) : Host.Outcome State Fault Refusal :=
  onInst (unitOk unit) (if (s.unit unit).stuck then s else brokenWire s unit)

/-- The unit that a watchdog watches (R433). -/
def wdWatches (wd : Nat) (u : W32) : Bool :=
  let c := unitClass u
  match wd with
  | 1 => c == 3
  | 2 => c == 9
  | 3 => c == 6 || c == 7
  | 4 => true
  | 5 => c == 0xA
  | 6 => c == 0xB
  | 7 => c == 4
  | 8 => c == 5
  | 9 => c == 0x13
  | _ => false
/-- Has a core that runs not written its heartbeat for 1 ms? -/
def heartLate (s : State) (u : W32) : Bool := !unitDown s u && decide (tabGet 0 s.flt.heartbeats u.toNat + ms 1 ≤ s.now)
/-- WATCHDOG_EXPIRY. -/
def execWatchdogExpiry (wd : Nat) (unit : W32) (s : State) : Host.Outcome State Fault Refusal :=
  onInst (unitOk unit && wdWatches wd unit) (
    if (wd = 7 || wd = 8) && !heartLate s unit then s else faultAt s unit 0x0B wd 0)
/-- CORE_HEARTBEAT (R465). -/
def execCoreHeartbeat (unit : W32) (s : State) : Host.Outcome State Fault Refusal :=
  onInst (unitOk unit && (unitClass unit == 4 || unitClass unit == 5)) (
    { s with flt := { s.flt with heartbeats := tabSet 0 s.flt.heartbeats unit.toNat s.now } })

/-! ## Clocks (R32, R34) -/

/-- The planned frequency of an island in kHz (R30). -/
def islandKhz (s : State) (i : Nat) : Nat :=
  if i < 40 then 1000 * levelMhz (cluLevel s i)
  else if i < 80 then 1000000
  else if i < 88 then 1200000
  else if i < 120 then rateKhz (s.blk false (i - 88)).rate
  else if i = 120 then 2500000
  else if i = 121 then 1600000
  else if i < 136 then 1328125
  else [1000000, 500000, 1000000, 1600000].getD (i - 136) 1000000
/-- The least and the most of an island's clock over the 10 µs window that ends now, in kHz × ns: the planned frequency; where PMC wrote a
new one, the old until that write, then a stop of up to 4 µs, and the new one afterwards (R34). -/
def clockPlan (s : State) (i : Nat) : Nat × Nat :=
  let new := islandKhz s i
  let stop := tabGet 0 s.flt.stopUntil i
  if stop = 0 then (new * us 10, new * us 10)
  else
    let old := tabGet 0 s.flt.wasKhz i
    let before := min (us 10) (stop - us 4 + us 10 - s.now)
    let stopped := min (us 10) (stop + us 10 - s.now) - before
    let lo := old * before + new * (us 10 - before - stopped)
    (lo, lo + max old new * stopped)
/-- CLOCK_MONITOR_WINDOW: a count more than 5 % outside the plan is a fault of the island. -/
def clockWindow (s : State) (i count : Nat) : State :=
  let (lo, hi) := clockPlan s i
  if 19 * lo ≤ 20 * count * 1000000 && 20 * count * 1000000 ≤ 21 * hi then s else faultAt s (unitOf 0xE i) 0x09 0 0
def execClockMonitorWindow (island : Nat) (count : Nat) (s : State) : Host.Outcome State Fault Refusal :=
  onInst (decide (island < 140)) (clockWindow s island count)
/-- PLL_RELOCK_COMPLETE: the clock starts again; the tiles of a cluster counted no cycles meanwhile (R32). -/
def pllLocked (s : State) (i : Nat) : State :=
  let s := (s.churn.tiles.filter fun e => cluOf e.1 = i && e.2.st.active).foldl (fun s e => foldCycles s e.1) s
  { s with flt := { s.flt with relocking := s.flt.relocking.filter (· != i) } }
def execPllRelockComplete (island : Nat) (s : State) : Host.Outcome State Fault Refusal :=
  onInst (decide (island < 140)) (pllLocked s island)

/-! ## The phases of a reset -/

/-- DUMP_COMPLETE. -/
def execDumpComplete (p : Nat) (s : State) : Host.Outcome State Fault Refusal :=
  onInst (decide (p < 8)) (
    if (s.part p).state = 2 && !s.flt.recovery then
      let s := dumpWrite s p
      let s := s.setPart p { s.part p with quiesceAt := s.now, dump := [] }
      setPartState s p 3
    else s)
/-- Begins the reset hold of a partition. -/
def beginHold (s : State) (p : Nat) : State :=
  let s := settleLossy s p
  s.setPart p { s.part p with holdAt := s.now + 1 }
/-- SELF_REFRESH_CONFIRM: of channel 0 to 3, or of the stack, 4. -/
def execSelfRefreshConfirm (p : Nat) (ctl : Nat) (s : State) : Host.Outcome State Fault Refusal :=
  onInst (decide (p < 8) && decide (ctl < 5)) (
    let x := s.part p
    if x.state != 3 || x.holdAt != 0 || x.confirmed.contains ctl then s
    else
      let s := s.setPart p { x with confirmed := ctl :: x.confirmed }
      if x.confirmed.length = 4 && !s.flt.recovery then beginHold s p else s)
/-- QUIESCE_DEADLINE. -/
def execQuiesceDeadline (p : Nat) (s : State) : Host.Outcome State Fault Refusal :=
  onInst (decide (p < 8)) (
    let x := s.part p
    if x.state = 3 && x.holdAt = 0 && !s.flt.recovery && decide (x.quiesceAt + ms 1 ≤ s.now) then beginHold s p else s)
/-- RESET_HOLD_END: of a partition, or of device recovery, in which every port is brought up again. -/
def execResetHoldEnd (p : Option Nat) (s : State) : Host.Outcome State Fault Refusal :=
  match p with
  | some p => onInst (decide (p < 8)) (
      let x := s.part p
      if x.state = 3 && x.holdAt != 0 && decide (x.holdAt + ms 1 ≤ s.now + 1) then resetPart s p else s)
  | none => done (
      if s.flt.recovery && s.flt.recHoldAt != 0 && decide (s.flt.recHoldAt + ms 10 ≤ s.now) then
        let s := { s with flt := { s.flt with recHoldAt := 0 } }
        let s := (allParts.filter fun p => (s.part p).state == 3).foldl (fun s p => resetPart (settleLossy s p) p) s
        (List.range 14).foldl detectStart s
      else s)

/-- PARTITION_TRAINING_COMPLETE (R387): at start-up a partition comes ONLINE or is OFFLINE; in a reset it goes on to its restore, or
latches. -/
def trainComplete (s : State) (p : Nat) (r : TrainResult) : State :=
  if (s.part p).state != 4 then s
  else
    let boot := s.boot.stage == 4 && !s.flt.recovery
    let s := trainResult s p r
    let ok := skimCause r = 0 && creamCause s r = 0
    if ok then
      let s := if boot then setPartState s p 0 else setPartState s p 5
      shareRate s
    else partFault s p (unitOf 2 p) 0x10 0 0 0 true
def execPartitionTrainingComplete (p : Nat) (r : TrainResult) (s : State) : Host.Outcome State Fault Refusal :=
  onInst (decide (p < 8)) (if s.boot.stage = 4 || 6 ≤ s.boot.stage then trainComplete s p r else s)
/-- The command of `FLT_CMD` that waits for a partition ends with its return. -/
def fltDone (s : State) (result : Nat) : State := setIntFault { s with flt := { s.flt with busy := false, result := result } } 4
/-- PARTITION_RETURN. -/
def execPartitionReturn (p : Nat) (s : State) : Host.Outcome State Fault Refusal :=
  onInst (decide (p < 8)) (
    if (s.part p).state = 5 && !s.flt.recovery then
      let s := partReturn s p
      if s.flt.busy && s.flt.cmdUnit == unitOf 2 p then fltDone s 0 else s
    else s)
/-- DEVICE_RECOVERY_COMPLETE: once every partition is trained; every command of the store is answered, and the rings resume. -/
def recoveryEnd (s : State) : State :=
  if !s.flt.recovery || s.flt.recHoldAt != 0 || allParts.any (fun p => let x := (s.part p).state; decide (1 ≤ x) && decide (x ≤ 4)) then s
  else
    let s := (allParts.filter fun p => (s.part p).state == 5).foldl partReturn s
    let s := { s with flt := { s.flt with recovery := false, degraded := false }, saf := { s.saf with chAgree := 7 } }
    let s := setIntFault (setUnitState s (unitOf 1 0) 3) 3
    let s := s.store.cmds.foldl (fun s e => match s.cmd e.1 with
      | some c => if opcodeOf c.raw = 0x0381 && (runTrap s (runTiles s c)).isSome then endRun s e.1 c else finish s e.1 stOFFLINE (pointOf s c)
      | none => s) s
    settle s
def execDeviceRecoveryComplete (s : State) : Host.Outcome State Fault Refusal := done (recoveryEnd s)

/-! ## QUIET, exits and escalation (R427-R430) -/

/-- The unit whose counter counts an exit: of a line, its channel. -/
def countedUnit (u : W32) : W32 :=
  if unitClass u != 8 then u else if unitIx u < 32 then unitOf 6 (unitIx u) else unitOf 7 (unitIx u - 32)
/-- A unit latches OFFLINE instead of returning to NORMAL. -/
def latchUnit (s : State) (u : W32) : State :=
  let c := unitClass u
  if c = 8 then match unitInside u with
    | some p => latchPart (partOff (setUnitState s u 0) p u s.flt.head.toNat 7) p
    | none => s
  else if c = 2 then latchPart (partOff s (unitIx u) u s.flt.head.toNat 7) (unitIx u)
  else
    let s := setIntFault (setUnitState s u 4) 1
    if c = 3 then s.setTile (unitIx u) { s.tile (unitIx u) with offline := true }
    else if c = 0xA then linkDown s (unitIx u) 0
    else if [1, 5, 0xC, 0xD, 0x12].contains c then deviceFailed s
    else s
/-- QUIET_END. -/
def quietEnd (s : State) (u : W32) : State :=
  let x := s.unit u
  if x.state != 3 || s.now < x.since + ms s.flt.quietMs then s
  else
    let v := countedUnit u
    let y := s.unit v
    if y.count + 1 > s.flt.recovLimit then latchUnit s u
    else
      let s := s.setUnit v { y with count := y.count + 1, winOpen := true, winAt := if y.winOpen then y.winAt else s.now }
      if unitClass u = 2 then setPartState s (unitIx u) 0 else setUnitState s u 0
def execQuietEnd (unit : W32) (s : State) : Host.Outcome State Fault Refusal := onInst (unitOk unit) (quietEnd s unit)
/-- RECOVERY_WINDOW_END. -/
def execRecoveryWindowEnd (unit : W32) (s : State) : Host.Outcome State Fault Refusal :=
  onInst (unitOk unit) (
    let x := s.unit unit
    if x.winOpen && decide (x.winAt + ms (60000 * s.flt.recovWinMin) ≤ s.now) then s.setUnit unit { x with winOpen := false, count := 0 } else s)

/-- Ends the commands that are held on a core (R429). -/
def endHeld (s : State) (u : W32) : State :=
  settle ((s.store.cmds.filter fun e => e.2.st == .heldUnit && needsUnit e.2 u).foldl (fun s e => match s.cmd e.1 with
    | some c => finish s e.1 stFAULT_TIMEOUT c.progress
    | none => s) s)
/-- The unit that takes a fault when this one overruns its bound. -/
def parentOf (u : W32) : Option W32 :=
  match unitClass (clocked u) with
  | 3 => (unitInside u).map (unitOf 2)
  | 4 => (unitInside u).map (unitOf 2)
  | 0x13 => (unitInside u).map (unitOf 2)
  | 5 => some (unitOf 1 0)
  | 0x12 => some (unitOf 1 0)
  | _ => none
/-- ESCALATION. -/
def escalate (s : State) (u : W32) : State :=
  let x := s.unit u
  let overs := fun (b : Nat) => decide (x.since + b < s.now)
  if x.state != 1 && x.state != 2 then s
  else if unitClass u = 1 then (if overs (ms 12000) && s.flt.recovery then deviceFailed s else s)
  else match unitPart u with
    | some p => if unitClass u = 2 && decide ((s.part p).fltTime + s.devStart + ms 3000 < s.now) && !s.flt.recovery then latchPart s p else s
    | none =>
      if !overs (min (unitBound u) (ms s.flt.escalateMs)) then s
      else
        let s := endHeld s (clocked u)
        match parentOf u with
        | some v => faultAt s v 0x11 0 0 1
        | none => s
def execEscalation (unit : W32) (s : State) : Host.Outcome State Fault Refusal := onInst (unitOk unit) (escalate s unit)

/-- CORE_RESTART_COMPLETE (R463, R464): the commands held on the core go on; an EVENT with CODE 1 follows. -/
def coreRestart (s : State) (u : W32) : State :=
  if !unitDown s u || (s.unit u).stuck then s
  else
    let s := setUnitState s u 3
    let s := { s with flt := { s.flt with heartbeats := tabSet 0 s.flt.heartbeats u.toNat s.now } }
    let go : Nat → Cmd → Cmd := fun _ c => if c.st = .heldUnit && !heldOn s c then { c with st := .ready } else c
    let s := settle { s with store := { s.store with cmds := tabMap go s.store.cmds } }
    sendEvent s 1 (if unitClass u = 5 then unitIx u else 3 + unitIx u) u.toNat
def execCoreRestartComplete (unit : W32) (s : State) : Host.Outcome State Fault Refusal :=
  onInst (unitOk unit && (unitClass unit == 4 || unitClass unit == 5)) (coreRestart s unit)

/-- ALIVE_TOGGLE (R431). -/
def execAliveToggle (s : State) : Host.Outcome State Fault Refusal :=
  done (if aliveHeld s then s else { s with pins := { s.pins with alive := !s.pins.alive } })

/-! ## `FLT_CMD` (R444-R446) -/

/-- A planned change of a unit: KIND 2. -/
def logPlanned (s : State) (u : W32) : State := logFlt s u 0 0 2 0 0
/-- OP OFFLINE. -/
def fltOffline (s : State) (u : W32) : State :=
  let x := s.unit u
  if x.state = 1 || x.state = 2 then fltDone s 1
  else if x.state = 4 then fltDone s 0
  else
    let s := logPlanned s u
    let s := if unitClass u = 2 then setPartState (partOff s (unitIx u) u (s.flt.head.toNat - 1) 7) (unitIx u) 7
      else
        let s := setUnitState s u 4
        if unitClass u = 3 then
          let s := settle (trapTile s (unitIx u) 0xB 0)
          s.setTile (unitIx u) { s.tile (unitIx u) with offline := true }
        else if unitClass u = 0xA then
          let l := s.link (unitIx u)
          if l.state = 0 || l.state = 5 then s else linkDownBy s (unitIx u) 0 fun s => s
        else if unitClass u = 0x10 then settle (windowDown s (unitIx u) 4)
        else s
    fltDone s 0
/-- OP RETURN: the counter clears, and the recovery of the class runs; a partition's ends with its return. -/
def fltReturn (s : State) (u : W32) : State :=
  let x := s.unit u
  let p := unitIx u
  let chanOff := unitClass u = 2 && ((List.range 4).any (fun i => (s.unit (unitOf 6 (4 * p + i))).state == 4)
    || (List.range 32).any fun n => (s.unit (unitOf 7 (32 * p + n))).state == 4)
  if x.state != 4 || chanOff || unitClass u = 1 then fltDone s 1
  else
    let s := logPlanned (s.setUnit u { x with count := 0, winOpen := false }) u
    if unitClass u = 2 then
      let s := { s with flt := { s.flt with busy := true } }
      let s := s.setPart p { s.part p with fltTime := s.time, fltUnit := u, confirmed := [], lossySkim := false, lossyCream := false }
      resetDomain s p
    else
      let s := setUnitState s u (if unitClass u = 4 || unitClass u = 5 then 2 else 3)
      let s := if unitClass u = 3 then s.setTile p { s.tile p with offline := false } else s
      fltDone (if unitClass u = 0xA then holdoffEnd s p else s) 0
/-- Does a test apply to a class (R444)? -/
def testFits (t : Nat) (u : W32) : Bool :=
  let c := unitClass u
  match t with
  | 1 => c == 3 || c == 2
  | 2 => c == 2
  | 3 => c == 2
  | 4 => c == 0xA
  | 5 => c == 0x14
  | 6 => c == 2
  | _ => false
/-- OP BIST: of an OFFLINE unit; memory tests only where no range maps the memory. -/
def fltBist (s : State) (u : W32) (test : Nat) : State :=
  let mapped := (test = 2 || test = 3) && s.xlt.dirA.any fun e => ppaPart e.2.ppa == unitIx u
  if (s.unit u).state != 4 || !testFits test u || mapped then fltDone s 1
  else { s with flt := { s.flt with busy := true, test := test, bistUnit := u } }
/-- A write of `FLT_CMD` while none runs: TEST is kept, and OP acts on `FLT_CMD_UNIT`. -/
def fltCmd (s : State) (v : Nat) : State :=
  if s.flt.busy then s
  else
    let s := { s with flt := { s.flt with test := field v 7 4 } }
    let op := v % 16
    let u := s.flt.cmdUnit
    if op = 0 || 4 < op then s
    else if !unitOk u then fltDone s 2
    else match op with
      | 1 => fltOffline s u
      | 2 => fltReturn s u
      | 3 => fltBist s u (field v 7 4)
      | _ => fltDone (s.setUnit u { s.unit u with count := 0, winOpen := false }) 0
def execFltOffline (value : W32) (s : State) : Host.Outcome State Fault Refusal := done (if value.toNat % 16 = 1 then onBar s 3 (fltCmd s value.toNat) else s)
def execFltReturn (value : W32) (s : State) : Host.Outcome State Fault Refusal := done (if value.toNat % 16 = 2 then onBar s 3 (fltCmd s value.toNat) else s)
def execFltBist (value : W32) (s : State) : Host.Outcome State Fault Refusal := done (if value.toNat % 16 = 3 then onBar s 3 (fltCmd s value.toNat) else s)
def execFltClearCount (value : W32) (s : State) : Host.Outcome State Fault Refusal := done (if value.toNat % 16 = 4 then onBar s 3 (fltCmd s value.toNat) else s)

/-- Installs a remap entry for a failing line (R445): the first entry of its channel that is free. -/
def bistRemap (s : State) (a : Nat) : State :=
  let co := coordOf s a
  let c := s.cnt co.cnt
  match (List.range 16).find? fun e => !((tabGet {} c.remaps e : Remap).valid || (tabGet {} c.remaps e : Remap).busy) with
  | none => s
  | some e =>
    let lo := co.col + 2 ^ 7 * co.bank + 2 ^ 12 * co.row + 2 ^ 31 * co.sub
    let r : Remap := { lo := BitVec.ofNat 32 lo, rank := co.rank, valid := true, busy := false, remove := false }
    keepRemaps (s.setCnt co.cnt { c with remaps := tabSet {} c.remaps e r }) co.cnt
/-- The failing lines of channel `d`. -/
def failsOf (s : State) (fails : List BistRec) (d : Nat) : Nat :=
  (fails.filter fun r => (r.kind == 5 || r.kind == 6) && (coordOf s r.addr.toNat).cnt == d).length
/-- What the failures found by a self-test change: remap entries for lines, and the channels that 16 entries cannot repair (R445). -/
def bistRepair (s : State) (fails : List BistRec) (p : Nat) : State :=
  let s := (fails.filter fun r => r.kind == 5 || r.kind == 6).foldl (fun s r => bistRemap s r.addr.toNat) s
  let units := (List.range 4).map (fun i => (4 * p + i, unitOf 6 (4 * p + i))) ++ (List.range 32).map fun n => (32 + 32 * p + n, unitOf 7 (32 * p + n))
  (units.filter fun e => decide (16 < failsOf s fails e.1)).foldl (fun s e => setUnitState s e.2 4) s
/-- The failures of a run, as `FLT_BIST_STATUS` and the records show them. -/
def bistNote (s : State) (fails : List BistRec) : State :=
  { s with flt := { s.flt with bistFails := min fails.length 65535, bistRecs := fails.take 256 } }
/-- The self-tests of the stage BIST end (R444, R453): lines are remapped; a tile, port or hash engine that fails is OFFLINE, and so is the
partition of a channel that cannot be repaired (log 36). -/
def bootBist (s : State) (fails : List BistRec) : State :=
  let s := allParts.foldl (fun s p => bistRepair s fails p) s
  let s := (fails.filter fun r => [3, 0xA, 0x13].contains (unitClass r.unit)).foldl (fun s r =>
    let s := setUnitState s r.unit 4
    if unitClass r.unit = 3 then s.setTile (unitIx r.unit) { s.tile (unitIx r.unit) with offline := true } else s) s
  let bad := allParts.filter fun p => s.flt.units.any fun e => let u := BitVec.ofNat 32 e.1
    (unitClass u == 6 || unitClass u == 7) && unitPart u == some p && e.2.state == 4
  bistNote (bad.foldl (fun s p => setPartState s p 7) s) fails
/-- BIST_COMPLETE. -/
def bistComplete (s : State) (fails : List BistRec) : State :=
  let u := s.flt.bistUnit
  let t := s.flt.test
  if s.boot.stage = 5 && !s.boot.inReset then bootBist s fails
  else if !s.flt.busy || (s.unit u).state != 4 then s
  else
    let s := if unitClass u = 2 then bistRepair s fails (unitIx u) else s
    let s := if unitClass u = 2 && (t = 2 || t = 3) then scrubPart s (unitIx u) else s
    let s := if t = 1 && unitClass u = 2 then clearTiles s (unitIx u) else if t = 1 then s.setTile (unitIx u) { offline := true } else s
    fltDone (bistNote s fails) (if fails = [] then 0 else 3)
def execBistComplete (fails : List BistRec) (s : State) : Host.Outcome State Fault Refusal := done (bistComplete s fails)

end Sys2Proof.Machine
end

