-- ==== Sys2Proof/Machine/Rings.lean ====
section
/-! DEFINITION. The command rings (R64, R74-R77, R129, R130), the timers of the command store (R43, R63, R119), the start and the
granules of operations (R67, R518), and the scheduling points (R141). -/
namespace Sys2Proof.Machine

/-! ## The registers of a ring (R74, R75) -/

/-- Are the registers of the rings within reach (R441, R507)? -/
def ringsUp (s : State) : Bool := barWrite s 0xA0
/-- A ring that fetches: enabled, not in a disable, not stopped: `CMD_RING_STATUS.ACTIVE`. -/
def Ring.active (r : Ring) : Bool := r.en && !r.disabling && !r.stopped

/-- A write of `CMD_RING_SQ_TAIL` (R64): one that adds slots is the moment at which their commands become visible. The indices that R75
protects are not those that the host moves in service (log 35). -/
def ringTail (s : State) (n v : Nat) : State :=
  let r := s.ring n
  let t := v % 65536
  s.setRing n { r with sqTail := t, bells := if r.en && !r.disabling && t % 2 ^ r.sqLog2 != r.sqTail % 2 ^ r.sqLog2 then r.bells ++ [(t, s.now)] else r.bells }
/-- A write of `CMD_RING_CFG` (R75). The sizes keep their values while EN reads 1; EN = 1 with a size out of range sets CFG_ERR. -/
def ringCfg (s : State) (n v : Nat) : State :=
  let r := s.ring n
  let out := v / 2 ^ 13 % 1024
  let sq := v / 2 % 32
  let rq := v / 2 ^ 6 % 32
  if r.en then
    let r := { r with outMax := out }
    if bitOf v 0 || r.disabling then s.setRing n r
    else cancelAll (s.setRing n { r with disabling := true }) fun c => c.chan == .ring n
  else
    let r := { r with outMax := out, sqLog2 := sq, rqLog2 := rq }
    if !bitOf v 0 then s.setRing n r
    else if 6 ≤ sq && sq ≤ 16 && 7 ≤ rq && rq ≤ 16 then
      s.setRing n { r with en := true, disabling := false, sqTail := 0, sqHead := 0, rqTail := 0, rqHead := 0, phase := true, full := false, bells := []
                           stopped := r.fetchErr || r.writeErr }
    else s.setRing n { r with cfgErr := true }
/-- A write of `CMD_RING_CTRL`: FLUSH, then STOP, else RESUME where no error bit is set (R74). -/
def ringCtrl (s : State) (n v : Nat) : State :=
  let go := bitOf v 1 && !(s.ring n).errs
  let s := if bitOf v 2 then cancelAll s fun c => c.chan == .ring n else s
  if bitOf v 0 then s.setRing n { s.ring n with stopped := true }
  else if go then s.setRing n { s.ring n with stopped := false } else s

def execDoorbell (n : Nat) (value : W32) (s : State) : Host.Outcome State Fault Refusal :=
  onInst (decide (n < 1024)) (if ringsUp s then ringTail s n value.toNat else s)
def execRingEnable (n : Nat) (cfg : W32) (s : State) : Host.Outcome State Fault Refusal :=
  onInst (decide (n < 1024)) (if ringsUp s then ringCfg s n (cfg ||| 1).toNat else s)
def execRingDisable (n : Nat) (cfg : W32) (s : State) : Host.Outcome State Fault Refusal :=
  onInst (decide (n < 1024)) (if ringsUp s then ringCfg s n (cfg &&& ~~~1).toNat else s)
def execRingFlush (n : Nat) (s : State) : Host.Outcome State Fault Refusal :=
  onInst (decide (n < 1024)) (if ringsUp s then ringCtrl s n 4 else s)
def execRingResume (n : Nat) (s : State) : Host.Outcome State Fault Refusal :=
  onInst (decide (n < 1024)) (if ringsUp s then ringCtrl s n 2 else s)
def execRingStop (n : Nat) (s : State) : Host.Outcome State Fault Refusal :=
  onInst (decide (n < 1024)) (if ringsUp s then ringCtrl s n 1 else s)
/-- RING_DISABLE_COMPLETE: EN reads 0 once the last reply is written. -/
def execRingDisableComplete (n : Nat) (s : State) : Host.Outcome State Fault Refusal :=
  onInst (decide (n < 1024)) (
    let r := s.ring n
    if r.en && r.disabling && outstanding s (.ring n) == 0 then s.setRing n { r with en := false, disabling := false } else s)

/-! ## Fetching (R76, R129, R130) -/

/-- Are there too few reply slots for one more command (R76)? -/
def rqShort (s : State) (n : Nat) : Bool := decide (rqFree (s.ring n) < 2 * (outstanding s (.ring n) + 1))
/-- May the ring fetch now (R76, R108 step 1, R411, R441)? -/
def mayFetch (s : State) (n : Nat) : Bool :=
  let r := s.ring n
  let size := 2 ^ r.sqLog2
  r.active && pcieUp s && serving s && s.mir.state != 5 && s.iso.tenant != 2 && r.sqHead % size != r.sqTail % size
    && decide (outstanding s (.ring n) < if r.outMax = 0 then 1024 else r.outMax) && !rqShort s n && ifaceRuns s n
/-- A submission read that fails: FETCH_ERR, and the ring stops. -/
def fetchFail (s : State) (n : Nat) : State := s.setRing n { s.ring n with fetchErr := true, stopped := true }
/-- The command at the head of the ring: under PATH 3 as its seal opens it. -/
def fetchBytes (s : State) (n : Nat) : Option W512 × State :=
  let r := s.ring n
  let i := r.sqHead % 2 ^ r.sqLog2
  let a := r.sqBase.toNat + 64 * i
  let h := r.ident
  match takeUnit s h 0 a (r.sqBase.toNat + 64 * 2 ^ r.sqLog2 + 32 * i) 64 (BitVec.ofNat 512 (n * 2 ^ 64)) with
  | (some bs, s1) => (some (BitVec.ofNat 512 (leNat bs)), s1)
  | (none, s1) => (none, s1)
/-- RING_FETCH: the next command, visible since its doorbell. -/
def ringFetch (s : State) (n : Nat) : State :=
  if !mayFetch s n then s
  else match fetchBytes s n with
    | (none, s) => fetchFail s n
    | (some raw, s) =>
      let r := s.ring n
      let head := (r.sqHead + 1) % 2 ^ r.sqLog2
      let vis := (r.bells.head?.map (·.2)).getD s.now
      let done_ := match r.bells.head? with
        | some (t, _) => t % 2 ^ r.sqLog2 == head
        | none => false
      let s := s.setRing n { r with sqHead := head, bells := if done_ then r.bells.drop 1 else r.bells }
      receiveCmd s { chan := .ring n, port := 14, txn := 0, raw := raw, data := [] } (some vis)
def execRingFetch (n : Nat) (s : State) : Host.Outcome State Fault Refusal := onInst (decide (n < 1024)) (ringFetch s n)

/-- The ring registers at their reset values, the host identities excepted (R74), and the rings' commands cancelled; no reply of theirs
can be written (R507). -/
def ringsReset (s : State) : State :=
  let one : Nat → Ring → Ring := fun _ r => { ident := r.ident }
  let s := { s with rings := tabMapD {} one s.rings }
  cancelNow s fun c => match c.chan with
    | .ring _ => true
    | .rank _ => false
def execFunctionLevelReset (s : State) : Host.Outcome State Fault Refusal := done (if pcieUp s then ringsReset s else s)

/-! ## Timers of the command store -/

/-- WAIT_LIMIT_EXPIRY (R43): only the active of a pair decides it (R399), and none falls due while SCH restarts (R464). -/
def execWaitLimitExpiry (k : Nat) (s : State) : Host.Outcome State Fault Refusal :=
  done (match s.cmd k with
    | none => s
    | some c =>
      if c.st == .held && waitLimit c.raw != 0 && !pairHeld s && !unitDown s (unitOf 5 2) && decide (c.accepted + us (100 * waitLimit c.raw) ≤ s.now)
      then settle (finish s k stWAIT_EXPIRED) else s)
/-- RETRY_TOKEN_EXPIRY (R63). -/
def execRetryTokenExpiry (token : W16) (s : State) : Host.Outcome State Fault Refusal :=
  done (
    let keep : Nat → ChanSt → ChanSt := fun _ x => { x with tokens := x.tokens.filter fun t => t.value != token || decide (s.now < t.expiry) }
    { s with store := { s.store with chans := tabMapD {} keep s.store.chans } })
/-- A refusal whose delay has run (R119, R121): logged, and answered; on an active once its token is acknowledged (R396). -/
def refusalDue (s : State) (k : Nat) : State :=
  match s.store.refusals[k]? with
  | none => s
  | some r =>
    if s.now < r.due then s
    else
      let s := { s with store := { s.store with refusals := s.store.refusals.eraseIdx k } }
      let s := appendLog s r.host r.cause r.access r.raw r.addr
      match r.key with
      | some j => settle (finish s j stACCESS r.prog 0 [] false .refusal)
      | none =>
        let x : LoggedReply := { seq := r.seq, chan := r.chan, raw := r.raw, txn := r.txn, prio := r.prio, clamped := r.clamped
                                 status := stACCESS, ord := r.ord }
        settle (if seqOk s r.seq then sendLogged s x .refusal else holdReply s x)
def execRefusalDelayExpiry (k : Nat) (s : State) : Host.Outcome State Fault Refusal := done (refusalDue s k)

/-! ## Operations (R67, R437, R471, R518) -/

/-- Does the command need the memory of a partition that is not online (R437)? -/
def needsOffline (s : State) (c : Cmd) : Bool := c.loads.any fun l => decide (l.1 < 16) && !s.online (l.1 % 8)
/-- Does nothing start, the part being in reset, tripped, in recovery or FAILED? -/
def halted (s : State) : Bool := s.boot.inReset || s.saf.tripped || s.flt.recovery || s.flt.failed
/-- Operations on library tiles, whose energy estimate must fit when they start (R471): the steps of R254 to R270. -/
def libStarts (op : Nat) : Bool := decide (0x0402 ≤ op) && decide (op ≤ 0x0404)
/-- OPERATION_START: a command that is ready, pre-empted or resuming; a contribution starts its step (R247). One that has not started waits for SCH and SEC (R427, R464), for the
pair (R407, R415) and, as a data operation, while starts are held for energy (R472). -/
def operationStart (s : State) (k : Nat) : State :=
  match s.cmd k with
  | none => s
  | some c =>
    let op := opcodeOf c.raw
    if halted s || !(c.st == .ready || c.st == .preempted || c.st == .resuming) || op = 0x0381 || (ownRows op && !c.started) then s
    else if !c.started && (heldOn s c || pairWaits s c || (s.pwr.hold && c.loads != [])) then s
    else match specOf op with
      | none => s
      | some sp =>
        let gran := c.started || (sp.total s c).isSome
        if gran && needsOffline s c then settle (finish s k stOFFLINE c.progress)
        else if op = 0x0311 then redStart s k c
        else if libStarts op && !c.started && !energyFits s (workEnergy s k c) then settle (finish (energyRefused s) k stENERGY)
        else if gran then (startOp s k c).getD s else sp.act s k
def execOperationStart (k : Nat) (s : State) : Host.Outcome State Fault Refusal := done (operationStart s k)

/-- GRANULE_COMPLETE: the next granule or unit of a running operation; a standby then applies the events that have come due. -/
def granuleComplete (s : State) (k : Nat) : State :=
  match s.cmd k with
  | none => s
  | some c =>
    let op := opcodeOf c.raw
    if halted s || !(c.st == .running || c.st == .stopping) || ownRows op || !granTurn s k c then s
    else match specOf op with
      | none => s
      | some sp => match sp.step with
        | none => s
        | some f => advance (afterUnit c (granPace c (f s k) k) k)
def execGranuleComplete (k : Nat) (s : State) : Host.Outcome State Fault Refusal := done (granuleComplete s k)

/-! ## Scheduling points (R141-R143, R340) -/

/-- Link rate left by the width: a half at 4 lanes, a quarter at 2 (R328). -/
def widthDiv (l : Link) : Nat := 2 ^ l.width
/-- The token bucket of a circuit, in thousandths of a byte, filled to now. -/
def cktFill (s : State) (p id : Nat) (e : CktE) : Nat :=
  let (t, at_) := tabGet (e.burst * 1024000, s.now) s.fab.cktTok (p * 1024 + id)
  min (e.burst * 1024000) (t + e.rate * (s.now - at_) / widthDiv (s.link p))
/-- The packets that wait for a port and can go: not held for a drain, and no packet of their credit type before them. -/
def portQueue (s : State) (p : Nat) : List Pkt :=
  let l := s.link p
  s.fab.outq.filter fun k => pktPort s k == some p && !k.held && !(l.waiting.any fun w => w.vc == pktType s k)
/-- The next packet of a port in the order of R141, each counted as 64 bytes; circuits are the reserved tier. -/
def selectPkt (s : State) (p : Nat) (x : Point) (q : List Pkt) : Option Pkt :=
  let ckt := fun (k : Pkt) => (pktCircuit s k).isSome && decide (k.tc < 6)
  let capped := fun (tc cap : Nat) => (q.find? fun k => k.tc == tc).filter fun _ => decide (64000 ≤ cap)
  let reserved := q.find? fun k => decide (k.tc < 6) && match pktCircuit s k with
    | some (id, e) => decide (1000 * (24 + k.body.length) ≤ cktFill s p id e)
    | none => false
  let free := q.filter fun k => decide (k.tc < 6) && !ckt k
  let heads := [0, 1, 2, 3, 4].filterMap fun tc => free.find? fun k => k.tc == tc
  let fair := heads.foldl (fun b k => match b with
    | none => some k
    | some (y : Pkt) => if k.f.toNat < y.f.toNat || (k.f == y.f && decide (y.tc < k.tc)) then some k else some y) (none : Option Pkt)
  [capped 7 x.cap7, capped 6 x.cap6, reserved, free.find? fun k => k.tc == 5, fair].findSome? id
/-- A port egress is free: it takes the next packet. -/
def portSelect (s : State) (p : Nat) : State :=
  let pt := 80 + p
  let x := (s.point pt).refill s.now (pointRate s pt) 0
  match selectPkt s p x (portQueue s p) with
  | none => s
  | some k =>
    let s := match pktCircuit s k with
      | some (id, e) => if 6 ≤ k.tc then s else
          { s with fab := { s.fab with cktTok := tabIns s.fab.cktTok (p * 1024 + id) (cktFill s p id e - 1000 * (24 + k.body.length), s.now) } }
      | none => s
    let fairTc := decide (k.tc < 5) && (pktCircuit s k).isNone
    let x := if k.tc = 7 then { x with cap7 := x.cap7 - 64000 } else if k.tc = 6 then { x with cap6 := x.cap6 - 64000 }
      else if fairTc then { x with vG := k.f } else x
    let rest := s.fab.outq.erase k
    let busy := rest.any fun q => pktPort s q == some p && decide (q.tc < 6) && (pktCircuit s q).isNone
    let x := if busy then x else { x with vG := 0, fG := [0, 0, 0, 0, 0, 0] }
    launch ({ s with fab := { s.fab with outq := rest } }.setPoint pt x) p k
/-- SCHED_SELECT: memory stops 0 to 79, ports 80 to 93, the PCIe egress 94, at which nothing queues (log 35). -/
def execSchedSelect (pt : Nat) (s : State) : Host.Outcome State Fault Refusal :=
  onInst (decide (pt ≤ 94)) (if pt < 80 then stopSelect s pt else if pt < 94 then portSelect s (pt - 80) else s)

end Sys2Proof.Machine
end

