-- ==== Sys2Proof/Machine/Boot.lean ====
section
/-! DEFINITION. Power-up, device reset and the boot stages (R449-R453, R499-R510), the PCIe reset (R507) and SAF's SMBus target (R508). What
the manual leaves open of them is in log 36. -/
namespace Sys2Proof.Machine

/-! ## Device reset (R111, R506) -/

/-- Every unit but SAF at its reset value, held there: what remains is what the part does not hold in a unit that resets (SAF, fuses, pins,
the flash record and images of R449, the contents of memory and of the host's) and the bookkeeping of the model. The remap entries go, and
training loads them from flash (log 45). -/
def resetUnits (s : State) : State :=
  let f := (fwInterrupt s).fw
  let cut := s.fw.state == 1 || s.fw.state == 2
  let r := State.reset
  { r with
    now := s.now, devStart := s.now, fuses := s.fuses, saf := s.saf, out := s.out, free := s.free, pending := s.pending
    pins := { s.pins with alive := false, intN := false }
    boot := { inReset := true, stageAt := s.now }
    iso := { r.iso with claims := s.iso.claims, keyGen := s.iso.keyGen, vfHost := s.iso.vfHost }
    rings := tabMapD {} (fun _ (x : Ring) => ({ ident := x.ident } : Ring)) s.rings
    mem := { bytes := s.mem.bytes, err := s.mem.err, host := s.mem.host, hostBad := s.mem.hostBad, parts := [], chq := [], cnts := []
             flash := s.mem.flash }
    fw := { r.fw with slotState := f.slotState, tries := f.tries, svn := f.svn, version := f.version, preferred := f.preferred, slotImg := f.slotImg
                      running := f.running, state := if cut then 4 else 0, error := if cut then 6 else 0 } }
/-- Device reset is asserted: `bit` 1 of the status byte ends with the stage it tells of. -/
def deviceReset (s : State) : State :=
  let s := resetUnits s
  { s with saf := { s.saf with statusByte := s.saf.statusByte &&& 0xFD } }
/-- May the release take effect: PWRGD high for 1 ms, and the clocks free (R506, R509)? -/
def releaseOk (s : State) : Bool := s.pins.pwrgd && decide (s.pins.pwrgdHighAt + ms 1 ≤ s.now) && !s.saf.tripped
/-- The effective release: device time and the boot stages begin. -/
def effectiveRelease (s : State) : State :=
  { s with devStart := s.now, boot := { s.boot with inReset := false, releasePend := false, stage := 0, stageAt := s.now } }
/-- RESET_N is high: it is released, or held by SAF until it may be. -/
def tryRelease (s : State) : State :=
  if !s.boot.inReset then s else if releaseOk s then effectiveRelease s else { s with boot := { s.boot with releasePend := true } }

/-- RESET_N_ASSERT: low for 1 µs, since `resetLowAt`. -/
def resetAssert (s : State) : State :=
  if !s.pins.vddSaf || !s.pins.resetN then s
  else
    let s := deviceReset s
    { s with pins := { s.pins with resetN := false, resetLowAt := s.now - us 1 }, saf := { s.saf with resetHeld := false } }
def execResetNAssert (s : State) : Host.Outcome State Fault Refusal := done (resetAssert s)
/-- RESET_N_RELEASE: the pin rises, or a release that SAF holds takes effect. -/
def resetRelease (s : State) : State :=
  if !s.pins.vddSaf then s
  else if !s.pins.resetN then
    tryRelease { s with pins := { s.pins with resetN := true }, saf := { s.saf with statusByte := s.saf.statusByte &&& 0xFE } }
  else if s.boot.releasePend then tryRelease s else s
def execResetNRelease (s : State) : Host.Outcome State Fault Refusal := done (resetRelease s)
/-- RESET_HELD (R508). -/
def execResetHeld (s : State) : Host.Outcome State Fault Refusal :=
  done (if s.pins.vddSaf && !s.pins.resetN && s.pins.pwrgd && decide (s.pins.resetLowAt + ms 1000 ≤ s.now)
    then { s with saf := { s.saf with resetHeld := true, statusByte := s.saf.statusByte ||| 1 } } else s)

/-! ## Power (R501, R502, R509) -/

/-- PWRGD_FALL: low for 1 µs. A RESET_N that is high releases the device when PWRGD is back. -/
def pwrgdFall (s : State) : State :=
  if !s.pins.vddSaf || !s.pins.pwrgd then s
  else
    let s := deviceReset s
    { s with pins := { s.pins with pwrgd := false, pwrgdLowAt := s.now - us 1 }, boot := { s.boot with releasePend := s.pins.resetN } }
def execPwrgdFall (s : State) : Host.Outcome State Fault Refusal := done (pwrgdFall s)
/-- PWRGD_RISE: after a low period of 100 ms it ends a thermal trip; the sensor stays recorded. -/
def pwrgdRise (s : State) : State :=
  if !s.pins.vddSaf || s.pins.pwrgd then s
  else
    let ends := s.saf.tripped && decide (s.pins.pwrgdLowAt + ms 100 ≤ s.now)
    { s with
      pins := { s.pins with pwrgd := true, pwrgdHighAt := s.now, thermtripN := s.pins.thermtripN || ends }
      saf := { s.saf with tripped := s.saf.tripped && !ends } }
def execPwrgdRise (s : State) : Host.Outcome State Fault Refusal := done (pwrgdRise s)

/-- Memory without power holds nothing; the remap tables are in flash (R449). -/
def memLost (s : State) : State := { s with mem := { s.mem with bytes := [], err := [] } }
/-- POWER_UP: VDD_SAF reaches range, SAF starts, and the other groups follow; RESET_N and PWRGD are low. -/
def powerUp (s : State) : State :=
  if s.pins.vddSaf then s
  else
    let s := resetUnits s
    { s with saf := {}, pins := { vddSaf := true, pwrgd := false, resetN := false, perstN := s.pins.perstN, resetLowAt := s.now, pwrgdLowAt := s.now } }
def execPowerUp (s : State) : Host.Outcome State Fault Refusal := done (powerUp s)
/-- VDD_SAF_LOSS: SAF and all that it holds are lost. -/
def vddSafLoss (s : State) : State :=
  if !s.pins.vddSaf then s
  else
    let s := memLost (resetUnits s)
    { s with saf := {}, pins := { vddSaf := false, pwrgd := false, resetN := false, perstN := s.pins.perstN } }
def execVddSafLoss (s : State) : Host.Outcome State Fault Refusal := done (vddSafLoss s)

/-! ## The PCIe reset and the SMBus target (R507, R508) -/

/-- PERST_N_ASSERT: the port is down, and its rings are reset. -/
def execPerstNAssert (s : State) : Host.Outcome State Fault Refusal :=
  done (
    let up := pcieUp s
    let s := { s with pins := { s.pins with perstN := false } }
    if up then ringsReset s else s)
/-- PERST_N_RELEASE: the port comes up. -/
def execPerstNRelease (s : State) : Host.Outcome State Fault Refusal := done { s with pins := { s.pins with perstN := true } }
/-- SMBUS_RECEIVE_BYTE returns the status byte. -/
def execSmbusReceiveByte (s : State) : Host.Outcome State Fault Refusal := done (if s.pins.vddSaf then s.send (.smbus s.saf.statusByte) else s)
/-- SMBUS_SEND_BYTE: 0xFF clears bits 2 and 3; another value does nothing. -/
def execSmbusSendByte (b : Byte) (s : State) : Host.Outcome State Fault Refusal :=
  done (if s.pins.vddSaf && b == 0xFF then { s with saf := { s.saf with statusByte := s.saf.statusByte &&& 0xF3 } } else s)

/-! ## Straps (R391, R504, R505) -/

/-- The three samples are there: latched where they agree; otherwise STRAP_UNSTABLE. -/
def strapsJudge (s : State) : State :=
  match s.boot.samples with
  | [a, b, c] =>
    if a = b && b = c then
      let role := field c.toNat 3 2
      { s with
        boot := { s.boot with strapsValid := true, skimDpc := bitOf c.toNat 4, pairRole := role, bootSel := c.toNat % 4 }
        saf := { s.saf with unstable := false }, mir := { s.mir with strapErr := role == 3 } }
    else
      { s with
        boot := { s.boot with stage := 9, stageAt := s.now }
        saf := { s.saf with unstable := true, sample0 := a, sample1 := b, sample2 := c, statusByte := s.saf.statusByte ||| 2 } }
  | _ => s
/-- STRAP_SAMPLE: at 0, 0.5 and 1.0 ms of the stage STRAPS. -/
def strapSample (s : State) (x : BitVec 5) : State :=
  let n := s.boot.samples.length
  if s.boot.inReset || s.boot.stage != 1 || 3 ≤ n || s.now < s.boot.stageAt + us (500 * n) then s
  else strapsJudge { s with boot := { s.boot with samples := s.boot.samples ++ [x] } }
def execStrapSample (x : BitVec 5) (s : State) : Host.Outcome State Fault Refusal := done (strapSample s x)

/-! ## The boot stages (R451-R453) -/

def bootTo (s : State) (st : Nat) : State := { s with boot := { s.boot with stage := st, stageAt := s.now } }
/-- BOOT_FAILED: the boot ROM serves the mailbox only. -/
def bootFail (s : State) (detail : Nat) : State :=
  let s := bootTo s 10
  { s with boot := { s.boot with detail := detail }, fw := { s.fw with romMode := true } }

/-- The normal policy of R452; `valid` is `image_valid`, `tries` the slots that are still tried. -/
def slotPolicy (valid : Nat → Bool) : Nat → Nat → Fw → Option Nat × Fw
  | 0, _, f => (none, f)
  | n + 1, x, f =>
    let st := f.slotState.getD x 0
    let bad := { f with slotState := f.slotState.set x 4 }
    if st = 2 then
      let t := f.tries.getD x 0
      if t = 0 then slotPolicy valid n (1 - x) bad
      else
        let f := { f with tries := f.tries.set x (t - 1) }
        if valid x then (some x, f) else slotPolicy valid n (1 - x) { f with slotState := f.slotState.set x 4 }
    else if st = 3 then (if valid x then (some x, f) else slotPolicy valid n (1 - x) bad)
    else slotPolicy valid n (1 - x) f
/-- The slot that BOOT_SEL and the slot states choose. -/
def slotChoose (s : State) (valid : Nat → Bool) : Option Nat × Fw :=
  match s.boot.bootSel with
  | 0 => slotPolicy valid 2 s.fw.preferred s.fw
  | 1 => (if valid 0 then some 0 else none, s.fw)
  | 2 => (if valid 1 then some 1 else none, s.fw)
  | _ => (none, s.fw)
/-- Cores start: their watchdogs count from now (R465). -/
def coresStart (s : State) (us_ : List W32) : State :=
  { s with flt := { s.flt with heartbeats := us_.foldl (fun t u => tabSet 0 t u.toNat s.now) s.flt.heartbeats } }
/-- BOOT_STAGE_COMPLETE: `valid` says of each slot whether its image passes R450. -/
def bootStage (s : State) (valid : List Bool) : State :=
  if s.boot.inReset || s.saf.tripped || s.flt.failed then s
  else match s.boot.stage with
    | 0 => bootTo { s with boot := { s.boot with samples := [] } } 1
    | 1 => if s.boot.strapsValid then bootTo s 2 else s
    | 2 =>
      let (slot, f) := slotChoose s fun x => valid.getD x false
      let s := { s with fw := f }
      match slot with
      | some x => coresStart (bootTo { s with boot := { s.boot with slot := x }, fw := { s.fw with running := x } } 3) [unitOf 5 0]
      | none => bootFail s (if s.boot.bootSel = 3 then 0 else 1)
    | 3 =>
      let s := coresStart s (unitOf 5 1 :: unitOf 5 2 :: (List.range 40).map (unitOf 4))
      bootTo (allParts.foldl trainStart s) 4
    | 4 =>
      if allParts.any fun p => (s.part p).state == 4 then s
      else (List.range 14).foldl detectStart (bootTo s 5)
    | 5 =>
      let s := bootTo (startScrub s) 6
      { s with fw := { s.fw with fwReady := true } }
    | _ => s
def execBootStageComplete (slotValid : List Bool) (s : State) : Host.Outcome State Fault Refusal := done (bootStage s slotValid)
/-- The bound of a stage in ns; none from WAIT_HELLO on. -/
def stageBound : Nat → Option Nat
  | 0 => some (ms 2)
  | 1 => some (ms 2)
  | 2 => some (ms 500)
  | 3 => some (ms 3000)
  | 4 => some (ms 2500)
  | 5 => some (ms 3000)
  | _ => none
/-- BOOT_STAGE_TIMEOUT. -/
def bootTimeout (s : State) : State :=
  match stageBound s.boot.stage with
  | some b => if !s.boot.inReset && decide (s.boot.stageAt + b < s.now) then bootFail s 2 else s
  | none => s
def execBootStageTimeout (s : State) : Host.Outcome State Fault Refusal := done (bootTimeout s)

end Sys2Proof.Machine
end

