-- ==== Sys2Proof/Machine/Views.lean ====
section
/-! DEFINITION. What every register of BAR0 reads as (R74, R105, R132, R152, R194, R252, R311, R344, R358, R390, R418, R432, R445, R446,
R477, R478, R486-R489, R492-R494): the layout of every register over the state. Nothing here changes the state. -/
namespace Sys2Proof.Machine

/-! ## Latched pairs (R488) -/

/-- The number of a pair in its function's latches: DEVICE_ID, CAP, TIME, SEQ, the 26 energy domains, and the sync objects. -/
def pairId : Nat := 0
def pairCap : Nat := 1
def pairTime : Nat := 2
def pairSeq : Nat := 3
def pairEnergy (d : Nat) : Nat := 16 + d
def pairSync (i : Nat) : Nat := 65536 + i
/-- The key of a function's latch. -/
def latchKey (fn pair : Nat) : Nat := fn * 2 ^ 20 + pair
/-- A `_HI` word: as the function latched it, or as it is now. -/
def hiWord (s : State) (fn pair x : Nat) : Nat := ((tabFind s.latches.hi (latchKey fn pair)).map (·.toNat)).getD (x / 2 ^ 32)
/-- The value of a latched pair. -/
def pairValue (s : State) (pair : Nat) : Nat :=
  if pair = 0 then s.fuses.deviceId.toNat
  else if pair = 1 then (capWord s.boot.capSel).toNat
  else if pair = 2 then s.time % 2 ^ 64
  else if pair = 3 then s.mir.seq % 2 ^ 64
  else if pair < 65536 then tabGet 0 s.pwr.energy (pair - 16)
  else (s.obj (pair - 65536)).count.toNat

/-! ## The windows -/

/-- Bit `i` of a list of truths. -/
def bitsOf (n : Nat) (f : Nat → Bool) : Nat := (List.range n).foldl (fun x i => x + flag (f i) i) 0
/-- A word of a table of words. -/
def wordAt (f : Nat → Byte) (o : Nat) : Nat := leNat [f o, f (o + 1), f (o + 2), f (o + 3)]

/-- `GLB_BOOT_STATUS` (R493). -/
def bootStatus (s : State) : Nat :=
  let b := s.boot
  b.stage + 2 ^ 4 * b.detail + 2 ^ 8 * b.slot + 2 ^ 10 * b.bootSel + 2 ^ 12 * b.pairRole + flag b.skimDpc 14 + flag b.strapsValid 15
    + 2 ^ 24 * bitsOf 8 s.online
/-- GLB_ (R493). `GLB_CAP_LO` and `_HI` show the selected word from reset on, word 0 at first, where the table gives Reset 0 (log 48). -/
def glbRead (s : State) (fn o : Nat) : Nat :=
  match o with
  | 0x00 => 0xA0 + flag s.fuses.extended 8 + flag s.fuses.hb 12 + 2 ^ 16 * 0x0410
  | 0x04 => 1
  | 0x08 => s.fuses.deviceId.toNat
  | 0x0C => hiWord s fn pairId (pairValue s pairId)
  | 0x10 => s.boot.capSel
  | 0x14 => (capWord s.boot.capSel).toNat
  | 0x18 => hiWord s fn pairCap (pairValue s pairCap)
  | 0x20 => bootStatus s
  | 0x24 => s.time
  | 0x28 => hiWord s fn pairTime (pairValue s pairTime)
  | _ => 0
def intRead (s : State) (o : Nat) : Nat :=
  match o with
  | 0x00 => intSummary s
  | 0x04 => s.intr.mask.toNat
  | 0x08 => flag s.intr.msixEn 31 + 2 ^ 21 * s.intr.vec
  | 0x10 => s.intr.fault.toNat + flag s.flt.failed 15
  | 0x14 => ringSum s
  | 0x18 => s.intr.cohDown.toNat % 2 ^ 32
  | 0x1C => s.intr.cohDown.toNat / 2 ^ 32
  | 0x20 => s.intr.link.toNat
  | 0x24 => s.intr.pair.toNat
  | 0x28 => s.intr.pwr.toNat
  | 0x2C => grpMem s
  | 0x30 => s.intr.tenant.toNat
  | 0x34 => grpOvf s
  | _ => 0
def safRead (s : State) (o : Nat) : Nat :=
  match o with
  | 0x00 => s.saf.chAgree.toNat + flag s.saf.resetHeld 8 + flag s.saf.tripped 9
  | 0x04 => s.saf.sample0.toNat + 2 ^ 8 * s.saf.sample1.toNat + 2 ^ 16 * s.saf.sample2.toNat + flag s.saf.unstable 24
  | _ => 0

/-- A record of the fault log (R432). -/
def fltBytes (r : FltRec) : List Byte :=
  leBytes 8 r.time ++ leBytes 4 r.unit.toNat ++ leBytes 2 r.cause.toNat ++ leBytes 1 r.kind ++ leBytes 1 r.flags ++ leBytes 8 r.info.toNat
    ++ leBytes 4 r.seq ++ leBytes 2 r.count ++ leBytes 2 0
/-- A BIST record (R445). -/
def bistBytes (r : BistRec) : List Byte :=
  leBytes 4 r.unit.toNat ++ leBytes 1 r.test ++ leBytes 1 r.kind ++ leBytes 1 r.bit ++ leBytes 1 r.column ++ leBytes 8 r.addr.toNat
/-- `FLT_STATUS` (R446). -/
def fltStatus (s : State) : Nat :=
  let n := fun (f : UnitSt → Bool) => min 255 (s.flt.units.filter fun e => f e.2).length
  flag s.pins.alive 0 + flag (aliveHeld s) 1 + flag s.flt.degraded 2 + flag s.flt.recovery 3 + flag s.flt.failed 4
    + 2 ^ 8 * n (fun u => u.state == 4) + 2 ^ 16 * n (fun u => u.state == 1 || u.state == 2 || u.state == 3)
def dumpStatus (s : State) : Nat :=
  flag s.flt.dumpValid 0 + flag s.flt.dumpTrunc 2 + flag s.flt.dumpInc 3 + 2 ^ 4 * s.flt.dumpPart + 2 ^ 16 * s.flt.skipped
def partState (s : State) (p : Nat) : Nat :=
  let x := s.part p
  x.state + flag x.lossySkim 8 + flag x.lossyCream 9 + 2 ^ 16 * (s.unit (unitOf 2 p)).count
/-- FLT_ (R446). `FLT_UNIT_STATE` of the unit 0 that is selected at reset, which is no unit, reads 7 where the table gives Reset 0 (log 48). -/
def fltRead (s : State) (o : Nat) : Nat :=
  let f := s.flt
  if 0x1000 ≤ o && o < 0x9000 then
    match tabFind f.log ((o - 0x1000) / 32) with
    | some r => leAt (fltBytes r) ((o - 0x1000) % 32) 4
    | none => 0
  else if 0x9000 ≤ o && o < 0xA000 then
    match f.bistRecs[(o - 0x9000) / 16]? with
    | some r => leAt (bistBytes r) ((o - 0x9000) % 16) 4
    | none => 0
  else if 0x40 ≤ o && o < 0x60 then partState s ((o - 0x40) / 4)
  else match o with
    | 0x00 => fltStatus s
    | 0x04 => f.quietMs + 2 ^ 11 * f.shadowLog2 + 2 ^ 16 * f.recovWinMin + 2 ^ 24 * f.recovLimit
    | 0x08 => f.escalateMs
    | 0x0C => 2 ^ 4 * f.test + 2 ^ 28 * (if f.busy then 0 else f.result) + flag f.busy 31
    | 0x10 => f.cmdUnit.toNat
    | 0x14 => f.unitSel.toNat
    | 0x18 => if unitOk f.unitSel then (s.unit f.unitSel).state + 2 ^ 16 * (s.unit f.unitSel).count else 7
    | 0x1C => f.head.toNat
    | 0x20 => f.faults
    | 0x24 => f.corrected
    | 0x28 => f.ceUnlogged
    | 0x2C => f.ovf.toNat
    | 0x30 => f.dumpAddr.toNat % 2 ^ 32
    | 0x34 => f.dumpAddr.toNat / 2 ^ 32
    | 0x38 => f.dumpCfg.toNat
    | 0x3C => dumpStatus s
    | 0x60 => 2 ^ 7 * f.bistRecs.length + 2 ^ 16 * f.bistFails
    | _ => 0
def mbxRead (s : State) (o : Nat) : Nat :=
  let f := s.fw
  if 0x1000 ≤ o && o < 0x2000 then wordAt (memByte f.h2fData) (o - 0x1000)
  else if 0x2000 ≤ o && o < 0x3000 then wordAt (memByte f.f2hData) (o - 0x2000)
  else match o with
    | 0x00 => f.h2fLen + flag f.h2fGo 31
    | 0x04 => f.f2hLen + flag f.f2hValid 31
    | 0x08 => flag f.fwReady 0 + flag f.romMode 1 + flag f.standby 2 + 2 ^ 8 * f.hostVer.toNat
    | 0x0C => f.mbxErrors
    | _ => 0
/-- PWR_ and THM_ (R478); energies by domain: 3p + d of a partition, 24 and 25 of the device. -/
def pwrRead (s : State) (fn o : Nat) : Nat :=
  let w := s.pwr
  let energy := fun (d hi : Nat) => if hi = 0 then pairValue s (pairEnergy d) else hiWord s fn (pairEnergy d) (pairValue s (pairEnergy d))
  if 0x20 ≤ o && o < 0x34 then (List.range 8).foldl (fun x j => x + 2 ^ (4 * j) * cluLevel s (8 * ((o - 0x20) / 4) + j)) 0
  else if 0x100 ≤ o && o < 0x200 then
    if (o - 0x100) % 32 < 24 then energy (3 * ((o - 0x100) / 32) + (o - 0x100) % 32 / 8) (o / 4 % 2) else 0
  else if 0x200 ≤ o && o < 0x210 then energy (24 + (o - 0x200) / 8) (o / 4 % 2)
  else if 0x810 ≤ o && o < 0x844 then (w.temps.getD ((o - 0x810) / 4) 0).toNat
  else match o with
    | 0x00 => w.pEff % 1024 + 2 ^ 10 * (w.eB % 16384)
    | 0x04 => min 2047 w.draw + 2 ^ 16 * min 2047 w.planned
    | 0x08 => w.window
    | 0x0C => w.refused
    | 0x10 => w.overs
    | 0x14 => w.ovf.toNat
    | 0x800 => (List.range 5).foldl (fun x k => x + 2 ^ (2 * k) * w.throttle.getD k 0) 0
    | 0x804 => flag s.saf.tripped 0 + 2 * s.saf.tripSensor
    | _ => 0

/-- The status of a channel or of a stack (R390). -/
def blkStatus (s : State) (stack : Bool) (i : Nat) : Nat :=
  let b := s.blk stack i
  let qs := if stack then (List.range 32).map fun n => 64 + 32 * i + n else [2 * i, 2 * i + 1]
  let post := (qs.flatMap fun q => (s.chq q).postponed.map (·.2)).foldl max 0
  let panic := qs.any fun q => (List.range 3).any (rtPanic s (s.chq q) b.panicEn)
  let low := b.state + flag b.late 6 + flag panic 7 + 2 ^ 8 * post + 2 ^ 24 * b.cause
  if stack then low + 2 ^ 12 * (if b.rows = 0 then 0 else Nat.log2 (2 * b.rows - 1)) + 2 ^ 18 * b.ranks
  else low + 2 ^ 12 * b.ranks + 2 ^ 16 * b.rate + 2 ^ 20 * (if s.boot.skimDpc then 2 else 1) + flag b.mrdimm 22 + flag b.x8 23
/-- The registers of a channel or stack block that are not counters. -/
def blkRead (s : State) (stack : Bool) (i r : Nat) : Nat :=
  let b := s.blk stack i
  match r with
  | 0x000 => blkStatus s stack i
  | 0x004 => b.idleCyc + 2 ^ 8 * b.panicEn.toNat + flag b.wbOnCe 16
  | 0x008 => b.hours + flag b.scrubEn 8 + 2 ^ 16 * scrubPasses s stack i
  | 0x01C => b.injCol + flag b.injTwo 4 + 2 ^ 8 * b.injMask.toNat + 2 ^ 16 * b.injTgt
  | 0x200 => b.trnCtrl.toNat + flag b.trnDone 30
  | 0x204 => b.trnPat.toNat
  | 0x208 => b.trnDelay.toNat
  | 0x20C => b.trnLo.toNat
  | 0x210 => b.trnHi.toNat
  | _ => 0
/-- The counters, logs and remap entries of a channel or pseudo-channel, which has `cols` columns. -/
def cntRead (s : State) (k cols r : Nat) : Nat :=
  let c := s.cnt k
  if 0x40 ≤ r && r < 0x40 + 4 * cols then tabGet 0 c.ceCol ((r - 0x40) / 4)
  else if 0x100 ≤ r && r < 0x180 then
    let e : Remap := tabGet {} c.remaps ((r - 0x100) / 8)
    if r / 4 % 2 = 0 then e.lo.toNat else e.rank + flag e.busy 30 + flag e.valid 31
  else match r with
    | 0x00C => c.scrubPos
    | 0x010 => c.ce
    | 0x014 => c.ue
    | 0x018 => c.ovf.toNat
    | 0x020 => c.ueLog.toNat % 2 ^ 32
    | 0x024 => c.ueLog.toNat / 2 ^ 32 % 2 ^ 14 + flag c.ueValid 14
    | _ => 0
/-- CLU_ (R194). -/
def cluRead (s : State) (c r : Nat) : Nat :=
  let x := s.clu c
  let off := fun (t : Nat) => (s.tile t).offline
  if 0x20 ≤ r && r < 0x40 then bitsOf 32 fun b => off (256 * c + 8 * (r - 0x20) + b)
  else match r with
    | 0x00 =>
      let mine := s.churn.tiles.filter fun e => e.1 / 256 == c
      (mine.filter fun e => e.2.run.isSome).length + 2 ^ 9 * (mine.filter fun e => e.2.offline).length
        + flag (decide (4 ≤ s.boot.stage) && decide (s.boot.stage ≤ 8) && s.online (c / 5) && !unitDown s (unitOf 4 c)) 24
    | 0x04 => x.runs
    | 0x08 => x.traps
    | 0x0C => x.ceIm + 2 ^ 16 * x.ceScr
    | 0x10 => x.macs
    | 0x14 => x.ovf.toNat
    | _ => 0
/-- The window of partition `p`. -/
def partRead (s : State) (p o : Nat) : Nat :=
  if o < 0x40000 then
    let d := 4 * p + o / 0x10000
    let r := o % 0x10000
    if [0x00, 0x04, 0x08, 0x1C].contains r || 0x200 ≤ r then blkRead s false d r else cntRead s d 20 r
  else if o < 0x80000 then
    let x := s.part p
    match o with
    | 0x40000 => flag x.park 0 + flag x.refused 1
    | 0x40004 => keepBits s p % 2 ^ 32
    | 0x40008 => keepBits s p / 2 ^ 32
    | _ => 0
  else if o < 0xC0000 then
    let r := o - 0x80000
    if r < 0x1000 then blkRead s true p r
    else if r < 0x5000 then cntRead s (32 + 32 * p + (r - 0x1000) / 0x200) 10 ((r - 0x1000) % 0x200)
    else 0
  else if o < 0xC5000 then cluRead s (5 * p + (o - 0xC0000) / 0x1000) (o % 0x1000)
  else 0

/-- RFL_ (R344). -/
def rflRead (s : State) (o : Nat) : Nat :=
  let p := o / 0x10000
  let r := o % 0x10000
  let l := s.link p
  if p = 15 then match r with
    | 0 => s.fab.selfRank
    | 4 => s.fab.routeEpoch.toNat
    | 8 => s.fab.drainUs + 2 ^ 14 * s.fab.rrdToUs
    | _ => 0
  else if p = 14 then 0
  else if 0x40 ≤ r && r < 0x58 then l.alloc.getD ((r - 0x40) / 4) 0
  else if 0x60 ≤ r && r < 0x78 then l.credits.getD ((r - 0x60) / 4) 0
  else match r with
    | 0x00 => l.state + flag l.rerouted 8 + flag l.leader 9 + 2 ^ 10 * l.width + 2 ^ 12 * l.spareFor + 2 ^ 18 * l.initErr
    | 0x04 => l.replayTimer + 2 ^ 14 * l.creditToUs + 2 ^ 28 * l.replayLimit
    | 0x0C => l.replays
    | 0x10 => l.retrains
    | 0x14 => l.crcErr
    | 0x18 => l.downEv
    | 0x1C => l.discards
    | 0x20 => l.laneEv
    | 0x24 => l.ovf.toNat
    | 0x28 => l.partner.toNat % 2 ^ 32
    | 0x2C => l.partner.toNat / 2 ^ 32
    | _ => 0
/-- A lane's registers. -/
def laneRead (l : Lane) (r : Nat) : Nat :=
  match r with
  | 0x00 => flag l.signal 0 + flag l.locked 1 + flag l.failed 2 + 2 ^ 4 * l.logical + 2 ^ 8 * l.cause
  | 0x04 => l.ce
  | 0x08 => l.pat + flag l.gen 3 + flag l.chk 4 + flag l.chkLock 5
  | 0x0C => l.prbsErr
  | 0x10 => leNat (l.taps.map (BitVec.ofNat 8))
  | _ => 0
/-- LNE_ (R358). -/
def lneRead (s : State) (o : Nat) : Nat :=
  let p := o / 0x1000
  let r := o % 0x1000
  let x := s.lanePort p
  if 14 ≤ p then 0
  else if 0x100 ≤ r && r < 0x220 then laneRead (s.lane p ((r - 0x100) / 32)) ((r - 0x100) % 32)
  else match r with
    | 0x00 => x.maxRung + flag x.feAllow 2 + 2 ^ 8 * x.serLog2 + 2 ^ 16 * x.eqMs + 2 ^ 24 * x.chkLog2
    | 0x04 => x.tstate + 2 ^ 4 * x.rung + 2 ^ 8 * x.failCause + 2 ^ 12 * x.lanesOk.toNat + 2 ^ 22 * x.lbState
    | 0x08 => x.lbMode + 2 ^ 2 * x.lbRung
    | 0x0C => x.quadIns
    | 0x10 => x.quadDel
    | 0x14 => x.markErr
    | 0x18 => x.trainUs
    | 0x1C => x.ovf.toNat
    | _ => 0
def xltRead (s : State) (o : Nat) : Nat :=
  let p := (o - 0x100) / 16
  let c : RcCnt := tabGet {} s.xlt.counts p
  if 0x100 ≤ o && o < 0x180 then match o % 16 with
    | 0 => c.hit
    | 4 => c.miss
    | 8 => pinnedOf (tabGet [] s.xlt.caches p) + flag c.hitOvf 16 + flag c.missOvf 17
    | _ => 0
  else match o with
    | 0x00 => s.xlt.escalateMs
    | 0x04 => s.xlt.epoch.toNat
    | 0x08 => s.xlt.faults
    | 0x0C => s.xlt.escalated
    | _ => 0
def isoRead (s : State) (o : Nat) : Nat :=
  match o with
  | 0x00 => s.iso.tenant
  | 0x04 => s.iso.epoch.toNat
  | 0x08 => isoScrub s
  | 0x0C => s.iso.streams.length + flag s.iso.linkIde 5
  | _ => 0
def qosRead (s : State) (o : Nat) : Nat :=
  let q := s.qos
  let live : Nat × Nat := tabGet (0, 0) q.live q.sel
  if 0x40 ≤ o && o < 0x80 then q.snapDepth.getD ((o - 0x40) / 4) 0
  else if 0x80 ≤ o && o < 0xC0 then q.snapDelay.getD ((o - 0x80) / 4) 0
  else match o with
    | 0x00 => flag q.histEn 0
    | 0x04 => q.sel
    | 0x08 => flag q.snapValid 0 + flag ((q.snapDepth ++ q.snapDelay).any fun b => b == 2 ^ 32 - 1) 1
    | 0x0C => min 65535 live.1 + 2 ^ 16 * min 65535 (live.2 / 32)
    | 0x10 => leNat ((q.weights.take 4).map (BitVec.ofNat 8))
    | 0x14 => q.weights.getD 4 0
    | 0x18 => q.samples
    | 0x1C => q.red
    | 0x20 => q.withdrawn
    | _ => 0
def synRead (s : State) (fn o : Nat) : Nat :=
  if o < 0x40000 then
    let i := o / 16
    let x := s.obj i
    match o % 16 with
    | 0 => x.count.toNat
    | 4 => hiWord s fn (pairSync i) x.count.toNat
    | 8 => x.thr.toNat
    | 12 => synCtrl x
    | _ => 0
  else match o with
    | 0x40000 => s.sync.errEvents
    | 0x40004 => flag s.sync.errOvf 0
    | _ => 0
def cohRead (s : State) (o : Nat) : Nat :=
  if o < 0x400 then
    let x := s.win (o / 16)
    match o % 16 with
    | 0 => x.state + 2 ^ 4 * x.cause + 2 ^ 8 * (x.tokens.filter fun t => decide (s.now < t.expiry)).length + flag x.ovf 19
    | 4 => x.reqs
    | 8 => x.retries
    | 12 => x.snoops
    | _ => 0
  else if o = 0x400 then s.coh.downEvents else 0
def mirRead (s : State) (fn o : Nat) : Nat :=
  let m := s.mir
  match o with
  | 0x00 =>
    m.state + flag m.inStep 3 + 2 ^ 7 * s.boot.pairRole + flag m.strapErr 9 + flag m.broken 10
      + flag (m.edgeAt.any fun t => decide (s.now ≤ t + us m.peerSilentUs)) 11 + 2 ^ 12 * ([12, 13].filter fun p => (s.link p).state == 3).length + 2 ^ 16 * m.cause
  | 0x04 => flag m.autoRejoin 0 + flag m.restore 1 + 2 ^ 8 * m.divLimit + 2 ^ 16 * m.lagMs
  | 0x08 => m.mirSilentUs + 2 ^ 16 * m.peerSilentUs
  | 0x0C => m.seq
  | 0x10 => hiWord s fn pairSeq (pairValue s pairSeq)
  | 0x14 => m.tokens.length
  | 0x18 => m.disputed.length
  | 0x1C => m.diverg
  | 0x20 => m.failovers
  | 0x24 => m.orphans
  | 0x28 => m.ovf.toNat
  | _ => 0
/-- A ring's registers (R74). -/
def ringRead (s : State) (n r : Nat) : Nat :=
  let x := s.ring n
  match r with
  | 0x00 => x.sqBase.toNat % 2 ^ 32
  | 0x04 => x.sqBase.toNat / 2 ^ 32
  | 0x08 => x.rqBase.toNat % 2 ^ 32
  | 0x0C => x.rqBase.toNat / 2 ^ 32
  | 0x10 => flag x.en 0 + 2 * x.sqLog2 + 2 ^ 6 * x.rqLog2 + 2 ^ 11 * x.prioMax + 2 ^ 13 * x.outMax
  | 0x14 => x.sqTail
  | 0x18 => x.sqHead
  | 0x1C => x.rqTail + flag x.phase 16
  | 0x20 => x.rqHead
  | 0x24 => flag x.active 0 + flag x.cfgErr 1 + flag x.fetchErr 2 + flag x.writeErr 3 + flag x.stopped 4 + flag (x.active && rqShort s n) 5
  | 0x2C => x.ident
  | 0x30 => x.vec + flag x.vecEn 31
  | _ => 0

/-! ## Reads of a function (R487-R489) -/

/-- What a register of an open window reads as in the physical function. -/
def windowRead (s : State) (fn a : Nat) : Nat :=
  let w := a / 2 ^ 20
  let o := a % 2 ^ 20
  if 0x10 ≤ w && w < 0x18 then partRead s (w - 0x10) o
  else match w with
    | 0x00 => glbRead s fn o
    | 0x01 => intRead s o
    | 0x02 => safRead s o
    | 0x03 => fltRead s o
    | 0x04 => mbxRead s o
    | 0x05 => pwrRead s fn o
    | 0x20 => rflRead s o
    | 0x30 => lneRead s o
    | 0x40 => xltRead s o
    | 0x50 => isoRead s o
    | 0x60 => qosRead s o
    | 0x70 => synRead s fn o
    | 0x80 => cohRead s o
    | 0x90 => mirRead s fn o
    | 0xA0 => if o < 0x10000 then ringRead s (o / 64) (o % 64) else 0
    | _ => 0
/-- Is the register within the reach of the function: all for the physical function; for a virtual function the GLB_ window and the
blocks of its own rings? -/
def inReach (s : State) (fn a : Nat) : Bool :=
  fn == 0 || decide (a / 2 ^ 20 = 0) || (decide (a / 2 ^ 16 = 0xA00) && ringFn s (a % 2 ^ 16 / 64) == fn)
/-- What a function reads at an offset of BAR0. -/
def regRead (s : State) (fn a : Nat) : W32 :=
  if !barOpen s (a / 2 ^ 20) then 0xFFFFFFFF
  else if inReach s fn a then BitVec.ofNat 32 (windowRead s fn a) else 0

end Sys2Proof.Machine
end

