-- ==== Sys2Proof/Machine/Regs.lean ====
section
/-! DEFINITION. Software writes of the registers under their access codes (R9-R11, R487-R492), and the reads that change something: the
low words of latched pairs (R488) and the RC field (R11). What a write does beyond its field is the operation of the chapter that
defines it. -/
namespace Sys2Proof.Machine

/-! ## Writes of fields -/

/-- A field written outside its interval keeps its value. -/
def inIv (lo hi old v : Nat) : Nat := if lo ≤ v && v ≤ hi then v else old
/-- W1C: the bits written as 1 are cleared. -/
def w1c {w : Nat} (x : BitVec w) (v : Nat) : BitVec w := x &&& ~~~ BitVec.ofNat w v
/-- W1C of a single bit. -/
def w1cBit (b : Bool) (v i : Nat) : Bool := b && !bitOf v i
/-- The low or the high word of a 64-bit field. -/
def setLoW (x : W64) (v : Nat) : W64 := BitVec.ofNat 64 (x.toNat / 2 ^ 32 * 2 ^ 32 + v % 2 ^ 32)
def setHiW (x : W64) (v : Nat) : W64 := BitVec.ofNat 64 (x.toNat % 2 ^ 32 + v % 2 ^ 32 * 2 ^ 32)
/-- Replaces element `i` of a list. -/
def setN (l : List Nat) (i v : Nat) : List Nat := l.set i v

/-! ## The windows -/

def glbWrite (s : State) (o v : Nat) : State :=
  if o = 0x10 then { s with boot := { s.boot with capSel := v % 65536 } } else s
/-- `INT_CFG`: REARM sends one message if the masked summary is not 0 at the write (R483). -/
def intCfg (s : State) (v : Nat) : State :=
  let s := { s with intr := { s.intr with msixEn := bitOf v 31, vec := field v 30 21 } }
  if bitOf v 0 && s.intr.msixEn && intMasked s then s.send (.msix 0 s.intr.vec) else s
def intWrite (s : State) (o v : Nat) : State :=
  let i := s.intr
  match o with
  | 0x04 => { s with intr := { i with mask := BitVec.ofNat 32 (v % 2048) } }
  | 0x08 => intCfg s v
  | 0x10 => { s with intr := { i with fault := w1c i.fault v } }
  | 0x18 => { s with intr := { i with cohDown := w1c i.cohDown v } }
  | 0x1C => { s with intr := { i with cohDown := w1c i.cohDown (v * 2 ^ 32) } }
  | 0x20 => { s with intr := { i with link := w1c i.link v } }
  | 0x24 => { s with intr := { i with pair := w1c i.pair v } }
  | 0x28 => { s with intr := { i with pwr := w1c i.pwr v } }
  | 0x30 => { s with intr := { i with tenant := w1c i.tenant v } }
  | _ => s
def fltWrite (s : State) (o v : Nat) : State :=
  let f := s.flt
  match o with
  | 0x04 => { s with flt := { f with
      recovLimit := inIv 1 255 f.recovLimit (field v 31 24), recovWinMin := inIv 1 255 f.recovWinMin (field v 23 16)
      shadowLog2 := inIv 8 16 f.shadowLog2 (field v 15 11), quietMs := inIv 10 2000 f.quietMs (field v 10 0) } }
  | 0x08 => { s with flt := { f with escalateMs := inIv 5 1000 f.escalateMs (field v 9 0) } }
  | 0x0C => fltCmd s v
  | 0x10 => { s with flt := { f with cmdUnit := BitVec.ofNat 32 v } }
  | 0x14 => { s with flt := { f with unitSel := BitVec.ofNat 32 v } }
  | 0x20 => { s with flt := { f with faults := v } }
  | 0x24 => { s with flt := { f with corrected := v } }
  | 0x28 => { s with flt := { f with ceUnlogged := v } }
  | 0x2C => { s with flt := { f with ovf := w1c f.ovf v } }
  | 0x30 => { s with flt := { f with dumpAddr := setLoW f.dumpAddr (v / 64 * 64) } }
  | 0x34 => { s with flt := { f with dumpAddr := setHiW f.dumpAddr v } }
  | 0x38 => { s with flt := { f with dumpCfg := BitVec.ofNat 32 v &&& 0xC0FFFFFF } }
  | 0x3C => { s with flt := { f with dumpValid := w1cBit f.dumpValid v 0 } }
  | _ => s
/-- `MBX_H2F_CTRL` (R461): a GO while GO is 1 is ignored and counted. -/
def h2fCtrl (s : State) (v : Nat) : State :=
  let s1 := { s with fw := { s.fw with h2fLen := v % 2 ^ 13, h2fGo := s.fw.h2fGo || bitOf v 31 } }
  if bitOf v 31 && s.fw.h2fGo then mbxError s1 else s1
def mbxWrite (s : State) (o v : Nat) : State :=
  if 0x1000 ≤ o && o < 0x2000 then { s with fw := { s.fw with h2fData := memPutL s.fw.h2fData (o - 0x1000) (leBytes 4 v) } }
  else match o with
    | 0x00 => h2fCtrl s v
    | 0x04 => mbxClear s v
    | 0x0C => { s with fw := { s.fw with mbxErrors := v } }
    | _ => s
def pwrWrite (s : State) (o v : Nat) : State :=
  match o with
  | 0x0C => { s with pwr := { s.pwr with refused := v } }
  | 0x10 => { s with pwr := { s.pwr with overs := v } }
  | 0x14 => { s with pwr := { s.pwr with ovf := w1c s.pwr.ovf v } }
  | _ => s

/-- A channel or stack block (R390). -/
def blkWrite (s : State) (stack : Bool) (i r v : Nat) : State :=
  let b := s.blk stack i
  match r with
  | 0x000 => s.setBlk stack i { b with late := w1cBit b.late v 6 }
  | 0x004 => s.setBlk stack i { b with idleCyc := v % 256, panicEn := BitVec.ofNat 3 (field v 10 8), wbOnCe := bitOf v 16 }
  | 0x008 => s.setBlk stack i { b with scrubEn := bitOf v 8, hours := if v % 256 = 0 then b.hours else v % 256 }
  | 0x01C => injectWrite s stack i (BitVec.ofNat 32 v)
  | 0x200 => trnCtrlWrite s stack i (BitVec.ofNat 32 v)
  | 0x204 => if b.state = 1 then s.setBlk stack i { b with trnPat := BitVec.ofNat 32 v } else s
  | 0x208 => if b.state = 1 then s.setBlk stack i { b with trnDelay := BitVec.ofNat 32 v &&& 0x3F03FFFF } else s
  | _ => s
/-- `DMC_REMAP_LO` (R376): ignored while the entry copies or is active. -/
def remapLo (s : State) (u : MemUnit) (e v : Nat) : State :=
  let r := s.remap u e
  let v := if muStack u then v % 2 ^ 31 / 2 ^ 12 * 2 ^ 12 + field v 10 7 * 2 ^ 7 + v % 16 else v
  if r.busy || r.valid then s else s.setRemap u e { r with lo := BitVec.ofNat 32 v }
/-- The counters, logs and remap entries of a channel or pseudo-channel with `cols` columns. -/
def cntWrite (s : State) (u : MemUnit) (cols r v : Nat) : State :=
  let c := s.cnt (muCnt u)
  if 0x40 ≤ r && r < 0x40 + 4 * cols then s.setCnt (muCnt u) { c with ceCol := tabSet 0 c.ceCol ((r - 0x40) / 4) v }
  else if 0x100 ≤ r && r < 0x180 then
    let e := (r - 0x100) / 8
    let w := BitVec.ofNat 32 v
    if r / 4 % 2 = 0 then remapLo s u e v
    else if bitOf v 31 then remapInstall s u e w else remapRemove s u e w
  else match r with
    | 0x010 => s.setCnt (muCnt u) { c with ce := v }
    | 0x014 => s.setCnt (muCnt u) { c with ue := v }
    | 0x018 => s.setCnt (muCnt u) { c with ovf := w1c c.ovf v }
    | 0x024 => s.setCnt (muCnt u) { c with ueValid := w1cBit c.ueValid v 14 }
    | _ => s
/-- CLU_ (R194). -/
def cluWrite (s : State) (c r v : Nat) : State :=
  let x := s.clu c
  match r with
  | 0x04 => s.setClu c { x with runs := v }
  | 0x08 => s.setClu c { x with traps := v }
  | 0x0C => s.setClu c { x with ceIm := v % 65536, ceScr := v / 65536 }
  | 0x10 => s.setClu c { x with macs := v }
  | 0x14 => s.setClu c { x with ovf := w1c x.ovf v }
  | _ => s
/-- `DMC_PART_KEEP`, as written; what the bits of the top segment and of absent ranks read as is `keepBits` (R385). -/
def keepWrite (s : State) (p : Nat) (k : W64) : State := s.setPart p { s.part p with keep := k }
/-- The window of partition `p`. -/
def partWrite (s : State) (p o v : Nat) : State :=
  if o < 0x40000 then
    let d := 4 * p + o / 0x10000
    let r := o % 0x10000
    if [0x00, 0x04, 0x08, 0x1C].contains r || 0x200 ≤ r then blkWrite s false d r v else cntWrite s (.sub d 0) 20 r v
  else if o < 0x80000 then match o with
    | 0x40000 => if bitOf v 0 then parkReqOf s p (BitVec.ofNat 32 v) else unparkReqOf s p (BitVec.ofNat 32 v)
    | 0x40004 => keepWrite s p (setLoW (s.part p).keep v)
    | 0x40008 => keepWrite s p (setHiW (s.part p).keep v)
    | _ => s
  else if o < 0xC0000 then
    let r := o - 0x80000
    if r < 0x1000 then blkWrite s true p r v
    else if r < 0x5000 then cntWrite s (.pc p ((r - 0x1000) / 0x200)) 10 ((r - 0x1000) % 0x200) v
    else s
  else if o < 0xC5000 then cluWrite s (5 * p + (o - 0xC0000) / 0x1000) (o % 0x1000) v
  else s

/-- A port's link registers (R344). -/
def linkWrite (s : State) (p r v : Nat) : State :=
  let l := s.link p
  if 0x40 ≤ r && r < 0x58 then s.setLink p { l with alloc := setN l.alloc ((r - 0x40) / 4) (v % 2048) }
  else match r with
    | 0x04 => s.setLink p { l with
        replayLimit := inIv 2 15 l.replayLimit (field v 31 28), creditToUs := inIv 10 10000 l.creditToUs (field v 27 14)
        replayTimer := inIv 5 200 l.replayTimer (field v 7 0) }
    | 0x08 =>
      let s := if bitOf v 2 then linkRequest s p 1 0 else s
      let s := if bitOf v 1 then linkDown s p 0 else s
      if bitOf v 0 then detectStart s p else s
    | 0x0C => s.setLink p { l with replays := v }
    | 0x10 => s.setLink p { l with retrains := v }
    | 0x14 => s.setLink p { l with crcErr := v }
    | 0x18 => s.setLink p { l with downEv := v }
    | 0x1C => s.setLink p { l with discards := v }
    | 0x20 => s.setLink p { l with laneEv := v }
    | 0x24 => s.setLink p { l with ovf := w1c l.ovf v }
    | _ => s
def rflWrite (s : State) (o v : Nat) : State :=
  if o / 0x10000 < 14 then linkWrite s (o / 0x10000) (o % 0x10000) v
  else if o = 0xF0008 then
    { s with fab := { s.fab with drainUs := inIv 10 10000 s.fab.drainUs (field v 13 0), rrdToUs := inIv 100 10000 s.fab.rrdToUs (field v 27 14) } }
  else s
/-- A lane's registers (R358): a checker that is changed is not synchronised to its new pattern. -/
def laneWrite (s : State) (p n r v : Nat) : State :=
  let l := s.lane p n
  match r with
  | 0x04 => s.setLane p n { l with ce := v }
  | 0x08 =>
    let pat := if 6 ≤ v % 8 then l.pat else v % 8
    s.setLane p n { l with pat := pat, gen := bitOf v 3, chk := bitOf v 4, chkLock := l.chkLock && bitOf v 4 && pat == l.pat }
  | 0x0C => s.setLane p n { l with prbsErr := v }
  | _ => s
/-- LNE_ (R358). -/
def lneWrite (s : State) (o v : Nat) : State :=
  let p := o / 0x1000
  let r := o % 0x1000
  let x := s.lanePort p
  if 14 ≤ p then s
  else if 0x100 ≤ r && r < 0x220 then laneWrite s p ((r - 0x100) / 32) ((r - 0x100) % 32) v
  else match r with
    | 0x00 => s.setLanePort p { x with
        chkLog2 := inIv 4 15 x.chkLog2 (field v 27 24), eqMs := inIv 5 255 x.eqMs (field v 23 16), serLog2 := inIv 8 20 x.serLog2 (field v 12 8)
        feAllow := bitOf v 2, maxRung := v % 4 }
    | 0x08 => lbWrite s p v
    | 0x0C => s.setLanePort p { x with quadIns := v }
    | 0x10 => s.setLanePort p { x with quadDel := v }
    | 0x14 => s.setLanePort p { x with markErr := v }
    | 0x1C => s.setLanePort p { x with ovf := w1c x.ovf v }
    | _ => s
def xltWrite (s : State) (o v : Nat) : State :=
  let p := (o - 0x100) / 16
  let c : RcCnt := tabGet {} s.xlt.counts p
  let put : RcCnt → State := fun c => { s with xlt := { s.xlt with counts := tabSet {} s.xlt.counts p c } }
  if 0x100 ≤ o && o < 0x180 then match o % 16 with
    | 0 => put { c with hit := v }
    | 4 => put { c with miss := v }
    | 8 => put { c with hitOvf := w1cBit c.hitOvf v 16, missOvf := w1cBit c.missOvf v 17 }
    | _ => s
  else match o with
    | 0x00 => { s with xlt := { s.xlt with escalateMs := inIv 1 1000 s.xlt.escalateMs (field v 9 0) } }
    | 0x08 => { s with xlt := { s.xlt with faults := v } }
    | 0x0C => { s with xlt := { s.xlt with escalated := v } }
    | _ => s
def qosWrite (s : State) (o v : Nat) : State :=
  match o with
  | 0x00 => qosCfg s v
  | 0x04 => histSel s v
  | 0x18 => { s with qos := { s.qos with samples := v } }
  | 0x1C => { s with qos := { s.qos with red := v } }
  | 0x20 => { s with qos := { s.qos with withdrawn := v } }
  | _ => s
def synWrite (s : State) (o v : Nat) : State :=
  match o with
  | 0x40000 => { s with sync := { s.sync with errEvents := v } }
  | 0x40004 => { s with sync := { s.sync with errOvf := w1cBit s.sync.errOvf v 0 } }
  | _ => s
def cohRegWrite (s : State) (o v : Nat) : State :=
  if o < 0x400 then
    let x := s.win (o / 16)
    match o % 16 with
    | 0 => s.setWin (o / 16) { x with ovf := w1cBit x.ovf v 19 }
    | 4 => s.setWin (o / 16) { x with reqs := v }
    | 8 => s.setWin (o / 16) { x with retries := v }
    | 12 => s.setWin (o / 16) { x with snoops := v }
    | _ => s
  else if o = 0x400 then { s with coh := { s.coh with downEvents := v } } else s
def mirWrite (s : State) (o v : Nat) : State :=
  let m := s.mir
  match o with
  | 0x04 => { s with mir := { m with
      lagMs := inIv 1 255 m.lagMs (field v 23 16), divLimit := inIv 1 15 m.divLimit (field v 11 8), restore := bitOf v 1, autoRejoin := bitOf v 0 } }
  | 0x08 => { s with mir := { m with
      peerSilentUs := inIv 1020 10000 m.peerSilentUs (field v 31 16), mirSilentUs := inIv 50 1000 m.mirSilentUs (field v 15 0) } }
  | 0x1C => { s with mir := { m with diverg := v } }
  | 0x20 => { s with mir := { m with failovers := v } }
  | 0x24 => { s with mir := { m with orphans := v } }
  | 0x28 => { s with mir := { m with ovf := w1c m.ovf v } }
  | _ => s
/-- A ring's registers (R74, R75): the bases keep their values while EN reads 1. A reply queue that is full stays so while RQ_HEAD names the
same slot (log 35). -/
def ringWrite (s : State) (n r v : Nat) : State :=
  let x := s.ring n
  match r with
  | 0x00 => if x.en then s else s.setRing n { x with sqBase := setLoW x.sqBase (v / 64 * 64) }
  | 0x04 => if x.en then s else s.setRing n { x with sqBase := setHiW x.sqBase v }
  | 0x08 => if x.en then s else s.setRing n { x with rqBase := setLoW x.rqBase (v / 64 * 64) }
  | 0x0C => if x.en then s else s.setRing n { x with rqBase := setHiW x.rqBase v }
  | 0x10 => ringCfg s n v
  | 0x14 => ringTail s n v
  | 0x20 => s.setRing n { x with rqHead := v % 65536, full := x.full && v % 2 ^ x.rqLog2 == x.rqFront }
  | 0x24 => s.setRing n { x with cfgErr := w1cBit x.cfgErr v 1, fetchErr := w1cBit x.fetchErr v 2, writeErr := w1cBit x.writeErr v 3 }
  | 0x28 => ringCtrl s n v
  | 0x30 => s.setRing n { x with vec := v % 1024, vecEn := bitOf v 31 }
  | _ => s

/-! ## Accesses of a function (R487-R490) -/

/-- A write of `v` to a register of an open window, in the physical function. -/
def windowWrite (s : State) (a v : Nat) : State :=
  let w := a / 2 ^ 20
  let o := a % 2 ^ 20
  if 0x10 ≤ w && w < 0x18 then partWrite s (w - 0x10) o v
  else match w with
    | 0x00 => glbWrite s o v
    | 0x01 => intWrite s o v
    | 0x03 => fltWrite s o v
    | 0x04 => mbxWrite s o v
    | 0x05 => pwrWrite s o v
    | 0x20 => rflWrite s o v
    | 0x30 => lneWrite s o v
    | 0x40 => xltWrite s o v
    | 0x60 => qosWrite s o v
    | 0x70 => synWrite s o v
    | 0x80 => cohRegWrite s o v
    | 0x90 => mirWrite s o v
    | 0xA0 => if o < 0x10000 then ringWrite s (o / 64) (o % 64) v else s
    | _ => s
/-- Is there such a function: 0 the physical function, 1 to 16 the virtual ones (R128)? -/
def fnOk (fn : Nat) : Bool := decide (fn ≤ 16)
/-- A write of a function: a virtual function writes only its rings' blocks, and a partial write has no effect (R487, R488). -/
def regWrite (s : State) (fn a v : Nat) (be : BitVec 4) : State :=
  if be != 0xF || !barWrite s (a / 2 ^ 20) || !inReach s fn a || (fn != 0 && a / 2 ^ 20 == 0) then s else windowWrite s a v
/-- REGISTER_WRITE: a word write; PCIe addresses whole words. -/
def execRegisterWrite (fn : Nat) (addr value : W32) (be : BitVec 4) (s : State) : Host.Outcome State Fault Refusal :=
  onInst (fnOk fn) (regWrite s fn (addr.toNat / 4 * 4) value.toNat be)
/-- MSIX_REARM: a write of `INT_CFG` with REARM = 1 (R483). -/
def execMsixRearm (value : W32) (s : State) : Host.Outcome State Fault Refusal := done (onBar s 1 (intCfg s (value ||| 1).toNat))

/-- A read of a `_LO` word at address `a`, whose `_HI` word the function latches (R488). -/
def loRead (s : State) (fn a pair : Nat) : State :=
  let v := regRead s fn a
  let hi := BitVec.ofNat 32 (pairValue s pair / 2 ^ 32)
  let open_ := barOpen s (a / 2 ^ 20) && inReach s fn a
  let s := if open_ then { s with latches := { hi := tabIns s.latches.hi (latchKey fn pair) hi } } else s
  if pcieUp s then s.send (.readWord fn a v) else s
def execSynCountLoRead (fn i : Nat) (s : State) : Host.Outcome State Fault Refusal :=
  onInst (fnOk fn && decide (i < 16384)) (loRead s fn (0x07000000 + 16 * i) (pairSync i))
def execMirSeqLoRead (fn : Nat) (s : State) : Host.Outcome State Fault Refusal := onInst (fnOk fn) (loRead s fn 0x0900000C pairSeq)
/-- The address of a domain's `PWR_E_LO`: 3p + d of a partition, 24 SERDES, 25 IOD. -/
def energyAddr (d : Nat) : Nat := if d < 24 then 0x00500100 + d / 3 * 32 + d % 3 * 8 else 0x00500200 + (d - 24) * 8
def execPwrELoRead (fn d : Nat) (s : State) : Host.Outcome State Fault Refusal :=
  onInst (fnOk fn && decide (d < 26)) (loRead s fn (energyAddr d) (pairEnergy d))
def execGlbDeviceIdLoRead (fn : Nat) (s : State) : Host.Outcome State Fault Refusal := onInst (fnOk fn) (loRead s fn 0x08 pairId)
def execGlbCapLoRead (fn : Nat) (s : State) : Host.Outcome State Fault Refusal := onInst (fnOk fn) (loRead s fn 0x14 pairCap)
def execGlbTimeLoRead (fn : Nat) (s : State) : Host.Outcome State Fault Refusal := onInst (fnOk fn) (loRead s fn 0x24 pairTime)
/-- FLT_DUMP_SKIPPED_READ: SKIPPED is returned and cleared; a dump skipped in the same cycle is kept (R11). -/
def execFltDumpSkippedRead (fn : Nat) (event : Bool) (s : State) : Host.Outcome State Fault Refusal :=
  onInst (fnOk fn) (
    let v := regRead s fn 0x0030003C
    let t := { s with flt := { s.flt with skipped := satAdd 8 (if barOpen s 3 && fn == 0 then 0 else s.flt.skipped) (if event then 1 else 0) } }
    if pcieUp t then t.send (.readWord fn 0x0030003C v) else t)

end Sys2Proof.Machine
end

