-- ==== Sys2Proof/Machine/Spdm.lean ====
section
/-! DEFINITION. Attestation and confidential hosts (R127, R128): the SPDM responder, its sessions, TDISP interfaces and IDE
streams. The manual names SPDM 1.3 and not its codes: request and response codes are those of SPDM 1.3 (PRESUMED, log 30), and
what a body holds beyond the measurements is `Config.spdmBody`. -/
namespace Sys2Proof.Machine

/-- An SPDM response (R127), by the way of its request. The free counter keeps bodies of equal requests apart. -/
def spdmSend (s : State) (via : Framing) (req rsp : Nat) (body : List Byte) : State := (s.send (.sec via req rsp body)).bump
/-- SPDM's ERROR with its error code. -/
def spdmError (s : State) (via : Framing) (req code : Nat) : State := spdmSend s via req 0x7F [BitVec.ofNat 8 code]

/-- The number of a transport in the table of connection states. -/
def spdmIx : SpdmPath → Nat
  | .doe => 0
  | .mctp => 1

/-- A request on a transport whose connection has reached stage `need`: versions agreed 1, capabilities 2, algorithms 3; before
that it is answered UnexpectedRequest (PRESUMED, log 30). -/
def spdmRequest (s : State) (p : SpdmPath) (req need : Nat) (f : State → State) : State :=
  if !secServes s then s
  else if tabGet 0 s.iso.spdm (spdmIx p) < need then spdmError s (.transport p) req 0x04 else f s

/-- A request that changes nothing but perhaps the stage of its connection. -/
def spdmPlain (s : State) (p : SpdmPath) (req rsp need stage : Nat) (body : List Byte) : State :=
  spdmRequest s p req need fun s =>
    let s := { s with iso := { s.iso with spdm := tabSet 0 s.iso.spdm (spdmIx p) stage } }
    spdmSend s (.transport p) req rsp (Config.spdmBody req body s.free)

def execGetVersion (p : SpdmPath) (s : State) : Host.Outcome State Fault Refusal := done (spdmPlain s p 0x84 0x04 0 1 [])
def execGetCapabilities (p : SpdmPath) (s : State) : Host.Outcome State Fault Refusal := done (spdmPlain s p 0xE1 0x61 1 2 [])
def execNegotiateAlgorithms (p : SpdmPath) (s : State) : Host.Outcome State Fault Refusal := done (spdmPlain s p 0xE3 0x63 2 3 [])
def execGetDigests (p : SpdmPath) (s : State) : Host.Outcome State Fault Refusal := done (spdmPlain s p 0x81 0x01 3 3 [])
def execGetCertificate (p : SpdmPath) (slot offset len : Nat) (s : State) : Host.Outcome State Fault Refusal :=
  done (spdmPlain s p 0x82 0x02 3 3 (leBytes 1 slot ++ leBytes 2 offset ++ leBytes 2 len))
def execChallenge (p : SpdmPath) (nonce : List Byte) (s : State) : Host.Outcome State Fault Refusal := done (spdmPlain s p 0x83 0x03 3 3 nonce)

/-! ## Measurements -/

/-- The bytes of component type `t` of an image. -/
def compBytes (img : List Byte) (t : Nat) : List Byte :=
  (imgComps img).flatMap fun c => if c.ty = t then (img.drop c.off).take c.len else []
/-- What is measured (R127): the boot ROM, whose bytes the manual does not give; SEC's firmware; that of SCH, PMC and CTL; the
fuses with the silicon revision; and the tenant state, tenant identifier, claim counter and `ISO_EPOCH`. -/
def measured (s : State) (i : Nat) : List Byte :=
  let img := s.fw.slotImg.getD s.fw.running []
  match i with
  | 1 => Config.spdmBody 0xE0 [1] 0
  | 2 => compBytes img 1
  | 3 => compBytes img 2 ++ compBytes img 3 ++ compBytes img 4
  | 4 => leBytes 1 (flag s.fuses.hb 0 + flag s.fuses.extended 1) ++ leBytes 8 s.fuses.deviceId.toNat ++ s.fuses.opKeyHash
      ++ s.fuses.fwKeyHash ++ leBytes 4 s.fuses.minSvn ++ Config.spdmBody 0xE0 [4] 0
  | _ => leBytes 1 s.iso.tenant ++ leBytes 8 s.iso.tenantId.toNat ++ leBytes 8 s.iso.claims ++ leBytes 4 s.iso.epoch.toNat
/-- GET_MEASUREMENTS: index 0 asks for their number, 1 to 5 for the SHA-384 of one, 0xFF for all (PRESUMED, log 30). -/
def execGetMeasurements (p : SpdmPath) (index : Nat) (s : State) : Host.Outcome State Fault Refusal :=
  done (spdmRequest s p 0xE0 3 fun s =>
    let one := fun (i : Nat) => BitVec.ofNat 8 i :: Config.sha384 (measured s i)
    if index = 0 then spdmSend s (.transport p) 0xE0 0x60 [5]
    else if index ≤ 5 then spdmSend s (.transport p) 0xE0 0x60 (1 :: one index)
    else if index = 255 then spdmSend s (.transport p) 0xE0 0x60 (5 :: [1, 2, 3, 4, 5].flatMap one)
    else spdmError s (.transport p) 0xE0 0x01)

/-! ## Sessions: 32 at once -/

def setSession (s : State) (i : Nat) (x : Session) : State := { s with iso := { s.iso with sessions := tabIns s.iso.sessions i x } }
/-- KEY_EXCHANGE begins a session at the lowest free number, with a serial number of its own. -/
def execKeyExchange (p : SpdmPath) (exchange : List Byte) (s : State) : Host.Outcome State Fault Refusal :=
  done (spdmRequest s p 0xE4 3 fun s =>
    let i := tabGap s.iso.sessions 0
    if 32 ≤ i then spdmError s (.transport p) 0xE4 0x0A
    else
      let s1 := setSession { s with iso := { s.iso with sessNo := s.iso.sessNo + 1 } } i { serial := s.iso.sessNo + 1 }
      spdmSend s1 (.transport p) 0xE4 0x64 (BitVec.ofNat 8 i :: Config.spdmBody 0xE4 exchange s.free))

/-- An established session is the one under which its host seals from now on (R129, log 41): both counters start again, at 1. -/
def beginSeal (s : State) (x : Session) : State :=
  match Config.sessionHost x.serial x.mutualKey with
  | none => s
  | some h => { s with iso := { s.iso with
      sealKey := tabIns s.iso.sealKey h (x.serial, x.keyGen), sealIn := tabDel s.iso.sealIn h, sealOut := tabDel s.iso.sealOut h } }
/-- The session under whose key a host seals is over: its key is gone. -/
def endSeal (s : State) (x : Session) : State :=
  { s with iso := { s.iso with sealKey := s.iso.sealKey.filter fun e => e.2.1 != x.serial } }
/-- KEY_UPDATE gives the host of the session the next key; its counters go on. -/
def renewSeal (s : State) (x : Session) : State :=
  { s with iso := { s.iso with sealKey := tabMap (fun _ (k : Nat × Nat) => if k.1 = x.serial then (x.serial, x.keyGen) else k) s.iso.sealKey } }

/-- FINISH establishes the session, mutually authenticated where the requester proved a key; a bad proof ends the session. -/
def execFinish (p : SpdmPath) (sess : Nat) (key : Option (List Byte)) (proof : List Byte) (s : State) : Host.Outcome State Fault Refusal :=
  done (spdmRequest s p 0xE5 3 fun s => match tabFind s.iso.sessions sess with
    | none => spdmError s (.transport p) 0xE5 0x02
    | some x =>
      let good := match key with
        | some k => Config.finishOk k proof sess
        | none => true
      let y := { x with established := true, mutualKey := key }
      if x.established then spdmError s (.transport p) 0xE5 0x04
      else if good then spdmSend (beginSeal (setSession s sess y) y) (.transport p) 0xE5 0x65 []
      else spdmError { s with iso := { s.iso with sessions := tabDel s.iso.sessions sess } } (.transport p) 0xE5 0x06)

/-- A request inside an established session. -/
def sessionRequest (s : State) (sess req : Nat) (f : Session → State) : State :=
  if !secServes s then s
  else match tabFind s.iso.sessions sess with
    | none => spdmError s (.session sess) req 0x02
    | some x => if x.established then f x else spdmError s (.session sess) req 0x04
def execEndSession (sess : Nat) (s : State) : Host.Outcome State Fault Refusal :=
  done (sessionRequest s sess 0xEC fun x =>
    spdmSend (endSeal { s with iso := { s.iso with sessions := tabDel s.iso.sessions sess } } x) (.session sess) 0xEC 0x6C [])
/-- HEARTBEAT keeps the session; no time-out of a session is given, so it has no other effect. -/
def execHeartbeat (sess : Nat) (s : State) : Host.Outcome State Fault Refusal :=
  done (sessionRequest s sess 0xE8 fun _ => spdmSend s (.session sess) 0xE8 0x68 [])
def execKeyUpdate (sess : Nat) (s : State) : Host.Outcome State Fault Refusal :=
  done (sessionRequest s sess 0xE9 fun x =>
    let y := { x with keyGen := x.keyGen + 1 }
    spdmSend (renewSeal (setSession s sess y) y) (.session sess) 0xE9 0x69 [])

/-! ## TDISP and IDE (R128) -/

/-- Stops a ring's fetching with STOPPED; its outstanding commands end CANCELLED, those too that a CANCEL would let end by themselves
(R70). A run ends so when its tiles have stopped. -/
def stopAndCancel (s : State) (n : Nat) : State :=
  let mine := fun (c : Cmd) => c.chan == .ring n
  let s := cancelRefusals (drainDma (s.setRing n { s.ring n with stopped := true })) fun r => r.chan == .ring n
  let s := cancelAll s mine
  let steps := s.store.cmds.filter fun e => mine e.2 && opcodeOf e.2.raw == 0x0311
  let s := steps.foldl (fun s e => closeSlot (abandonStep s (e.2.par 16 2) (e.2.par 20 4) stCANCELLED true) (e.2.par 16 2)) s
  cancelNow s fun c => mine c && opcodeOf c.raw != 0x0381
/-- The enabled rings of a device interface: the physical function 0, or VFn. -/
def ifaceRings (s : State) (i : Nat) : List Nat := (s.rings.filter fun e => e.2.en && ringFn s e.1 == i).map (·.1)
/-- TDISP_REQUEST: LOCK, START and STOP move an interface round CONFIG_UNLOCKED 0, CONFIG_LOCKED 1 and RUN 2; a message that does
not fit the state changes nothing (PRESUMED, log 30). An error leads to ERROR 3, which stops the interface's rings. -/
def tdispRequest (s : State) (i : Nat) (m : TdispMsg) : State :=
  let cur := tabGet 0 s.iso.tdisp i
  let put := fun (s : State) (v : Nat) => { s with iso := { s.iso with tdisp := tabSet 0 s.iso.tdisp i v } }
  match m with
  | .lock => if cur = 0 then put s 1 else s
  | .start => if cur = 1 then put s 2 else s
  | .stop => put s 0
  | .error => if cur = 0 then s else (ifaceRings s i).foldl stopAndCancel (put s 3)
def execTdispRequest (iface : Nat) (m : TdispMsg) (s : State) : Host.Outcome State Fault Refusal :=
  onInst (decide (iface ≤ 16)) (tdispRequest s iface m)

/-- IDE_KM_REQUEST: in an established session, link IDE or one of 16 selective streams is set up with keys or stopped. A 17th
stream is not. -/
def ideKm (s : State) (stream : Option Nat) (on : Bool) : State :=
  match stream with
  | none => { s with iso := { s.iso with linkIde := on } }
  | some n =>
    let rest := s.iso.streams.filter (· != n)
    if !on then { s with iso := { s.iso with streams := rest } }
    else if 16 ≤ rest.length then s
    else { s with iso := { s.iso with streams := rest ++ [n] } }
def execIdeKmRequest (sess stream : Option Nat) (on : Bool) (s : State) : Host.Outcome State Fault Refusal :=
  done (if !secServes s then s
    else match sess.bind (tabFind s.iso.sessions) with
      | some x => if x.established then ideKm s stream on else s
      | none => s)

end Sys2Proof.Machine
end

