-- ==== Sys2Proof/Machine/TileVec.lean ====
section
/-! DEFINITION. Churn instructions: matrix, conversion and quantisation, vector and reductions (R160, R163-R168, R195-R225). -/
namespace Sys2Proof.Machine

/-! ## Matrix -/

/-- Elements of row or column `i` of a vector register, in containers of the format (R163). -/
def rowElems (fmt : Nat) (x : W512) (i : Nat) : List Nat :=
  ((elems (container fmt) x.toNat).drop (i * mmaK fmt)).take (mmaK fmt)
/-- Scale byte 2i + m of a scalar register as a value (R164). -/
def scaleOf (fmt scm : Nat) (r : W64) (i m : Nat) : FV :=
  let b := r.toNat / 256 ^ (2 * i + m) % 256
  match scm with
  | 0 => .fin false 1 0
  | 1 => match mxScale fmt b with
    | some (k, e) => .fin false k e
    | none => .nan
  | _ => match zbBlock b with
    | some (k, e) => .fin false k e
    | none => .nan
def blockLen (scm : Nat) : Nat := if scm = 2 then 16 else 32

/-- The terms of element (i, j): old first, then the products (R216). -/
def mmaElemTerms (t : Tile) (x : TI) (i j : Nat) : List FV :=
  let fmt := x.fmt.toNat
  let scm := immBits x 1 0
  let int := scm = 0 && (fpFmt fmt).isNone
  let oldCode := if immBits x 2 2 = 1 then 0 else accElem (t.A x.d) i j
  let old := if int then FV.ofInt (intOf 8 oldCode) else f32 oldCode
  mmaTerms fmt old (rowElems fmt (t.V x.a) i) (rowElems fmt (t.V x.b) j)
    (scaleOf fmt scm (t.S x.c) i) (scaleOf fmt scm (t.S (BitVec.ofNat 5 (immBits x 19 16))) j) (blockLen scm)

/-- Element (i, j) of the result (R216, R217). -/
def mmaElem (t : Tile) (x : TI) (i j : Nat) : Nat :=
  let v := sumExact (mmaElemTerms t x i j)
  if immBits x 1 0 = 0 && (fpFmt x.fmt.toNat).isNone then intCode 8 (v.at_ (min v.exp 0)) else toF32 v

/-- The sixteen (i, j). -/
def tileIndices : List (Nat × Nat) := (List.range 16).map fun k => (k / 4, k % 4)

/-- The result tile of an MMA. -/
def mmaTile (t : Tile) (x : TI) : W512 := vecOf 32 (tileIndices.map fun ij => mmaElem t x ij.1 ij.2)

/-- The checks of R222 to R224 on one MMA: the PROT code of a mismatch. Both pass on a correct array. -/
def mmaCheck (s : State) (t : Tile) (x : TI) : Option Nat :=
  let fp := !(immBits x 1 0 = 0 && (fpFmt x.fmt.toNat).isNone)
  let ns := 2 ^ s.flt.shadowLog2
  if !(tileIndices.all fun ij => residueOk (mmaElemTerms t x ij.1 ij.2)) then some 4
  else if fp && t.mmas.toNat % ns == ns - 1 && !(tileIndices.all fun ij =>
      let l := mmaElemTerms t x ij.1 ij.2
      l.any (fun v => v.isNan || v.isInf) || shadowOk (l.headD .nan) l.tail (mmaElem t x ij.1 ij.2)) then some 5
  else none

/-- A mismatch of the array's checks (R225): the tile traps with MAC_CHECK, counted, and reported as a fault of the tile. -/
def macFault (s : State) (n prot : Nat) : State := settle (trapTile (cluMac s (cluOf n)) n 0x0A 0 0 prot)

/-- MMA (R163, R164, R216, R217). -/
def execMma (n : Nat) (i : TI) (s : State) : Host.Outcome State Fault Refusal :=
  issue n 0x40 i (fun s =>
    let t := s.tile n
    match mmaCheck s t i with
    | some p => macFault s n p
    | none => s.setTile n { (t.setA i.d (mmaTile t i)).next with mmas := t.mmas + 1 }) s

/-- MAC_CHECK (R225): the checks of the tile's array report a mismatch. -/
def execMacCheck (n : Nat) (shadow : Bool) (s : State) : Host.Outcome State Fault Refusal :=
  onInst (decide (n < 10240)) (if (s.tile n).st.active && (s.tile n).run.isSome then macFault s n (if shadow then 5 else 4) else s)

/-- AZERO (R160). -/
def execAzero (n : Nat) (i : TI) (s : State) : Host.Outcome State Fault Refusal :=
  issueReg n 0x41 i (fun t => t.setA i.d 0) s
/-- AADD (R160, R219). -/
def execAadd (n : Nat) (i : TI) (s : State) : Host.Outcome State Fault Refusal :=
  issueReg n 0x42 i (fun t =>
    let f := fun (x y : Nat) => if i.fmt = 8 then (x + y) % 2 ^ 32 else f32Add x y
    t.setA i.d (vecOf 32 (List.zipWith f (elems 32 (t.A i.a).toNat) (elems 32 (t.A i.b).toNat)))) s
/-- AMULV (R160, R219). -/
def execAmulv (n : Nat) (i : TI) (s : State) : Host.Outcome State Fault Refusal :=
  issueReg n 0x43 i (fun t =>
    let v := elems 32 (t.V i.b).toNat
    t.setA i.d (vecOf 32 (tileIndices.map fun ij =>
      f32Mul (f32Mul (accElem (t.A i.a) ij.1 ij.2) (v.getD ij.1 0)) (v.getD (4 + ij.2) 0)))) s
/-- AMOVV (R160). -/
def execAmovv (n : Nat) (i : TI) (s : State) : Host.Outcome State Fault Refusal :=
  issueReg n 0x44 i (fun t => t.setA i.d (t.V i.a)) s
/-- VMOVA (R160). -/
def execVmova (n : Nat) (i : TI) (s : State) : Host.Outcome State Fault Refusal :=
  issueReg n 0x45 i (fun t => t.setV i.d (t.A i.a)) s

/-! ## Conversion and quantisation -/

/-- CVT on a tile (R165, R166, R203-R208). In SR mode the LFSR leaps for widening conversions too (DEDUCED, log 13). -/
def cvtTile (t : Tile) (i : TI) : Tile :=
  let src := i.fmt.toNat
  let dst := immBits i 15 12
  let ws := container src
  let wd := container dst
  let n := 512 / max ws wd
  let part := immBits i 11 8
  let xs := if ws < wd then chunkElems ws n part (t.V i.a).toNat else elems ws (t.V i.a).toNat
  let (cs, l, sat, fl) := convertList (fun m x => convert src dst m (immBits i 6 6 == 1) x) (immBits i 5 4) xs t.lfsr.toNat
  let out := if wd < ws then putChunk wd n part (t.V i.d) cs else vecOf wd cs
  ((t.setV i.d out).setLfsr l).count sat fl
/-- CVT (R166). -/
def execCvt (n : Nat) (i : TI) (s : State) : Host.Outcome State Fault Refusal := issueReg n 0x50 i (fun t => cvtTile t i) s
/-- VAMAX (R167, R210). -/
def execVamax (n : Nat) (i : TI) (s : State) : Host.Outcome State Fault Refusal :=
  issueReg n 0x51 i (fun t =>
    let fmt := i.fmt.toNat
    t.setS i.d (BitVec.ofNat 64 (amaxOf
      (f32 ((t.S i.b).toNat % 2 ^ 32) :: (elems (container fmt) (t.V i.a).toNat).map (elemValue fmt))))) s
/-- SCALE (R167, R211, R212). -/
def execScale (n : Nat) (i : TI) (s : State) : Host.Outcome State Fault Refusal :=
  issueReg n 0x52 i (fun t =>
    let x := (t.S i.a).toNat
    t.setS i.d (BitVec.ofNat 64 (if immBits i 0 0 = 0 then scaleMx i.fmt.toNat (x % 2 ^ 32)
      else scaleZb i.fmt.toNat (x % 2 ^ 32) (x / 2 ^ 32)))) s
/-- The divisor of CVTQ and DEQ from S[B] (R213). -/
def tileDivisor (t : Tile) (i : TI) : Option (Nat × Int) :=
  divisor (immBits i 7 7 == 1) i.fmt.toNat (t.S i.b).toNat ((t.S i.b).toNat / 2 ^ 32)
/-- CVTQ (R167, R213). -/
def execCvtq (n : Nat) (i : TI) (s : State) : Host.Outcome State Fault Refusal :=
  issueReg n 0x53 i (fun t =>
    let fmt := i.fmt.toNat
    let (cs, l, sat, fl) := convertList (cvtqElem fmt (tileDivisor t i)) (immBits i 5 4) (elems 32 (t.V i.a).toNat) t.lfsr.toNat
    ((t.setV i.d (putChunk (container fmt) 16 (immBits i 11 8) (t.V i.d) cs)).setLfsr l).count sat fl) s
/-- DEQ (R167, R214). -/
def execDeq (n : Nat) (i : TI) (s : State) : Host.Outcome State Fault Refusal :=
  issueReg n 0x54 i (fun t =>
    let fmt := i.fmt.toNat
    let cs := (chunkElems (container fmt) 16 (immBits i 11 8) (t.V i.a).toNat).map (deqElem fmt (tileDivisor t i))
    (t.setV i.d (vecOf 32 (cs.map (·.code)))).count (cs.filter (·.sat)).length (cs.filter (·.flush)).length) s
/-- SEED (R207). -/
def execSeed (n : Nat) (i : TI) (s : State) : Host.Outcome State Fault Refusal :=
  issueReg n 0x55 i (fun t => t.setLfsr (seedOf (t.S i.a).toNat (t.S i.b).toNat t.logical)) s
/-- UNPK (R159, R160). -/
def execUnpk (n : Nat) (i : TI) (s : State) : Host.Outcome State Fault Refusal :=
  issueReg n 0x56 i (fun t =>
    let x := (t.V i.a).toNat
    t.setV i.d (if i.fmt = 11 then vecOf 4 ((List.range 128).map fun k => fixContainer 11 (x / 2 ^ (3 * k) % 8))
      else vecOf 8 ((List.range 64).map fun k => x / 2 ^ (6 * k) % 64))) s
/-- PACK (R159, R160): bytes 48 to 63 of the destination are a free value of the operands, for the manual states none but that the result
is a function of them (R209; log 43). -/
def execPack (n : Nat) (i : TI) (s : State) : Host.Outcome State Fault Refusal :=
  issueReg n 0x57 i (fun t =>
    let x := (t.V i.a).toNat
    let low := if i.fmt = 11 then packElems 3 ((elems 4 x).map (· % 8)) else packElems 6 ((elems 8 x).map (· % 64))
    t.setV i.d (Config.packHigh (t.V i.a) i.fmt i.imm ++ BitVec.ofNat 384 low)) s

/-! ## Compare, select, vector, reduce -/

/-- All ones in an element of a format (R160) as far as R198 lets an instruction write them: six bits in an FP6 container; and in T2, whose
0b11 no instruction writes, a free value that is another code (log 43). -/
def allOnes (fmt : Nat) : Nat :=
  if fmt = 5 || fmt = 6 then 63 else if fmt = 13 then Config.t2True.val else 2 ^ container fmt - 1
/-- VCMP (R160, R219). -/
def execVcmp (n : Nat) (i : TI) (s : State) : Host.Outcome State Fault Refusal :=
  issueReg n 0x60 i (fun t =>
    let fmt := i.fmt.toNat
    let w := container fmt
    t.setV i.d (vecOf w (List.zipWith (fun x y => if vecCmp fmt (immBits i 2 0) x y then allOnes fmt else 0)
      (elems w (t.V i.a).toNat) (elems w (t.V i.b).toNat)))) s
/-- VSEL (R160): bytewise. -/
def execVsel (n : Nat) (i : TI) (s : State) : Host.Outcome State Fault Refusal :=
  issueReg n 0x61 i (fun t =>
    t.setV i.d (vecOf 8 (List.zipWith (fun c ab => if c = 0 then ab.2 else ab.1) (elems 8 (t.V i.c).toNat)
      ((elems 8 (t.V i.a).toNat).zip (elems 8 (t.V i.b).toNat))))) s
/-- An elementwise operation of R168; INT8 saturations count in SATC. -/
def vecTile (op : Nat) (i : TI) (t : Tile) : Tile :=
  let fmt := i.fmt.toNat
  let w := container fmt
  let cs := List.zipWith (vecOp fmt op) (elems w (t.V i.a).toNat) (elems w (t.V i.b).toNat)
  (t.setV i.d (vecOf w (cs.map (·.code)))).count (cs.filter (·.sat)).length 0
/-- VADD (R168, R219). -/
def execVadd (n : Nat) (i : TI) (s : State) : Host.Outcome State Fault Refusal := issueReg n 0x62 i (vecTile 0 i) s
/-- VSUB (R168, R219). -/
def execVsub (n : Nat) (i : TI) (s : State) : Host.Outcome State Fault Refusal := issueReg n 0x63 i (vecTile 1 i) s
/-- VMUL (R168, R219). -/
def execVmul (n : Nat) (i : TI) (s : State) : Host.Outcome State Fault Refusal := issueReg n 0x64 i (vecTile 2 i) s
/-- VMAX (R168, R219). -/
def execVmax (n : Nat) (i : TI) (s : State) : Host.Outcome State Fault Refusal := issueReg n 0x65 i (vecTile 3 i) s
/-- VMIN (R168, R219). -/
def execVmin (n : Nat) (i : TI) (s : State) : Host.Outcome State Fault Refusal := issueReg n 0x66 i (vecTile 4 i) s
/-- VEXP2 (R220). -/
def execVexp2 (n : Nat) (i : TI) (s : State) : Host.Outcome State Fault Refusal :=
  issueReg n 0x67 i (fun t => t.setV i.d (vecOf 32 ((elems 32 (t.V i.a).toNat).map exp2F32))) s
/-- VBCAST (R160, R198). -/
def execVbcast (n : Nat) (i : TI) (s : State) : Host.Outcome State Fault Refusal :=
  issueReg n 0x68 i (fun t =>
    let w := container i.fmt.toNat
    t.setV i.d (vecOf w (List.replicate (512 / w) (fixContainer i.fmt.toNat (t.S i.a).toNat)))) s
/-- VRED (R168, R219). -/
def execVred (n : Nat) (i : TI) (s : State) : Host.Outcome State Fault Refusal :=
  issueReg n 0x70 i (fun t =>
    let fmt := i.fmt.toNat
    let xs := (elems (container fmt) (t.V i.a).toNat).map fun x => (convert fmt 0 .rne false x).code
    t.setS i.d (BitVec.ofNat 64 (reduceF32 (immBits i 1 0) xs))) s
/-- AROW (R168, R219). -/
def execArow (n : Nat) (i : TI) (s : State) : Host.Outcome State Fault Refusal :=
  issueReg n 0x71 i (fun t =>
    let row := fun (k : Nat) => reduceF32 (immBits i 1 0)
      ((List.range 4).map fun j => (convert 0 0 .rne false (accElem (t.A i.a) k j)).code)
    t.setV i.d (vecOf 32 ((List.range 4).map row))) s

end Sys2Proof.Machine
end

