-- ==== Sys2Proof/Machine/Dispatch.lean ====
section
/-! DEFINITION. The dispatch: one arm per command of the table, each one call of that command's meaning. -/
namespace Sys2Proof.Machine

/-- The effect of one command on everything but the queue. -/
def exec (i : Instr) (s : State) : Host.Outcome State Fault Refusal :=
  match i with
  | .doorbell n value => Sys2Proof.Machine.execDoorbell n value s
  | .ringFetch n => Sys2Proof.Machine.execRingFetch n s
  | .ringEnable n cfg => Sys2Proof.Machine.execRingEnable n cfg s
  | .ringDisable n cfg => Sys2Proof.Machine.execRingDisable n cfg s
  | .ringDisableComplete n => Sys2Proof.Machine.execRingDisableComplete n s
  | .ringFlush n => Sys2Proof.Machine.execRingFlush n s
  | .ringResume n => Sys2Proof.Machine.execRingResume n s
  | .ringStop n => Sys2Proof.Machine.execRingStop n s
  | .nop k => Sys2Proof.Machine.execNop k s
  | .memRead c => Sys2Proof.Machine.execMemRead c s
  | .memWrite c => Sys2Proof.Machine.execMemWrite c s
  | .memAtomic c => Sys2Proof.Machine.execMemAtomic c s
  | .memCas c => Sys2Proof.Machine.execMemCas c s
  | .cancel c => Sys2Proof.Machine.execCancel c s
  | .capQuery c => Sys2Proof.Machine.execCapQuery c s
  | .waitLimitExpiry k => Sys2Proof.Machine.execWaitLimitExpiry k s
  | .retryTokenExpiry token => Sys2Proof.Machine.execRetryTokenExpiry token s
  | .yellowWithdrawal k => Sys2Proof.Machine.execYellowWithdrawal k s
  | .refusalDelayExpiry k => Sys2Proof.Machine.execRefusalDelayExpiry k s
  | .operationStart k => Sys2Proof.Machine.execOperationStart k s
  | .granuleComplete k => Sys2Proof.Machine.execGranuleComplete k s
  | .faultRecordWrite fid => Sys2Proof.Machine.execFaultRecordWrite fid s
  | .xltFaultEscalation fid => Sys2Proof.Machine.execXltFaultEscalation fid s
  | .rangeCreate c => Sys2Proof.Machine.execRangeCreate c s
  | .rangeDestroy c => Sys2Proof.Machine.execRangeDestroy c s
  | .rangeQuery c => Sys2Proof.Machine.execRangeQuery c s
  | .advise c => Sys2Proof.Machine.execAdvise c s
  | .prefetch c => Sys2Proof.Machine.execPrefetch c s
  | .xltS1Root c => Sys2Proof.Machine.execXltS1Root c s
  | .xltInvalidate c => Sys2Proof.Machine.execXltInvalidate c s
  | .xltFaultResume c => Sys2Proof.Machine.execXltFaultResume c s
  | .xltCommit c => Sys2Proof.Machine.execXltCommit c s
  | .tenantClaim t => Sys2Proof.Machine.execTenantClaim t s
  | .tenantRelease sess t => Sys2Proof.Machine.execTenantRelease sess t s
  | .tenantScrubComplete p => Sys2Proof.Machine.execTenantScrubComplete p s
  | .hostSet sess hid entry => Sys2Proof.Machine.execHostSet sess hid entry s
  | .hostClear sess hid => Sys2Proof.Machine.execHostClear sess hid s
  | .grantSet sess hid rid rights => Sys2Proof.Machine.execGrantSet sess hid rid rights s
  | .isoCommit sess => Sys2Proof.Machine.execIsoCommit sess s
  | .bindsetLoad sess m => Sys2Proof.Machine.execBindsetLoad sess m s
  | .weightUnwrap sess src dst hid => Sys2Proof.Machine.execWeightUnwrap sess src dst hid s
  | .weightClear sess dst => Sys2Proof.Machine.execWeightClear sess dst s
  | .logRead sess first count => Sys2Proof.Machine.execLogRead sess first count s
  | .getVersion p => Sys2Proof.Machine.execGetVersion p s
  | .getCapabilities p => Sys2Proof.Machine.execGetCapabilities p s
  | .negotiateAlgorithms p => Sys2Proof.Machine.execNegotiateAlgorithms p s
  | .getDigests p => Sys2Proof.Machine.execGetDigests p s
  | .getCertificate p slot offset len => Sys2Proof.Machine.execGetCertificate p slot offset len s
  | .challenge p nonce => Sys2Proof.Machine.execChallenge p nonce s
  | .getMeasurements p index => Sys2Proof.Machine.execGetMeasurements p index s
  | .keyExchange p exchange => Sys2Proof.Machine.execKeyExchange p exchange s
  | .finish p sess key proof => Sys2Proof.Machine.execFinish p sess key proof s
  | .endSession sess => Sys2Proof.Machine.execEndSession sess s
  | .heartbeat sess => Sys2Proof.Machine.execHeartbeat sess s
  | .keyUpdate sess => Sys2Proof.Machine.execKeyUpdate sess s
  | .qosMeterSet c => Sys2Proof.Machine.execQosMeterSet c s
  | .qosMeterQuery c => Sys2Proof.Machine.execQosMeterQuery c s
  | .qosChannelSet c => Sys2Proof.Machine.execQosChannelSet c s
  | .qosTcWeights c => Sys2Proof.Machine.execQosTcWeights c s
  | .schedSelect pt => Sys2Proof.Machine.execSchedSelect pt s
  | .queueSample => Sys2Proof.Machine.execQueueSample s
  | .histSnap value => Sys2Proof.Machine.execHistSnap value s
  | .histSnapshotDone => Sys2Proof.Machine.execHistSnapshotDone s
  | .histClearAll value => Sys2Proof.Machine.execHistClearAll value s
  | .halt t ix => Sys2Proof.Machine.execHalt t ix s
  | .trap t ix => Sys2Proof.Machine.execTrap t ix s
  | .br t ix => Sys2Proof.Machine.execBr t ix s
  | .bcc t ix => Sys2Proof.Machine.execBcc t ix s
  | .lseti t ix => Sys2Proof.Machine.execLseti t ix s
  | .lset t ix => Sys2Proof.Machine.execLset t ix s
  | .loop t ix => Sys2Proof.Machine.execLoop t ix s
  | .gran t ix => Sys2Proof.Machine.execGran t ix s
  | .sadd t ix => Sys2Proof.Machine.execSadd t ix s
  | .ssub t ix => Sys2Proof.Machine.execSsub t ix s
  | .smul t ix => Sys2Proof.Machine.execSmul t ix s
  | .sand t ix => Sys2Proof.Machine.execSand t ix s
  | .sor t ix => Sys2Proof.Machine.execSor t ix s
  | .sxor t ix => Sys2Proof.Machine.execSxor t ix s
  | .saddi t ix => Sys2Proof.Machine.execSaddi t ix s
  | .sshl t ix => Sys2Proof.Machine.execSshl t ix s
  | .sshr t ix => Sys2Proof.Machine.execSshr t ix s
  | .ssra t ix => Sys2Proof.Machine.execSsra t ix s
  | .smovi t ix => Sys2Proof.Machine.execSmovi t ix s
  | .smovhi t ix => Sys2Proof.Machine.execSmovhi t ix s
  | .gets t ix => Sys2Proof.Machine.execGets t ix s
  | .vld t ix => Sys2Proof.Machine.execVld t ix s
  | .vst t ix => Sys2Proof.Machine.execVst t ix s
  | .ald t ix => Sys2Proof.Machine.execAld t ix s
  | .ast t ix => Sys2Proof.Machine.execAst t ix s
  | .sld t ix => Sys2Proof.Machine.execSld t ix s
  | .sst t ix => Sys2Proof.Machine.execSst t ix s
  | .mma t ix => Sys2Proof.Machine.execMma t ix s
  | .macCheck t shadow => Sys2Proof.Machine.execMacCheck t shadow s
  | .azero t ix => Sys2Proof.Machine.execAzero t ix s
  | .aadd t ix => Sys2Proof.Machine.execAadd t ix s
  | .amulv t ix => Sys2Proof.Machine.execAmulv t ix s
  | .amovv t ix => Sys2Proof.Machine.execAmovv t ix s
  | .vmova t ix => Sys2Proof.Machine.execVmova t ix s
  | .cvt t ix => Sys2Proof.Machine.execCvt t ix s
  | .vamax t ix => Sys2Proof.Machine.execVamax t ix s
  | .scale t ix => Sys2Proof.Machine.execScale t ix s
  | .cvtq t ix => Sys2Proof.Machine.execCvtq t ix s
  | .deq t ix => Sys2Proof.Machine.execDeq t ix s
  | .seed t ix => Sys2Proof.Machine.execSeed t ix s
  | .unpk t ix => Sys2Proof.Machine.execUnpk t ix s
  | .pack t ix => Sys2Proof.Machine.execPack t ix s
  | .vcmp t ix => Sys2Proof.Machine.execVcmp t ix s
  | .vsel t ix => Sys2Proof.Machine.execVsel t ix s
  | .vadd t ix => Sys2Proof.Machine.execVadd t ix s
  | .vsub t ix => Sys2Proof.Machine.execVsub t ix s
  | .vmul t ix => Sys2Proof.Machine.execVmul t ix s
  | .vmax t ix => Sys2Proof.Machine.execVmax t ix s
  | .vmin t ix => Sys2Proof.Machine.execVmin t ix s
  | .vexp2 t ix => Sys2Proof.Machine.execVexp2 t ix s
  | .vbcast t ix => Sys2Proof.Machine.execVbcast t ix s
  | .vred t ix => Sys2Proof.Machine.execVred t ix s
  | .arow t ix => Sys2Proof.Machine.execArow t ix s
  | .dld t ix => Sys2Proof.Machine.execDld t ix s
  | .dst t ix => Sys2Proof.Machine.execDst t ix s
  | .dwait t ix => Sys2Proof.Machine.execDwait t ix s
  | .swait t ix => Sys2Proof.Machine.execSwait t ix s
  | .ssig t ix => Sys2Proof.Machine.execSsig t ix s
  | .sread t ix => Sys2Proof.Machine.execSread t ix s
  | .dmaBurstIssue t e => Sys2Proof.Machine.execDmaBurstIssue t e s
  | .dmaTransferComplete t e => Sys2Proof.Machine.execDmaTransferComplete t e s
  | .tileWaitLimit t => Sys2Proof.Machine.execTileWaitLimit t s
  | .maxCyclesExceeded t => Sys2Proof.Machine.execMaxCyclesExceeded t s
  | .progLoad c => Sys2Proof.Machine.execProgLoad c s
  | .progRun c => Sys2Proof.Machine.execProgRun c s
  | .runStart k => Sys2Proof.Machine.execRunStart k s
  | .progUnload c => Sys2Proof.Machine.execProgUnload c s
  | .progQuery c => Sys2Proof.Machine.execProgQuery c s
  | .syncUpdateApply idx => Sys2Proof.Machine.execSyncUpdateApply idx s
  | .syncConfig c => Sys2Proof.Machine.execSyncConfig c s
  | .syncRelease c => Sys2Proof.Machine.execSyncRelease c s
  | .syncSet c => Sys2Proof.Machine.execSyncSet c s
  | .syncAdd c => Sys2Proof.Machine.execSyncAdd c s
  | .syncRead c => Sys2Proof.Machine.execSyncRead c s
  | .fill c => Sys2Proof.Machine.execFill c s
  | .copy c => Sys2Proof.Machine.execCopy c s
  | .compare c => Sys2Proof.Machine.execCompare c s
  | .reduce c => Sys2Proof.Machine.execReduce c s
  | .nmoRelease c => Sys2Proof.Machine.execNmoRelease c s
  | .redSlotOpen c => Sys2Proof.Machine.execRedSlotOpen c s
  | .redContribute c => Sys2Proof.Machine.execRedContribute c s
  | .contributionArrive slot index => Sys2Proof.Machine.execContributionArrive slot index s
  | .reductionStepComplete slot => Sys2Proof.Machine.execReductionStepComplete slot s
  | .stepLimitExpiry slot => Sys2Proof.Machine.execStepLimitExpiry slot s
  | .redSlotClose c => Sys2Proof.Machine.execRedSlotClose c s
  | .redSlotQuery c => Sys2Proof.Machine.execRedSlotQuery c s
  | .attPoolOpen c => Sys2Proof.Machine.execAttPoolOpen c s
  | .attPoolClose c => Sys2Proof.Machine.execAttPoolClose c s
  | .attAppend c => Sys2Proof.Machine.execAttAppend c s
  | .attScore c => Sys2Proof.Machine.execAttScore c s
  | .attRedigest c => Sys2Proof.Machine.execAttRedigest c s
  | .galOpen c => Sys2Proof.Machine.execGalOpen c s
  | .galClose c => Sys2Proof.Machine.execGalClose c s
  | .galBegin c => Sys2Proof.Machine.execGalBegin c s
  | .galLockup c => Sys2Proof.Machine.execGalLockup c s
  | .lockupReady g => Sys2Proof.Machine.execLockupReady g s
  | .chunkHashComplete g => Sys2Proof.Machine.execChunkHashComplete g s
  | .galExport c => Sys2Proof.Machine.execGalExport c s
  | .galQuery c => Sys2Proof.Machine.execGalQuery c s
  | .rdS m => Sys2Proof.Machine.execRdS m s
  | .rdX m => Sys2Proof.Machine.execRdX m s
  | .upg m => Sys2Proof.Machine.execUpg m s
  | .wb m => Sys2Proof.Machine.execWb m s
  | .rspNp m => Sys2Proof.Machine.execRspNp m s
  | .rspAck m => Sys2Proof.Machine.execRspAck m s
  | .rspData m => Sys2Proof.Machine.execRspData m s
  | .snoopTimeout win line agent => Sys2Proof.Machine.execSnoopTimeout win line agent s
  | .cohTokenExpiry win token => Sys2Proof.Machine.execCohTokenExpiry win token s
  | .winOpen c => Sys2Proof.Machine.execWinOpen c s
  | .winClose c => Sys2Proof.Machine.execWinClose c s
  | .winReopen c => Sys2Proof.Machine.execWinReopen c s
  | .winQuery c => Sys2Proof.Machine.execWinQuery c s
  | .data p flit => Sys2Proof.Machine.execData p flit s
  | .idle p flit => Sys2Proof.Machine.execIdle p flit s
  | .replayMark p flit => Sys2Proof.Machine.execReplayMark p flit s
  | .nak p flit => Sys2Proof.Machine.execNak p flit s
  | .init p flit => Sys2Proof.Machine.execInit p flit s
  | .linkReq p flit => Sys2Proof.Machine.execLinkReq p flit s
  | .linkAck p flit => Sys2Proof.Machine.execLinkAck p flit s
  | .flitTransmit p => Sys2Proof.Machine.execFlitTransmit p s
  | .replayTimerExpiry p => Sys2Proof.Machine.execReplayTimerExpiry p s
  | .creditTimeout p ty => Sys2Proof.Machine.execCreditTimeout p ty s
  | .initTimer p => Sys2Proof.Machine.execInitTimer p s
  | .holdoffEnd p => Sys2Proof.Machine.execHoldoffEnd p s
  | .rrdData src txn bytes => Sys2Proof.Machine.execRrdData src txn bytes s
  | .rrdErr src txn code => Sys2Proof.Machine.execRrdErr src txn code s
  | .rrdTimeout txn => Sys2Proof.Machine.execRrdTimeout txn s
  | .rankSet sess rank entry => Sys2Proof.Machine.execRankSet sess rank entry s
  | .rankClear sess rank => Sys2Proof.Machine.execRankClear sess rank s
  | .cktSet sess port id entry => Sys2Proof.Machine.execCktSet sess port id entry s
  | .cktClear sess port id => Sys2Proof.Machine.execCktClear sess port id s
  | .routeCommit sess => Sys2Proof.Machine.execRouteCommit sess s
  | .drainComplete => Sys2Proof.Machine.execDrainComplete s
  | .drainTimeout => Sys2Proof.Machine.execDrainTimeout s
  | .rankMoveBackRetry rank => Sys2Proof.Machine.execRankMoveBackRetry rank s
  | .selfRank sess rank => Sys2Proof.Machine.execSelfRank sess rank s
  | .rflCtrlRetrain p => Sys2Proof.Machine.execRflCtrlRetrain p s
  | .rflCtrlDown p => Sys2Proof.Machine.execRflCtrlDown p s
  | .rflCtrlUp p => Sys2Proof.Machine.execRflCtrlUp p s
  | .laneSignalDetect p n => Sys2Proof.Machine.execLaneSignalDetect p n s
  | .cap p n msg => Sys2Proof.Machine.execCap p n msg s
  | .eq p n msg => Sys2Proof.Machine.execEq p n msg s
  | .step p n msg => Sys2Proof.Machine.execStep p n msg s
  | .check p n msg => Sys2Proof.Machine.execCheck p n msg s
  | .align p n msg => Sys2Proof.Machine.execAlign p n msg s
  | .checkPeriodEnd p errors => Sys2Proof.Machine.execCheckPeriodEnd p errors s
  | .trainStateTimeout p => Sys2Proof.Machine.execTrainStateTimeout p s
  | .retrainTimeout p => Sys2Proof.Machine.execRetrainTimeout p s
  | .registerMark p n symbols check => Sys2Proof.Machine.execRegisterMark p n symbols check s
  | .laneFailure p n cause => Sys2Proof.Machine.execLaneFailure p n cause s
  | .loopbackNearSerial p value => Sys2Proof.Machine.execLoopbackNearSerial p value s
  | .loopbackNearParallel p value => Sys2Proof.Machine.execLoopbackNearParallel p value s
  | .loopbackFarRequest p value => Sys2Proof.Machine.execLoopbackFarRequest p value s
  | .loopbackEnd p value => Sys2Proof.Machine.execLoopbackEnd p value s
  | .farEndSignalLoss p => Sys2Proof.Machine.execFarEndSignalLoss p s
  | .channelIssue u => Sys2Proof.Machine.execChannelIssue u s
  | .rowIdleClose u rank bank => Sys2Proof.Machine.execRowIdleClose u rank bank s
  | .refreshDue u rank => Sys2Proof.Machine.execRefreshDue u rank s
  | .scrubLine u => Sys2Proof.Machine.execScrubLine u s
  | .remapInstall u e value => Sys2Proof.Machine.execRemapInstall u e value s
  | .remapRemove u e value => Sys2Proof.Machine.execRemapRemove u e value s
  | .remapCopyComplete u e => Sys2Proof.Machine.execRemapCopyComplete u e s
  | .park p value => Sys2Proof.Machine.execPark p value s
  | .parkComplete p => Sys2Proof.Machine.execParkComplete p s
  | .unpark p value => Sys2Proof.Machine.execUnpark p value s
  | .zeroFillComplete p cream => Sys2Proof.Machine.execZeroFillComplete p cream s
  | .trainingRunStart stack ix value => Sys2Proof.Machine.execTrainingRunStart stack ix value s
  | .trainingRunDone stack ix failLo failHi => Sys2Proof.Machine.execTrainingRunDone stack ix failLo failHi s
  | .injectArm stack ix value => Sys2Proof.Machine.execInjectArm stack ix value s
  | .partitionTrainingComplete p r => Sys2Proof.Machine.execPartitionTrainingComplete p r s
  | .pairQuery c => Sys2Proof.Machine.execPairQuery c s
  | .pairForm c => Sys2Proof.Machine.execPairForm c s
  | .pairSwitch c => Sys2Proof.Machine.execPairSwitch c s
  | .pairBreak c => Sys2Proof.Machine.execPairBreak c s
  | .pairResync c => Sys2Proof.Machine.execPairResync c s
  | .resyncCut => Sys2Proof.Machine.execResyncCut s
  | .tokenRecord r => Sys2Proof.Machine.execTokenRecord r s
  | .eventRecord r => Sys2Proof.Machine.execEventRecord r s
  | .digestRecord r => Sys2Proof.Machine.execDigestRecord r s
  | .heartbeatRecord r => Sys2Proof.Machine.execHeartbeatRecord r s
  | .noticeRecord r => Sys2Proof.Machine.execNoticeRecord r s
  | .replySentRecord r => Sys2Proof.Machine.execReplySentRecord r s
  | .forwardedTenantRequest code body => Sys2Proof.Machine.execForwardedTenantRequest code body s
  | .rangeDigestList entries => Sys2Proof.Machine.execRangeDigestList entries s
  | .resynchronisationData ppa bytes => Sys2Proof.Machine.execResynchronisationData ppa bytes s
  | .mirrorHeartbeatTimer => Sys2Proof.Machine.execMirrorHeartbeatTimer s
  | .intervalCut => Sys2Proof.Machine.execIntervalCut s
  | .intervalClose n => Sys2Proof.Machine.execIntervalClose n s
  | .tokenMissingTimeout seq => Sys2Proof.Machine.execTokenMissingTimeout seq s
  | .orphanTimeout k => Sys2Proof.Machine.execOrphanTimeout k s
  | .lagTimeout => Sys2Proof.Machine.execLagTimeout s
  | .digestLate n => Sys2Proof.Machine.execDigestLate n s
  | .mirSilentTimeout => Sys2Proof.Machine.execMirSilentTimeout s
  | .peerSilentTimeout => Sys2Proof.Machine.execPeerSilentTimeout s
  | .peerAliveEdge => Sys2Proof.Machine.execPeerAliveEdge s
  | .faultReport unit prot detail info => Sys2Proof.Machine.execFaultReport unit prot detail info s
  | .brokenWire unit => Sys2Proof.Machine.execBrokenWire unit s
  | .dumpComplete p => Sys2Proof.Machine.execDumpComplete p s
  | .selfRefreshConfirm p ctl => Sys2Proof.Machine.execSelfRefreshConfirm p ctl s
  | .partitionReturn p => Sys2Proof.Machine.execPartitionReturn p s
  | .deviceRecoveryComplete => Sys2Proof.Machine.execDeviceRecoveryComplete s
  | .quietEnd unit => Sys2Proof.Machine.execQuietEnd unit s
  | .escalation unit => Sys2Proof.Machine.execEscalation unit s
  | .recoveryWindowEnd unit => Sys2Proof.Machine.execRecoveryWindowEnd unit s
  | .watchdogExpiry wd unit => Sys2Proof.Machine.execWatchdogExpiry wd unit s
  | .aliveToggle => Sys2Proof.Machine.execAliveToggle s
  | .clockMonitorWindow island count => Sys2Proof.Machine.execClockMonitorWindow island count s
  | .pllRelockComplete island => Sys2Proof.Machine.execPllRelockComplete island s
  | .fltOffline value => Sys2Proof.Machine.execFltOffline value s
  | .fltReturn value => Sys2Proof.Machine.execFltReturn value s
  | .fltBist value => Sys2Proof.Machine.execFltBist value s
  | .fltClearCount value => Sys2Proof.Machine.execFltClearCount value s
  | .bistComplete fails => Sys2Proof.Machine.execBistComplete fails s
  | .coreRestartComplete unit => Sys2Proof.Machine.execCoreRestartComplete unit s
  | .fwStage c => Sys2Proof.Machine.execFwStage c s
  | .fwCommit c => Sys2Proof.Machine.execFwCommit c s
  | .fwProgramComplete flashOk => Sys2Proof.Machine.execFwProgramComplete flashOk s
  | .fwStatus c => Sys2Proof.Machine.execFwStatus c s
  | .fwActivate c => Sys2Proof.Machine.execFwActivate c s
  | .fwConfirm c => Sys2Proof.Machine.execFwConfirm c s
  | .pwrBudgetSet c => Sys2Proof.Machine.execPwrBudgetSet c s
  | .pwrQuery c => Sys2Proof.Machine.execPwrQuery c s
  | .siteCapSet watts => Sys2Proof.Machine.execSiteCapSet watts s
  | .hello m => Sys2Proof.Machine.execHello m s
  | .versionQuery m => Sys2Proof.Machine.execVersionQuery m s
  | .fwChunk m => Sys2Proof.Machine.execFwChunk m s
  | .fwRomCommit m => Sys2Proof.Machine.execFwRomCommit m s
  | .mbxF2hValidClear value => Sys2Proof.Machine.execMbxF2hValidClear value s
  | .energySample mj => Sys2Proof.Machine.execEnergySample mj s
  | .energyBucket => Sys2Proof.Machine.execEnergyBucket s
  | .plannerEpoch unres => Sys2Proof.Machine.execPlannerEpoch unres s
  | .thermalSample temps => Sys2Proof.Machine.execThermalSample temps s
  | .thermalTrip sensor temp => Sys2Proof.Machine.execThermalTrip sensor temp s
  | .bootStageComplete slotValid => Sys2Proof.Machine.execBootStageComplete slotValid s
  | .bootStageTimeout => Sys2Proof.Machine.execBootStageTimeout s
  | .strapSample sample => Sys2Proof.Machine.execStrapSample sample s
  | .msixRearm value => Sys2Proof.Machine.execMsixRearm value s
  | .synCountLoRead fn ix => Sys2Proof.Machine.execSynCountLoRead fn ix s
  | .mirSeqLoRead fn => Sys2Proof.Machine.execMirSeqLoRead fn s
  | .pwrELoRead fn d => Sys2Proof.Machine.execPwrELoRead fn d s
  | .glbDeviceIdLoRead fn => Sys2Proof.Machine.execGlbDeviceIdLoRead fn s
  | .glbCapLoRead fn => Sys2Proof.Machine.execGlbCapLoRead fn s
  | .glbTimeLoRead fn => Sys2Proof.Machine.execGlbTimeLoRead fn s
  | .fltDumpSkippedRead fn event => Sys2Proof.Machine.execFltDumpSkippedRead fn event s
  | .registerWrite fn addr value be => Sys2Proof.Machine.execRegisterWrite fn addr value be s
  | .powerUp => Sys2Proof.Machine.execPowerUp s
  | .resetNAssert => Sys2Proof.Machine.execResetNAssert s
  | .resetNRelease => Sys2Proof.Machine.execResetNRelease s
  | .resetHeld => Sys2Proof.Machine.execResetHeld s
  | .pwrgdFall => Sys2Proof.Machine.execPwrgdFall s
  | .pwrgdRise => Sys2Proof.Machine.execPwrgdRise s
  | .perstNAssert => Sys2Proof.Machine.execPerstNAssert s
  | .perstNRelease => Sys2Proof.Machine.execPerstNRelease s
  | .functionLevelReset => Sys2Proof.Machine.execFunctionLevelReset s
  | .smbusReceiveByte => Sys2Proof.Machine.execSmbusReceiveByte s
  | .smbusSendByte b => Sys2Proof.Machine.execSmbusSendByte b s
  | .frameLock p n => Sys2Proof.Machine.execFrameLock p n s
  | .detectWindowEnd p => Sys2Proof.Machine.execDetectWindowEnd p s
  | .prbsCheckerLock p found => Sys2Proof.Machine.execPrbsCheckerLock p found s
  | .quiesceDeadline p => Sys2Proof.Machine.execQuiesceDeadline p s
  | .resetHoldEnd p => Sys2Proof.Machine.execResetHoldEnd p s
  | .coreHeartbeat unit => Sys2Proof.Machine.execCoreHeartbeat unit s
  | .weightChunkComplete rid chunk => Sys2Proof.Machine.execWeightChunkComplete rid chunk s
  | .tdispRequest iface m => Sys2Proof.Machine.execTdispRequest iface m s
  | .ideKmRequest sess stream on => Sys2Proof.Machine.execIdeKmRequest sess stream on s
  | .vddSafLoss => Sys2Proof.Machine.execVddSafLoss s

end Sys2Proof.Machine
end

