-- ==== Sys2Proof/WellFormed.lean ====
section
/-! DEFINITION. Well-formed commands: every instance an operand names exists (R12, R426), and every message has its length (R39,
R57, R312). -/
namespace Sys2Proof

/-- Ring, partition, tile, port, lane and PCIe function numbers (R12, R74, R128). -/
def ringWf (n : Nat) : Bool := decide (n < 1024)
def partWf (p : Nat) : Bool := decide (p < 8)
def tileWf (t : Nat) : Bool := decide (t < 10240)
def portWf (p : Nat) : Bool := decide (p < 14)
def laneWf (n : Nat) : Bool := decide (n < 9)
def fnWf (fn : Nat) : Bool := decide (fn ≤ 16)
/-- A channel block or a stack block (R390). -/
def blkWf (stack : Bool) (i : Nat) : Bool := decide (i < if stack then 8 else 32)
/-- How many units each class of R426 has. -/
def unitCounts : List Nat := [0, 1, 8, 10240, 40, 3, 32, 256, 288, 80, 14, 1, 1, 1, 141, 3, 64, 1, 4, 256, 1]
/-- A unit name of R426: the class in the top byte, the index below. -/
def unitWf (u : W32) : Bool := decide (u.toNat % 2 ^ 24 < unitCounts.getD (u.toNat / 2 ^ 24) 0)
/-- A core that restarts and writes heartbeats (R463, R465): a CTL core, or SEC, PMC or SCH. -/
def coreWf (u : W32) : Bool := unitWf u && (u.toNat / 2 ^ 24 == 4 || u.toNat / 2 ^ 24 == 5)
/-- The classes of units that a watchdog of R433 watches; WD 4 watches the readers of every crossing. -/
def watched (wd : Nat) : List Nat := [[], [3], [9], [6, 7], [], [0xA], [0xB], [4], [5], [0x13]].getD wd []
/-- A watchdog of R433 and a unit that it watches. -/
def watchWf (wd : Nat) (u : W32) : Bool := unitWf u && ((watched wd).contains (u.toNat / 2 ^ 24) || wd == 4)

/-- A command packet: its channel exists, a ring's comes over PCIe and a rank's over a port, and at most 4,096 bytes follow (R36, R57). -/
def CmdIn.wf (c : CmdIn) : Bool :=
  (match c.chan with
    | .ring n => ringWf n && c.port == 14
    | .rank r => decide (r < 2 ^ 20) && portWf c.port) && decide (c.data.length ≤ 4096)
/-- NOP as a command or as a tile instruction. -/
def NopKind.wf : NopKind → Bool
  | .cmd c => c.wf
  | .tile t _ => tileWf t
/-- A coherence message: its window exists, and its fields have their widths (R297). -/
def CohMsg.wf (m : CohMsg) : Bool := decide (m.win < 64) && decide (m.txn < 4096) && decide (m.token < 65536)
/-- A subchannel or a pseudo-channel (R360). -/
def MemUnit.wf : MemUnit → Bool
  | .sub d s => decide (d < 32) && decide (s < 2)
  | .pc h n => decide (h < 8) && decide (n < 32)

/-- Is the command well-formed? -/
def Instr.wf : Instr → Bool
  | .doorbell n _ => ringWf n
  | .ringFetch n => ringWf n
  | .ringEnable n _ => ringWf n
  | .ringDisable n _ => ringWf n
  | .ringDisableComplete n => ringWf n
  | .ringFlush n => ringWf n
  | .ringResume n => ringWf n
  | .ringStop n => ringWf n
  | .nop k => k.wf
  | .memRead c => c.wf
  | .memWrite c => c.wf
  | .memAtomic c => c.wf
  | .memCas c => c.wf
  | .cancel c => c.wf
  | .capQuery c => c.wf
  | .waitLimitExpiry _ => true
  | .retryTokenExpiry _ => true
  | .yellowWithdrawal _ => true
  | .refusalDelayExpiry _ => true
  | .operationStart _ => true
  | .granuleComplete _ => true
  | .faultRecordWrite _ => true
  | .xltFaultEscalation _ => true
  | .rangeCreate c => c.wf
  | .rangeDestroy c => c.wf
  | .rangeQuery c => c.wf
  | .advise c => c.wf
  | .prefetch c => c.wf
  | .xltS1Root c => c.wf
  | .xltInvalidate c => c.wf
  | .xltFaultResume c => c.wf
  | .xltCommit c => c.wf
  | .tenantClaim _ => true
  | .tenantRelease _ _ => true
  | .tenantScrubComplete p => partWf p
  | .hostSet _ _ _ => true
  | .hostClear _ _ => true
  | .grantSet _ _ _ _ => true
  | .isoCommit _ => true
  | .bindsetLoad _ _ => true
  | .weightUnwrap _ _ _ _ => true
  | .weightClear _ _ => true
  | .logRead _ _ _ => true
  | .getVersion _ => true
  | .getCapabilities _ => true
  | .negotiateAlgorithms _ => true
  | .getDigests _ => true
  | .getCertificate _ _ _ _ => true
  | .challenge _ _ => true
  | .getMeasurements _ _ => true
  | .keyExchange _ _ => true
  | .finish _ _ _ _ => true
  | .endSession _ => true
  | .heartbeat _ => true
  | .keyUpdate _ => true
  | .qosMeterSet c => c.wf
  | .qosMeterQuery c => c.wf
  | .qosChannelSet c => c.wf
  | .qosTcWeights c => c.wf
  | .schedSelect pt => decide (pt ≤ 94)
  | .queueSample => true
  | .histSnap _ => true
  | .histSnapshotDone => true
  | .histClearAll _ => true
  | .halt t _ => tileWf t
  | .trap t _ => tileWf t
  | .br t _ => tileWf t
  | .bcc t _ => tileWf t
  | .lseti t _ => tileWf t
  | .lset t _ => tileWf t
  | .loop t _ => tileWf t
  | .gran t _ => tileWf t
  | .sadd t _ => tileWf t
  | .ssub t _ => tileWf t
  | .smul t _ => tileWf t
  | .sand t _ => tileWf t
  | .sor t _ => tileWf t
  | .sxor t _ => tileWf t
  | .saddi t _ => tileWf t
  | .sshl t _ => tileWf t
  | .sshr t _ => tileWf t
  | .ssra t _ => tileWf t
  | .smovi t _ => tileWf t
  | .smovhi t _ => tileWf t
  | .gets t _ => tileWf t
  | .vld t _ => tileWf t
  | .vst t _ => tileWf t
  | .ald t _ => tileWf t
  | .ast t _ => tileWf t
  | .sld t _ => tileWf t
  | .sst t _ => tileWf t
  | .mma t _ => tileWf t
  | .macCheck t _ => tileWf t
  | .azero t _ => tileWf t
  | .aadd t _ => tileWf t
  | .amulv t _ => tileWf t
  | .amovv t _ => tileWf t
  | .vmova t _ => tileWf t
  | .cvt t _ => tileWf t
  | .vamax t _ => tileWf t
  | .scale t _ => tileWf t
  | .cvtq t _ => tileWf t
  | .deq t _ => tileWf t
  | .seed t _ => tileWf t
  | .unpk t _ => tileWf t
  | .pack t _ => tileWf t
  | .vcmp t _ => tileWf t
  | .vsel t _ => tileWf t
  | .vadd t _ => tileWf t
  | .vsub t _ => tileWf t
  | .vmul t _ => tileWf t
  | .vmax t _ => tileWf t
  | .vmin t _ => tileWf t
  | .vexp2 t _ => tileWf t
  | .vbcast t _ => tileWf t
  | .vred t _ => tileWf t
  | .arow t _ => tileWf t
  | .dld t _ => tileWf t
  | .dst t _ => tileWf t
  | .dwait t _ => tileWf t
  | .swait t _ => tileWf t
  | .ssig t _ => tileWf t
  | .sread t _ => tileWf t
  | .dmaBurstIssue t _ => tileWf t
  | .dmaTransferComplete t _ => tileWf t
  | .tileWaitLimit t => tileWf t
  | .maxCyclesExceeded t => tileWf t
  | .progLoad c => c.wf
  | .progRun c => c.wf
  | .runStart _ => true
  | .progUnload c => c.wf
  | .progQuery c => c.wf
  | .syncUpdateApply idx => decide (idx < 16384)
  | .syncConfig c => c.wf
  | .syncRelease c => c.wf
  | .syncSet c => c.wf
  | .syncAdd c => c.wf
  | .syncRead c => c.wf
  | .fill c => c.wf
  | .copy c => c.wf
  | .compare c => c.wf
  | .reduce c => c.wf
  | .nmoRelease c => c.wf
  | .redSlotOpen c => c.wf
  | .redContribute c => c.wf
  | .contributionArrive slot _ => decide (slot < 256)
  | .reductionStepComplete slot => decide (slot < 256)
  | .stepLimitExpiry slot => decide (slot < 256)
  | .redSlotClose c => c.wf
  | .redSlotQuery c => c.wf
  | .attPoolOpen c => c.wf
  | .attPoolClose c => c.wf
  | .attAppend c => c.wf
  | .attScore c => c.wf
  | .attRedigest c => c.wf
  | .galOpen c => c.wf
  | .galClose c => c.wf
  | .galBegin c => c.wf
  | .galLockup c => c.wf
  | .lockupReady g => decide (1 ≤ g) && decide (g ≤ 16)
  | .chunkHashComplete g => decide (1 ≤ g) && decide (g ≤ 16)
  | .galExport c => c.wf
  | .galQuery c => c.wf
  | .rdS m => m.wf
  | .rdX m => m.wf
  | .upg m => m.wf
  | .wb m => m.wf
  | .rspNp m => m.wf
  | .rspAck m => m.wf
  | .rspData m => m.wf
  | .snoopTimeout win _ _ => decide (win < 64)
  | .cohTokenExpiry win _ => decide (win < 64)
  | .winOpen c => c.wf
  | .winClose c => c.wf
  | .winReopen c => c.wf
  | .winQuery c => c.wf
  | .data p flit => portWf p && decide (flit.length = 256)
  | .idle p flit => portWf p && decide (flit.length = 256)
  | .replayMark p flit => portWf p && decide (flit.length = 256)
  | .nak p flit => portWf p && decide (flit.length = 256)
  | .init p flit => portWf p && decide (flit.length = 256)
  | .linkReq p flit => portWf p && decide (flit.length = 256)
  | .linkAck p flit => portWf p && decide (flit.length = 256)
  | .flitTransmit p => portWf p
  | .replayTimerExpiry p => portWf p
  | .creditTimeout p ty => portWf p && decide (ty < 6)
  | .initTimer p => portWf p
  | .holdoffEnd p => portWf p
  | .rrdData _ _ _ => true
  | .rrdErr _ _ _ => true
  | .rrdTimeout _ => true
  | .rankSet _ _ _ => true
  | .rankClear _ _ => true
  | .cktSet _ _ _ _ => true
  | .cktClear _ _ _ => true
  | .routeCommit _ => true
  | .drainComplete => true
  | .drainTimeout => true
  | .rankMoveBackRetry _ => true
  | .selfRank _ _ => true
  | .rflCtrlRetrain p => portWf p
  | .rflCtrlDown p => portWf p
  | .rflCtrlUp p => portWf p
  | .laneSignalDetect p n => portWf p && laneWf n
  | .cap p n _ => portWf p && laneWf n
  | .eq p n _ => portWf p && laneWf n
  | .step p n _ => portWf p && laneWf n
  | .check p n _ => portWf p && laneWf n
  | .align p n _ => portWf p && laneWf n
  | .checkPeriodEnd p _ => portWf p
  | .trainStateTimeout p => portWf p
  | .retrainTimeout p => portWf p
  | .registerMark p n _ _ => portWf p && laneWf n
  | .laneFailure p n cause => portWf p && laneWf n && decide (1 ≤ cause) && decide (cause ≤ 4)
  | .loopbackNearSerial p _ => portWf p
  | .loopbackNearParallel p _ => portWf p
  | .loopbackFarRequest p _ => portWf p
  | .loopbackEnd p _ => portWf p
  | .farEndSignalLoss p => portWf p
  | .channelIssue u => u.wf
  | .rowIdleClose u _ bank => u.wf && decide (bank < 32)
  | .refreshDue u _ => u.wf
  | .scrubLine u => u.wf
  | .remapInstall u e _ => u.wf && decide (e < 16)
  | .remapRemove u e _ => u.wf && decide (e < 16)
  | .remapCopyComplete u e => u.wf && decide (e < 16)
  | .park p _ => partWf p
  | .parkComplete p => partWf p
  | .unpark p _ => partWf p
  | .zeroFillComplete p _ => partWf p
  | .trainingRunStart stack i _ => blkWf stack i
  | .trainingRunDone stack i _ _ => blkWf stack i
  | .injectArm stack i _ => blkWf stack i
  | .partitionTrainingComplete p _ => partWf p
  | .pairQuery c => c.wf
  | .pairForm c => c.wf
  | .pairSwitch c => c.wf
  | .pairBreak c => c.wf
  | .pairResync c => c.wf
  | .resyncCut => true
  | .tokenRecord _ => true
  | .eventRecord _ => true
  | .digestRecord _ => true
  | .heartbeatRecord _ => true
  | .noticeRecord _ => true
  | .replySentRecord _ => true
  | .forwardedTenantRequest _ _ => true
  | .rangeDigestList _ => true
  | .resynchronisationData _ bytes => decide (bytes.length = 4096)
  | .mirrorHeartbeatTimer => true
  | .intervalCut => true
  | .intervalClose _ => true
  | .tokenMissingTimeout _ => true
  | .orphanTimeout _ => true
  | .lagTimeout => true
  | .digestLate _ => true
  | .mirSilentTimeout => true
  | .peerSilentTimeout => true
  | .peerAliveEdge => true
  | .faultReport unit _ _ _ => unitWf unit
  | .brokenWire unit => unitWf unit
  | .dumpComplete p => partWf p
  | .selfRefreshConfirm p ctl => partWf p && decide (ctl < 5)
  | .partitionReturn p => partWf p
  | .deviceRecoveryComplete => true
  | .quietEnd unit => unitWf unit
  | .escalation unit => unitWf unit
  | .recoveryWindowEnd unit => unitWf unit
  | .watchdogExpiry wd unit => watchWf wd unit
  | .aliveToggle => true
  | .clockMonitorWindow island _ => decide (island < 140)
  | .pllRelockComplete island => decide (island < 140)
  | .fltOffline _ => true
  | .fltReturn _ => true
  | .fltBist _ => true
  | .fltClearCount _ => true
  | .bistComplete _ => true
  | .coreRestartComplete unit => coreWf unit
  | .fwStage c => c.wf
  | .fwCommit c => c.wf
  | .fwProgramComplete _ => true
  | .fwStatus c => c.wf
  | .fwActivate c => c.wf
  | .fwConfirm c => c.wf
  | .pwrBudgetSet c => c.wf
  | .pwrQuery c => c.wf
  | .siteCapSet _ => true
  | .hello _ => true
  | .versionQuery _ => true
  | .fwChunk _ => true
  | .fwRomCommit _ => true
  | .mbxF2hValidClear _ => true
  | .energySample _ => true
  | .energyBucket => true
  | .plannerEpoch _ => true
  | .thermalSample _ => true
  | .thermalTrip sensor _ => decide (sensor < 13)
  | .bootStageComplete _ => true
  | .bootStageTimeout => true
  | .strapSample _ => true
  | .msixRearm _ => true
  | .synCountLoRead fn i => fnWf fn && decide (i < 16384)
  | .mirSeqLoRead fn => fnWf fn
  | .pwrELoRead fn d => fnWf fn && decide (d < 26)
  | .glbDeviceIdLoRead fn => fnWf fn
  | .glbCapLoRead fn => fnWf fn
  | .glbTimeLoRead fn => fnWf fn
  | .fltDumpSkippedRead fn _ => fnWf fn
  | .registerWrite fn _ _ _ => fnWf fn
  | .powerUp => true
  | .resetNAssert => true
  | .resetNRelease => true
  | .resetHeld => true
  | .pwrgdFall => true
  | .pwrgdRise => true
  | .perstNAssert => true
  | .perstNRelease => true
  | .functionLevelReset => true
  | .smbusReceiveByte => true
  | .smbusSendByte _ => true
  | .frameLock p n => portWf p && laneWf n
  | .detectWindowEnd p => portWf p
  | .prbsCheckerLock p found => portWf p && laneWf found.lane
  | .quiesceDeadline p => partWf p
  | .resetHoldEnd p => p.all partWf
  | .coreHeartbeat unit => coreWf unit
  | .weightChunkComplete _ _ => true
  | .tdispRequest iface _ => decide (iface ≤ 16)
  | .ideKmRequest _ _ _ => true
  | .vddSafLoss => true

end Sys2Proof
end

