-- ==== Sys2Proof/Safety.lean ====
section
/-! DEFINITION. What the claims speak of: a run of the part that goes on, the interrupt line of R481, the canonical form of the
memories, and how a command packet that passes its entry checks stands in the store when it acts. -/
namespace Sys2Proof.Machine

/-! ## Outcomes -/

/-- Does the outcome go on? -/
def goesOn (o : Host.Outcome State Fault Refusal) : Prop := ∃ t, o = .next t

/-- A state in which a next step stops with the fault of R12: the operand names no instance. -/
def stopsNoInstance (o : Host.Outcome State Fault Refusal) : Prop := o = .fault .noInstance

/-! ## INT_N (R481) and its edge (R483) -/

/-- INT_N is driven low exactly while the masked summary is not 0 or the device is in FAILED, and the edge that R483 looks for is
measured from this level. -/
def intDriven (s : State) : Prop := s.pins.intN = (intMasked s || s.flt.failed) ∧ s.intr.wasZero = !intMasked s

/-! ## Memories -/

/-- The part's memory and host memory are in canonical form. -/
def memCanonical (s : State) : Prop := Memory.wf s.mem.bytes = true ∧ Memory.wf s.mem.host = true

/-! ## Commands that pass entry (R53) -/

/-- Does the part take commands from a channel: it serves (R441, R453), it is not fenced (R411), and no pair keeps commands from it
(R395, R398)? -/
def takesCommands (s : State) : Bool := serving s && s.mir.state != 5 && !pairHeld s

/-- The packet came by a way that its channel allows: the device interface of its ring runs (R128), and its port is the one of its rank's
return route (R114). -/
def arrives (s : State) (c : CmdIn) : Prop := chanRuns s c.chan = true ∧ portCause s c.chan c.port = none

/-- A command packet arrives and passes the seven checks of R53 as `x`, in the state `s1` that its entry leaves. -/
def passes (s : State) (sp : OpSpec) (c : CmdIn) (x : Cmd) (s1 : State) : Prop :=
  takesCommands s = true ∧ arrives s c ∧ entryChecks s (some sp) c = (.pass x, s1)

/-- The command as the store takes it, and the state it is taken in: on an active its order token is sent (R396). -/
def taken (s : State) (x : Cmd) : Cmd × State :=
  let r := if memOp (opcodeOf x.raw) then ((0, 0), s) else assignToken s x.raw 1
  (if r.1.1 = 0 then x else { x with mirSeq := r.1.1, mirInt := r.1.2 }, r.2)

/-- Nothing holds the command: its wait list is met (R43), its fence satisfied (R39), its token acknowledged (R396), and the
cores that it needs work (R427). -/
def unheld (s : State) (x : Cmd) : Bool :=
  let (y, t) := taken s x
  waitsOf t y.raw == .met && !fenced t y && tokenOk t y && !heldOn t y

/-- The command acts as soon as it is accepted: no earlier ready one of its channel and priority precedes it (R60), and no data operation
waits for the supply to settle (R472). -/
def goesFirst (s : State) (x : Cmd) : Bool :=
  let (y, t) := taken s x
  !earlierReady t (tabGap t.store.cmds 0) y && !(t.pwr.hold && y.loads != [])

/-- The slot that a command takes: the lowest that is free (R38). -/
def storeSlot (s : State) (x : Cmd) : Nat := tabGap (taken s x).2.store.cmds 0

/-- The command as it stands in its slot when nothing holds it; `told`: its requester is told that it is accepted. -/
def readyCmd (s : State) (x : Cmd) (told : Bool) : Cmd := { (taken s x).1 with st := .ready, startedAt := (taken s x).2.now, told := told }

/-- The state in which the command stands ready in its slot. -/
def readyState (s : State) (x : Cmd) (told : Bool) : State :=
  let t := (taken s x).2
  { t with store := { t.store with cmds := tabIns t.store.cmds (storeSlot s x) (readyCmd s x told), seq := t.store.seq + 1 } }

/-- The state in which it waits in its slot, its requester told (R43). -/
def heldState (s : State) (x : Cmd) : State :=
  let (y, t) := taken s x
  { t with store := { t.store with cmds := tabIns t.store.cmds (storeSlot s x) { y with told := true }, seq := t.store.seq + 1 } }

/-- Has the operation a rate that its requester is told (R52, R65)? -/
def hasRate (s : State) (sp : OpSpec) (x : Cmd) : Bool := (sp.size (taken s x).2 (taken s x).1).isSome

/-- The state in which the command stands ready in its slot, and its requester has been told its rate where it has one (R52, R65). -/
def toldState (s : State) (sp : OpSpec) (x : Cmd) : State :=
  if hasRate s sp x then sendAccepted (readyState s x true) (taken s x).1 else readyState s x false

/-- A packet command that is not granular, row `i` of packet `c`: where it passes its checks, nothing holds it and none precedes it, and `H`
holds of the state it stands ready in, of its slot and of itself, the row comes to the effect `E` of these three. -/
def actsAs (i : Instr) (sp : OpSpec) (c : CmdIn) (H : State → Nat → Cmd → Prop) (E : State → Nat → Cmd → State) : Prop :=
  ∀ (s : State) (x : Cmd) (s1 : State), passes s sp c x s1 → unheld s1 x = true → goesFirst s1 x = true →
    H (toldState s1 sp x) (storeSlot s1 x) (readyCmd s1 x (hasRate s1 sp x)) →
    exec i s = .next (intEval (E (toldState s1 sp x) (storeSlot s1 x) (readyCmd s1 x (hasRate s1 sp x))))

/-- A granular packet command, row `i` of packet `c`: where it passes its checks and nothing holds it, it stands ready in its slot
and its requester is told its rate; `after` is what follows (R236). -/
def standsReady (i : Instr) (sp : OpSpec) (c : CmdIn) (after : State → State) : Prop :=
  ∀ (s : State) (x : Cmd) (s1 : State), passes s sp c x s1 → unheld s1 x = true →
    (sp.total (taken s1 x).2 (taken s1 x).1).isSome = true →
    exec i s = .next (intEval (after (sendAccepted (readyState s1 x true) (taken s1 x).1)))

/-- A hardware memory opcode reaches its memory stop: it passes its checks, belongs to no galley's reserved ingest (R280), is marked green
(R138), nothing holds it, and its address translates to memory of stop `pt`. `k` is its slot, `y` the command as it stands there, and `u`
the state. -/
def reachesStop (s : State) (sp : OpSpec) (c : CmdIn) (pt k : Nat) (y : Cmd) (u : State) : Prop :=
  ∃ (x : Cmd) (s1 s2 : State) (b : Nat), passes s sp c x s1 ∧ sp.charge x = some b ∧ ingestOf s1 x = none ∧
    chargeItem s1 x.host b = (1, s2) ∧ unheld s2 { x with color := 1 } = true ∧ goesFirst s2 { x with color := 1 } = true ∧
    k = storeSlot s2 { x with color := 1 } ∧ stopPoint (readyState s2 { x with color := 1 } false) x.host (cmdB x.raw 16 8) = some pt ∧
    y = { readyCmd s2 { x with color := 1 } false with points := [112 + 8 * pt + tcOfPrio x.prio] } ∧
    u = (readyState s2 { x with color := 1 } false).setCmd k y

/-! ## Accesses of commands without an order token (R396, R404) -/

/-- The part as such a command begins an access, and as it ends one. -/
def accessed (s : State) : State := { s with mir := { s.mir with cur := none } }
def accessing (s : State) : State := accessed (beginAccess s)

/-- A lock-up goes on with the proof of the checkpoint before (R285): it has read it, or reads it now, `fresh` bytes of it. -/
def proofAt (s : State) (g : Galley) (pl : List (List Byte)) (ps : List Nat) (u : State) (fresh : Nat) : Prop :=
  (g.prev = some (pl, ps) ∧ u = accessing s ∧ fresh = 0)
    ∨ (g.prev = none ∧ readProof (accessing s) g = (.ok (pl, ps), u) ∧ fresh = 64 + 36 * ps.length)

/-! ## The shadow directory (R97) -/

/-- The lowest RANGE_ID that no entry of either copy has (log 16). -/
def newRid (s : State) : Nat := tabGap (s.xlt.dirS.foldl (fun m e => tabIns m e.1 e.2) s.xlt.dirA) 0
/-- The entry that RANGE_CREATE makes, with its extent at offset `o`. -/
def newRange (y : Cmd) (o : Nat) : RangeE :=
  { iaStart := y.par 16 8, lenG := y.par 24 4, ceil := BitVec.ofNat 3 (y.par 30 1), ppa := ppaOf (y.par 28 1 == 1) (y.par 29 1) o }
/-- The shadow copy with an entry more, and with one less. -/
def withRange (s : State) (rid : Nat) (e : RangeE) : State := { s with xlt := { s.xlt with dirS := tabIns s.xlt.dirS rid e } }
def withoutRange (s : State) (rid : Nat) : State := { s with xlt := { s.xlt with dirS := tabDel s.xlt.dirS rid } }

/-! ## Headers of flits (R317, R318, R323) -/

/-- How many held flits the ACK of a header acknowledges, and how many credits it brings. -/
def ackCount (l : Link) (h : Nat) : Nat := (h / 2 ^ 20 % 65536 + 65536 + l.replayBuf.length - l.txSeq) % 65536
def creditCount (l : Link) (h : Nat) : Nat := (h / 2 ^ 8 % 4096 + 4096 - l.lastCnt.getD (h / 2 ^ 4 % 8) 0) % 4096
/-- Its ACK is for no more than is held, and no type gets more credit than the partner's buffers have. -/
def headerOk (l : Link) (h : Nat) : Bool :=
  decide (ackCount l h ≤ l.replayBuf.length)
    && (decide (5 < h / 2 ^ 4 % 8) || decide (l.credits.getD (h / 2 ^ 4 % 8) 0 + creditCount l h ≤ l.partAlloc.getD (h / 2 ^ 4 % 8) 0))

/-! ## Tile instructions (R160) -/

/-- Instruction `mk`, operation `op`, on a tile that issues it does `f` to the part, from every state and for every word (R160, R177). A word
with a single-bit error is mended first, and one with a double-bit error traps IFETCH_UE (R155, R178). -/
def tileDoes (mk : Nat → TI → Instr) (op : Nat) (f : State → Nat → TI → State) : Prop :=
  ∀ (s : State) (n : Nat) (i : TI), n < 10240 →
    (issues s n op i = true → exec (mk n i) s = .next (intEval (f s n i))) ∧
    (fetches s n op i = true → flips (s.tile n).fetchErr = 1 → exec (mk n i) s = .next (intEval (f (mendFetch s n) n i))) ∧
    (fetches s n op i = true → (s.tile n).fetchErr ≠ 0 → flips (s.tile n).fetchErr ≠ 1 →
      exec (mk n i) s = .next (intEval (settle (trapTile s n 3 0 0))))

/-- The same of an instruction that changes nothing but its tile: `g` gives the tile's registers, memories and counters, and PC goes to the next
instruction. -/
def tileSets (mk : Nat → TI → Instr) (op : Nat) (g : TI → Tile → Tile) : Prop :=
  tileDoes mk op fun s n i => s.setTile n (g i (s.tile n)).next

/-! ## Requests to SEC (R112) -/

/-- SEC takes the administrator's requests of this session: it serves, recovery does not run, the session is mutually authenticated with the administrator key,
and the part is in no pair. -/
def adminTakes (s : State) (sess : Option Nat) : Bool :=
  secServes s && !s.flt.recovery && secAuth s sess && s.mir.state == 0

/-- The request, in framing `via`, answers code `r.1` with body `r.2.1`, on the state `r.2.2`. -/
def answered (via : Framing) (req : Nat) (r : Nat × List Byte × State) : State := respond r.2.2 via req r.1 r.2.1

end Sys2Proof.Machine
end

