-- ==== Sys2Proof/Certificates/Slice0/Obligations.lean ====
section
/-! DEFINITION. The statements about the part, for the provers. Each follows the rules of spec/ that its docstring names; a statement
that rests on a choice of the model names the log entry. -/
open Sys2Proof Sys2Proof.Machine

/-! ## The machine -/

/-- A step takes the command at the front of the queue and runs it on the state with the queue's rest, first in first out. On an empty queue the part idles: a nanosecond of SAF time passes and nothing else changes. The model's choice (log 1). -/
def Obligations.StepTakesCommandsInOrder : Prop :=
  (∀ (s : State) (c : Instr) (rest : List Instr),
    step { s with pending := c :: rest } = exec c { s with pending := rest }) ∧
  (∀ s : State, step { s with pending := [] } = .next { s with pending := [], now := s.now + 1 })

/-- R481: whatever step is taken, INT_N is driven low afterwards exactly while `INT_SUMMARY` AND `INT_MASK` is not 0 or the device is in
FAILED, from every state in which it is. -/
def Obligations.EveryStepKeepsIntN : Prop :=
  ∀ s t : State, intDriven s → step s = .next t → intDriven t

/-- R481: the part leaves reset with INT_N not driven. -/
def Obligations.IntNAtReset : Prop := intDriven State.reset ∧ State.reset.pins.intN = false

/-- Every well-formed command has an outcome that goes on, but resynchronisation data with a line for which there is no memory (R20). -/
def Obligations.WellFormedCommandsGoOn : Prop :=
  ∀ (i : Instr) (s : State), i.wf = true →
    (∀ ppa bytes, i = .resynchronisationData ppa bytes → ∀ o ∈ lineCuts ppa.toNat (min 4096 bytes.length), backed s (ppa.toNat + o) = true) → goesOn (exec i s)

/-! ## Command packets (R38-R77) -/

/-- R53 steps 1 to 4, on every opcode: a command with FMT_MAJOR other than 1 gets VERSION_REFUSED, an opcode the part does not define
OPCODE_UNSUPPORTED, and one whose tag an outstanding command of its channel has MALFORMED, each in one final reply; the outstanding
command with that tag, and every other of the store, stays as it is (R41, R52). R36, R114: a fabric packet from a rank without an entry, or
by a port that is neither the first hop of its rank's return route nor the partner of that port, is an isolation refusal before any of it is
used. R128: a ring whose device interface is not in RUN delivers no command. Stated of a device outside STANDBY_REFUSED that assigns no
order token. -/
def Obligations.EntryRefusals : Prop :=
  ∀ (s : State) (c : CmdIn) (sp : OpSpec), takesCommands s = true → s.fw.standby = false → s.mir.state ≠ 1 →
    (arrives s c →
      (cmdB c.raw 2 1 / 16 ≠ 1 →
        receive s (some sp) c = refuse s (replyTo s c) stVERSION ∧ (receive s (some sp) c).store.cmds = s.store.cmds) ∧
      (cmdB c.raw 2 1 / 16 = 1 →
        receive s none c = refuse s (replyTo s c) stOPCODE ∧ (receive s none c).store.cmds = s.store.cmds) ∧
      (cmdB c.raw 2 1 / 16 = 1 → tagInUse s c.chan (tagOf c.raw) = true →
        receive s (some sp) c = refuse s (replyTo s c) stMALFORMED ∧ (receive s (some sp) c).store.cmds = s.store.cmds)) ∧
    (chanRuns s c.chan = false → receive s (some sp) c = s) ∧
    (∀ cause : Nat, chanRuns s c.chan = true → portCause s c.chan c.port = some cause →
      receive s (some sp) c = refuseIso s c ((s.chanHost c.chan).getD noHost) cause 0 0)

/-- R43: a command that is no hardware opcode, whose wait list is not met, is accepted, acknowledged and held: it stands in the lowest free slot, and ACCEPTED is sent. A device that does not serve takes no command: nothing changes but the interrupt line's evaluation (R441, R453, R460). -/
def Obligations.HeldAndUnserved : Prop :=
  (∀ (s s1 : State) (sp : OpSpec) (c : CmdIn) (x : Cmd), passes s sp c x s1 → sp.charge x = none →
    sp.charge (taken s1 x).1 = none → opcodeOf (taken s1 x).1.raw ≠ 0x0100 →
    waitsOf (taken s1 x).2 (taken s1 x).1.raw = .unmet →
    receive s (some sp) c = settle (sendAccepted (heldState s1 x) (taken s1 x).1)) ∧
  (∀ (s : State) (c : CmdIn), serving s = false →
    exec (.memRead c) s = .next (intEval s) ∧ exec (.memWrite c) s = .next (intEval s) ∧ exec (.syncAdd c) s = .next (intEval s) ∧
    exec (.rangeCreate c) s = .next (intEval s) ∧ exec (.capQuery c) s = .next (intEval s) ∧ exec (.pairQuery c) s = .next (intEval s))

/-- CAP_QUERY, CANCEL of an unknown tag, NOP and NMO_RELEASE end with OK at once and release their slot (R70, R72, R236): the word with
the index; outcome 0; nothing; the number of near-memory commands that the halt ended. R70, R71: a CANCEL that finds a command of its channel with the tag, not yet started, cancels it with outcome 1. The target ends
CANCELLED with PROGRESS 0 and the CANCEL ends OK. R255, R273: ATT_POOL_OPEN takes the lowest free handle (log 16) and returns it with the bytes of a page; ATT_POOL_CLOSE marks the pool
closing and waits for the commands that name it. -/
def Obligations.DeviceAndPoolCommandsRun : Prop :=
  (∀ c : CmdIn,
    actsAs (.capQuery c) specCapQuery (withOpcode c 0x0F00) (fun _ _ _ => True)
      (fun t k y => settle (finish t k stOK 0 (capWord (y.par 16 2)).toNat)) ∧
    actsAs (.cancel c) specCancel (withOpcode c 0x0F01)
      (fun t k y => (t.store.cmds.find? fun e => e.1 != k && e.2.chan == y.chan && tagOf e.2.raw == y.par 16 4) = none)
      (fun t k _ => settle (finish t k stOK 0 0)) ∧
    actsAs (.nop (.cmd c)) specNop (withOpcode c 0x0100) (fun _ _ _ => True)
      (fun t k _ => settle (finish t k stOK)) ∧
    actsAs (.nmoRelease c) specNmoRelease (withOpcode c 0x030F) (fun _ _ _ => True)
      (fun t k y => settle (finish (t.setChan y.chan { t.chan y.chan with halted := false, haltCount := 0 }) k stOK 0
        (t.chan y.chan).haltCount [] ((t.chan y.chan).haltCount = 2 ^ 32 - 1)))) ∧
  (∀ (c : CmdIn) (j : Nat) (z : Cmd),
    actsAs (.cancel c) specCancel (withOpcode c 0x0F01)
      (fun t k y => (t.store.cmds.find? fun e => e.1 != k && e.2.chan == y.chan && tagOf e.2.raw == y.par 16 4) = some (j, z)
        ∧ j ≠ k ∧ t.cmd j = some z ∧ z.st = .held ∧ z.started = false ∧ z.progress = 0 ∧ opcodeOf z.raw ≠ 0x0311)
      (fun t k y => settle (finish (settle (finish (t.setCmd k { y with st := .finishing }) j stCANCELLED 0)) k stOK 0 1))) ∧
  (∀ c : CmdIn,
    actsAs (.attPoolOpen c) specAttPoolOpen (withOpcode c 0x0400) (fun t _ _ => tabGap t.work.pools 1 ≤ 255)
      (fun t k y => settle (finish { t with work := { t.work with pools := tabIns t.work.pools (tabGap t.work.pools 1) (poolOf y) } } k stOK 0
        (tabGap t.work.pools 1 + 2 ^ 32 * (poolOf y).pageB))) ∧
    (∀ p : Pool, actsAs (.attPoolClose c) specAttPoolClose (withOpcode c 0x0401)
      (fun t _ y => t.pool (y.par 16 1) = some p ∧ p.closing = none)
      (fun t k y => tellAccepted (settle (State.setCmd { t with work := { t.work with pools := tabIns t.work.pools (y.par 16 1) { p with closing := some k } } } k
        { y with st := .finishing })) k)))

/-- R229, R232: SYNC_CONFIG, SYNC_SET, SYNC_ADD and SYNC_RELEASE send their update to the object and wait for it; SYNC_READ returns the
counter, the threshold, the flags and ERR_COUNT at once. -/
def Obligations.SyncCommandsRun : Prop :=
  ∀ c : CmdIn,
    actsAs (.syncConfig c) specSyncConfig (withOpcode c 0x0600) (fun _ _ _ => True)
      (fun t k y => postUpd (t.setCmd k { y with st := .finishing }) (y.par 16 2)
        (.config (BitVec.ofNat 32 (srcOf y.raw)) (BitVec.ofNat 32 (tagOf y.raw)) (y.par 18 2) (bitOf (y.par 20 1) 0) (bitOf (y.par 20 1) 1)
          (BitVec.ofNat 64 (y.par 24 8)) (BitVec.ofNat 32 (y.par 32 4)))) ∧
    actsAs (.syncSet c) specSyncSet (withOpcode c 0x0602) (fun _ _ _ => True)
      (fun t k y => postUpd (t.setCmd k { y with st := .finishing }) (y.par 16 2)
        (.set (BitVec.ofNat 32 (srcOf y.raw)) (BitVec.ofNat 32 (tagOf y.raw)) (bitOf (y.par 18 1) 0) (bitOf (y.par 18 1) 1)
          (BitVec.ofNat 64 (y.par 24 8)) (BitVec.ofNat 32 (y.par 32 4)))) ∧
    actsAs (.syncAdd c) specSyncAdd (withOpcode c 0x0603) (fun _ _ _ => True)
      (fun t k y => postUpd (t.setCmd k { y with st := .finishing }) (y.par 16 2)
        (.add (BitVec.ofNat 32 (srcOf y.raw)) (BitVec.ofNat 32 (tagOf y.raw)) (BitVec.ofNat 64 (y.par 24 8)))) ∧
    actsAs (.syncRelease c) specSyncRelease (withOpcode c 0x0601) (fun _ _ _ => True)
      (fun t k y => postUpd (t.setCmd k { y with st := .finishing }) (y.par 16 2) .release) ∧
    actsAs (.syncRead c) specSyncRead (withOpcode c 0x0604) (fun _ _ _ => True)
      (fun t k y => settle (finish t k stOK 0 ((t.obj (y.par 16 2)).count.toNat + 2 ^ 64 * (t.obj (y.par 16 2)).thr.toNat
        + 2 ^ 96 * (flag (t.obj (y.par 16 2)).err 0 + flag (t.obj (y.par 16 2)).sat 1) + 2 ^ 104 * (t.obj (y.par 16 2)).errCnt) []
        ((t.obj (y.par 16 2)).sat || (t.obj (y.par 16 2)).errCnt == 255)))

/-- R96, R97: RANGE_CREATE puts an entry of the shadow directory at the lowest free RANGE_ID and extent (the choice of each is the
model's, log 16) and commits unless HOLD is 1; RANGE_DESTROY takes one out; XLT_COMMIT publishes the shadow copy and returns the new
epoch, each once no granule that was translated through a changed range is under way (R92, R95); RANGE_QUERY returns bytes 0-15 of the entry that translates the address. R93, R94: a commit makes the shadow directory the active one and counts one epoch. -/
def Obligations.RangeCommandsRun : Prop :=
  (∀ c : CmdIn,
    (∀ o : Nat, actsAs (.rangeCreate c) specRangeCreate (withOpcode c 0x0105)
      (fun t _ y => (t.xlt.dirS.any fun e => !disjointSpans (y.par 16 8) (4096 * y.par 24 4) e.2.iaStart (4096 * e.2.lenG)) = false
        ∧ t.online (y.par 29 1) = true ∧ 4096 * y.par 24 4 ≤ mappable t (y.par 28 1 == 1) (y.par 29 1)
        ∧ (y.par 28 1 = 1 ∨ (t.part (y.par 29 1)).parked = false)
        ∧ tabGap (t.xlt.dirS.foldl (fun m e => tabIns m e.1 e.2) t.xlt.dirA) 0 < 2 ^ 20
        ∧ freeExtent t (y.par 28 1 == 1) (y.par 29 1) (4096 * y.par 24 4) = some o
        ∧ (y.par 31 1 = 0 → let u := withRange (drainDma t) (newRid t) (newRange y o); dmaLeft u (ofChanged u) = false))
      (fun t k y =>
        settle (finish (if y.par 31 1 = 0 then commitRanges (withRange (drainDma t) (newRid t) (newRange y o))
          else withRange t (newRid t) (newRange y o)) k stOK 0 (newRid t)))) ∧
    (∀ e : RangeE, actsAs (.rangeDestroy c) specRangeDestroy (withOpcode c 0x0106)
      (fun t _ y => tabFind t.xlt.dirS (y.par 16 4) = some e ∧ protectedRange t (y.par 16 4) e = false ∧ rangeShut t y (y.par 16 4) = false
        ∧ (y.par 31 1 = 0 → let u := withoutRange (drainDma t) (y.par 16 4); dmaLeft u (ofChanged u) = false))
      (fun t k y =>
        settle (finish (if y.par 31 1 = 0 then commitRanges (withoutRange (drainDma t) (y.par 16 4)) else withoutRange t (y.par 16 4)) k stOK))) ∧
    actsAs (.xltCommit c) specXltCommit (withOpcode c 0x0203) (fun t _ _ => dmaLeft (drainDma t) (ofChanged (drainDma t)) = false)
      (fun t k _ => settle (finish (commitRanges (drainDma t)) k stOK 0 (commitRanges (drainDma t)).xlt.epoch.toNat)) ∧
    (∀ (ppa rid : Nat) (acc : Rights) (u : State) (e : RangeE), actsAs (.rangeQuery c) specRangeQuery (withOpcode c 0x0107)
      (fun t _ y => anyRight t y.host (y.par 16 8) = (.ok ppa rid, acc, u) ∧ u.range rid = some e)
      (fun _ k _ => settle (finish u k stOK 0 (entryHead e))))) ∧
  (∀ s : State, (commitRanges s).xlt.dirA = s.xlt.dirS ∧ (commitRanges s).xlt.dirS = s.xlt.dirS
    ∧ (commitRanges s).xlt.epoch = s.xlt.epoch + 1)

/-- R92, R98, R101, R102, R104: XLT_S1_ROOT gives a host identity its stage-1 table and fault queue and empties its cache entries;
XLT_INVALIDATE empties those of a span, each once no granule that was translated for the identity is under way; XLT_FAULT_RESUME ends an open
fault, as resumed or aborted, and finds one whose escalation time has run out ended; ADVISE toggles STREAM; a PREFETCH without GATE starts. -/
def Obligations.TranslationCommandsRun : Prop :=
  ∀ c : CmdIn,
    actsAs (.xltS1Root c) specXltS1Root (withOpcode c 0x0200)
      (fun t _ y => dmaLeft (drainDma t) (ofHost (drainDma t) (y.par 28 2)) = false)
      (fun t k y =>
        let t := drainDma t
        let f : HostE → HostE := fun e => { e with
          s1Table := y.par 16 8, s1Count := y.par 24 4, fq := y.par 32 8, fqLog2 := y.par 40 1, fqSync := y.par 42 2 }
        let upd := fun (m : Tab HostE) => match tabFind m (y.par 28 2) with
          | some e => tabIns m (y.par 28 2) (f e)
          | none => m
        settle (finish (rcRemove { t with iso := { t.iso with hostsA := upd t.iso.hostsA, hostsS := upd t.iso.hostsS } }
          fun e => e.host == y.par 28 2) k stOK)) ∧
    actsAs (.xltInvalidate c) specXltInvalidate (withOpcode c 0x0201)
      (fun t _ y => dmaLeft (drainDma t) (ofHost (drainDma t) (y.par 28 2)) = false)
      (fun t k y => settle (finish (rcRemove (drainDma t) fun e => e.host == y.par 28 2
        && (y.par 24 4 == 0 || !disjointSpans e.start e.len (y.par 16 8) (4096 * y.par 24 4))) k stOK)) ∧
    (∀ f : XFault, actsAs (.xltFaultResume c) specXltFaultResume (withOpcode c 0x0202)
      (fun t _ y => t.xlt.pending.find? (fun f => f.id.toNat == y.par 16 4) = some f ∧ (t.now < f.expiry ∨ pairHeld t = true))
      (fun t k y => settle (finish (if y.par 20 1 = 0 then resumeFault t f else abortFault t f) k stOK 0 1))) ∧
    (∀ f : XFault, actsAs (.xltFaultResume c) specXltFaultResume (withOpcode c 0x0202)
      (fun t _ y => t.xlt.pending.find? (fun f => f.id.toNat == y.par 16 4) = some f ∧ f.expiry ≤ t.now ∧ pairHeld t = false)
      (fun t k _ => settle (finish (escalateFault t f) k stOK 0 0))) ∧
    (∀ (ppa rid : Nat) (u : State) (e : RangeE), actsAs (.advise c) specAdvise (withOpcode c 0x0108)
      (fun t _ y => lookup t y.host (y.par 16 8) rWrite = (.ok ppa rid, u) ∧ u.range rid = some e ∧ rangeShut u y rid = false
        ∧ y.par 24 1 = 2)
      (fun _ k _ => settle (finish (entryCommit u rid fun e => { e with stream := !e.stream }) k stOK))) ∧
    (∀ (ppa rid : Nat) (u u2 : State) (e : RangeE), actsAs (.prefetch c) specPrefetch (withOpcode c 0x0109)
      (fun t k y => lookup t y.host (y.par 16 8) rWrite = (.ok ppa rid, u) ∧ u.range rid = some e ∧ prefGate y = false
        ∧ startOp u k { y with total := prefLen y / 4096, aux := [rid, 0, ppa - e.ppa] } = some u2)
      (fun _ _ _ => u2))

/-- R147, R150, R146: QOS_METER_SET writes a meter and fills its buckets; QOS_METER_QUERY returns the buckets and the counters;
QOS_CHANNEL_SET writes the limits of a ring or of a rank; QOS_TC_WEIGHTS writes the five weights. R141, R149-R152: a free memory stop serves
the next queued item in the order of R141, be it a hardware opcode, the lines of a DMA burst or a coherent request; QUEUE_SAMPLE with HIST_EN
counts one sample in each period of 1,000 ns;
a write of `QOS_HIST_SEL` with SNAP copies the bins of the selected queue; HIST_SNAPSHOT_DONE makes them valid; a write of `QOS_CFG` sets HIST_EN
and clears all bins with CLEAR. -/
def Obligations.QosRun : Prop :=
  (∀ c : CmdIn,
    actsAs (.qosMeterSet c) specQosMeterSet (withOpcode c 0x0800) (fun _ _ _ => True)
      (fun t k y => settle (finish (t.setMeter (y.par 16 2)
        { unmetered := y.par 18 1 == 1, cir := y.par 20 4, pir := y.par 24 4, cbs := y.par 28 4, pbs := y.par 32 4
          tc := y.par 28 4 * 1024000, tp := y.par 32 4 * 1024000, last := t.now }) k stOK)) ∧
    actsAs (.qosMeterQuery c) specQosMeterQuery (withOpcode c 0x0801) (fun t _ y => (t.meter (y.par 16 2)).unmetered = false)
      (fun t k y =>
        let m := t.meter (y.par 16 2)
        let b := m.fill t.now
        settle (finish t k stOK 0 (b.tc / 1000 % 2 ^ 32 + 2 ^ 32 * (b.tp / 1000 % 2 ^ 32) + 2 ^ 64 * m.red + 2 ^ 96 * m.yellow) []
          (m.red = 2 ^ 32 - 1 || m.yellow = 2 ^ 32 - 1))) ∧
    actsAs (.qosChannelSet c) specQosChannelSet (withOpcode c 0x0802) (fun _ _ _ => True)
      (fun t k y => settle (finish
        (if y.par 16 1 = 0 then t.setRing (y.par 20 4) { t.ring (y.par 20 4) with prioMax := y.par 17 1 }
         else t.setChan (.rank (y.par 20 4)) { t.chan (.rank (y.par 20 4)) with prioMax := y.par 17 1, creditMax := y.par 18 1 }) k stOK)) ∧
    actsAs (.qosTcWeights c) specQosTcWeights (withOpcode c 0x0803) (fun _ _ _ => True)
      (fun t k y => settle (finish { t with qos := { t.qos with
        weights := [y.par 16 1, y.par 17 1, y.par 18 1, y.par 19 1, y.par 20 1] } } k stOK))) ∧
  (∀ (s : State) (pt : Nat) (i : QItem) (v : W32),
    (pt < 80 → stopNext s (stopNow s pt) = some i →
      (∀ (k : Nat) (c : Cmd), i.work = .cmd k → s.cmd k = some c → c.st = .queued →
        exec (.schedSelect pt) s = .next (intEval (memService ((s.setPoint pt ((stopNow s pt).take i)).setCmd k { c with st := .running }) k))) ∧
      (∀ (n : Nat) (l : List ChReq), i.work = .burst n l →
        exec (.schedSelect pt) s = .next (intEval (pushLines (s.setPoint pt ((stopNow s pt).take i)) l))) ∧
      (∀ (code : Nat) (m : CohMsg), i.work = .coh code m →
        exec (.schedSelect pt) s = .next (intEval (cohGo (s.setPoint pt ((stopNow s pt).take i)) code m (m.token != 0))))) ∧
    (pt < 80 → stopNext s (stopNow s pt) = none → exec (.schedSelect pt) s = .next (intEval s)) ∧
    (s.qos.histEn = true → s.qos.ticks < s.now / 1000 → exec .queueSample s = .next (intEval
      (let t := (List.range 760).foldl sampleQueue s
       { t with qos := { t.qos with samples := satAdd 32 t.qos.samples 1, ticks := t.now / 1000 } }))) ∧
    (s.qos.histEn = false ∨ s.now / 1000 ≤ s.qos.ticks → exec .queueSample s = .next (intEval s)) ∧
    (barWrite s 0x60 = true → v.toNat % 1024 ≤ 759 → bitOf v.toNat 31 = true →
      exec (.histSnap v) s = .next (intEval { s with qos := { s.qos with
        sel := v.toNat % 1024, snapValid := false, snapBusy := true
        snapDepth := (List.range 16).map fun i => tabGet 0 s.qos.bins (32 * (v.toNat % 1024) + i)
        snapDelay := (List.range 16).map fun i => tabGet 0 s.qos.bins (32 * (v.toNat % 1024) + 16 + i) } })) ∧
    (s.qos.snapBusy = true → exec .histSnapshotDone s = .next (intEval { s with qos := { s.qos with snapValid := true, snapBusy := false } })) ∧
    (barWrite s 0x60 = true → bitOf v.toNat 1 = true → exec (.histClearAll v) s = .next (intEval { s with qos := { s.qos with
      histEn := bitOf v.toNat 0, bins := [], samples := 0 } })))

/-- R183, R191, R192: PROG_LOAD reads the image, places it on tiles, loads their segments and returns the handle and the number of tiles;
PROG_UNLOAD marks the program CLOSING and waits for its runs; PROG_QUERY returns the state, the tiles and the runs. -/
def Obligations.ProgramCommandsRun : Prop :=
  ∀ c : CmdIn,
    (∀ (img : List Byte) (u : State) (l : List (Nat × Nat × Nat)), actsAs (.progLoad c) specProgLoad (withOpcode c 0x0380)
      (fun t _ y => readGran t y.host (y.par 16 8) (y.par 24 4) = (.ok img, u) ∧ imageOk img = true
        ∧ placeTiles u (y.par 28 2) (y.par 30 1) (leAt img 8 2) (leAt img 10 2) = some l
        ∧ tabGap u.churn.progs 1 ≤ 4095
        ∧ ((l.map fun e => tilePart e.1).eraseDups.any fun p => decide (2 ^ 24 < progStore u p + img.length)) = false
        ∧ powerFits u (y.par 28 2 * tilePower 0) = true)
      (fun _ k y =>
        let h := tabGap u.churn.progs 1
        let v := l.foldl (loadTile h (leAt img 8 2) (leAt img 10 2) (imageCode img (leAt img 8 2))) u
        let p : Prog := { host := y.host, image := img, codeN := leAt img 8 2, scrKib := leAt img 10 2, initLen := leAt img 12 2
                          syncN := leAt img 14 2, maxCyc := leAt img 16 8, restart := leAt img 6 2 == 1, tiles := l.map (·.1) }
        settle (finish { v with churn := { v.churn with progs := tabIns v.churn.progs h p } } k stOK 0 (h + 2 ^ 32 * l.length)))) ∧
    (∀ p : Prog, actsAs (.progUnload c) specProgUnload (withOpcode c 0x0382)
      (fun t _ y => t.prog (y.par 16 2) = some p ∧ p.unload = none)
      (fun t k y => tellAccepted (settle (State.setCmd { t with churn := { t.churn with
        progs := tabIns t.churn.progs (y.par 16 2) { p with state := 2, unload := some k } } } k { y with st := .finishing })) k)) ∧
    (∀ p : Prog, actsAs (.progQuery c) specProgQuery (withOpcode c 0x0383) (fun t _ y => t.prog (y.par 16 2) = some p)
      (fun t k y => settle (finish t k stOK 0 (p.state + 2 ^ 32 * p.tiles.length + 2 ^ 64 * runsOf t (y.par 16 2)))))

/-- R243, R244, R251, R252: RED_SLOT_OPEN places a slot on tiles and returns its number (the lowest free, log 16); RED_SLOT_CLOSE marks it
closing and waits; RED_SLOT_QUERY returns the step, the marks and the state. R246-R248, R250: the events of a reduction slot. A contribution of the current step that arrives deposits its row, marks its index, counts in the
ARRIVE object and may start the step; a granule of the running step reduces 1,024 elements of the deposits into OUT; the step ends when its
granules are done; a step to which an index is missing at its limit is abandoned with WAIT_EXPIRED. Stated of contributions without an order
token, and of a step without a residual. -/
def Obligations.ReductionSlotsRun : Prop :=
  (∀ c : CmdIn,
    (∀ l : List (Nat × Nat × Nat), actsAs (.redSlotOpen c) specRedSlotOpen (withOpcode c 0x0310)
      (fun t _ y => placeTiles t (slotOf y).ntiles (y.par 14 1) 0 0 = some l ∧ tabGap t.work.slots 0 ≤ 255 ∧ regionsOk t (slotOf y) = true
        ∧ powerFits t (slotPower (slotOf y)) = true)
      (fun t k y =>
        let i := tabGap t.work.slots 0
        let u := l.foldl (loadTile (0x10000 + i) 0 0 []) t
        settle (finish (u.setSlot i { slotOf y with tiles := l.map (·.1) }) k stOK 0 i))) ∧
    (∀ x : Slot, actsAs (.redSlotClose c) specRedSlotClose (withOpcode c 0x0312)
      (fun t _ y => t.slot (y.par 16 1) = some x ∧ x.closing = none)
      (fun t k y => tellAccepted
        (closeSlot ((t.setCmd k { y with st := .finishing }).setSlot (y.par 16 1) { x with closing := some k }) (y.par 16 1)) k)) ∧
    (∀ x : Slot, actsAs (.redSlotQuery c) specRedSlotQuery (withOpcode c 0x0313) (fun t _ y => t.slot (y.par 16 1) = some x)
      (fun t k _ => settle (finish t k stOK 0 (x.k % 2 ^ 32 + 2 ^ 32 * x.marked.length
        + 2 ^ 64 * (if x.running then 3 else if x.marked = [] then 1 else 2)))))) ∧
  (∀ (s : State) (i index : Nat) (x : Slot), i < 256 → s.slot i = some x →
    (∀ (k : Nat) (c : Cmd) (t : State), (contribs s i x.k).find? (fun e => e.2.par 18 2 == index && e.2.st == .ready) = some (k, c) →
      x.marked.contains index = false → x.running = false → c.mirSeq = 0 →
      deposit (accessing s) x c = (none, t) →
      exec (.contributionArrive i index) s = .next (intEval (
        let u := accessed t
        tryStep (postUpd (((chargeReserved u c.host (depositBytes x (c.par 32 1))).setCmd k
          (notePoints u { c with disputed := t.mir.saw, color := if c.par 32 1 = 1 then c.color else 1 })).setSlot i
            { x with marked := index :: x.marked, firstAt := if x.marked = [] then s.now else x.firstAt }) x.arrive (.signal 1)) i))) ∧
    (∀ (k g : Nat) (c : Cmd) (rows : List (List Byte)) (t u : State), x.running = true → x.outRes = false →
      s.cmd k = some c → opcodeOf c.raw = 0x0311 → c.par 16 2 = i → (stepLead s i x.k).map (·.1) = some k → c.progress = g → g < x.l / 1024 →
      (contribs s i x.k).all (·.2.mirSeq == 0) = true →
      readMany x.host (granReads x g) (accessing s) [] = (.ok rows, t) →
      writeMany t x.host (granWrites x g (granResult x g rows).1 (granResult x g rows).2.1) = (.ok (), u) →
      slotStep s k =
        (let q := (granResult x g rows).1
         accessed (spreadLead ((granDone u k (granSize x g)).setSlot i { x with
           scales := x.scales ++ q.map fun e => BitVec.ofNat 8 e.scale
           poisoned := x.poisoned + (q.filter (·.scale == 255)).length
           under := x.under + (q.filter fun b => decide (x.ufNum * 32 < b.flush * 16)).length
           sat := satAdd 32 x.sat (granResult x g rows).2.2 }) i x.k k))) ∧
    (x.running = true → (stepLead s i x.k).any (fun e => e.2.st == .running && decide (x.l / 1024 ≤ e.2.progress)) = true →
      exec (.reductionStepComplete i) s = .next (intEval (closeSlot (stepDone s i x) i))) ∧
    (x.running = false ∨ (stepLead s i x.k).any (fun e => e.2.st == .running && decide (x.l / 1024 ≤ e.2.progress)) = false →
      exec (.reductionStepComplete i) s = .next (intEval s)) ∧
    (pairHeld s = false → x.running = false → x.marked ≠ [] → x.marked.length < x.n → x.firstAt + 1000000 * x.limitMs ≤ s.now →
      exec (.stepLimitExpiry i) s = .next (intEval (abandonStep s i x.k stWAIT_EXPIRED true))) ∧
    (s.now < x.firstAt + 1000000 * x.limitMs ∨ x.n ≤ x.marked.length → exec (.stepLimitExpiry i) s = .next (intEval s)))

/-- R275, R279, R285, R290, R291: a fresh GAL_OPEN clears the head line, takes the lowest free handle (log 16) and pins the galley's
ranges; GAL_BEGIN enters INGEST with the chunks used and returns the next checkpoint number; GAL_QUERY returns the state, the chunks
used and the committed checkpoint; GAL_CLOSE marks the galley closing. R281, R285, R287, R288: the events of a galley. The earliest lock-up that is ready takes an INGEST galley to LOCKUP where its load and its energy fit; then each
CHUNK_HASH_COMPLETE does the next chunk, and the commit with the last one. Stated of a lock-up without an order token. -/
def Obligations.GalleysRun : Prop :=
  (∀ c : CmdIn,
    (∀ u : State, actsAs (.galOpen c) specGalOpen (withOpcode c 0x0500)
      (fun t _ y =>
        let g := { galOf y with ext := galExtents t y.host (galOf y) }
        galWaits t g = false ∧ galRangesOk t y.host g = true ∧ tabGap t.work.gals 1 ≤ 16
          ∧ t.work.gals.foldl (fun n e => n + e.2.chunks) (galOf y).chunks ≤ 65536 ∧ ingFits t g = true
          ∧ powerFits t Config.galPower = true ∧ bitOf (y.par 12 1) 0 = false ∧ y.mirSeq = 0
          ∧ writeAll (accessing t) y.host g.head (List.replicate 64 0) = (.ok (), u))
      (fun t k y => accessed (settle (finish (repin (u.setGalley (tabGap t.work.gals 1)
        { galOf y with ext := galExtents t y.host (galOf y) })) k stOK 0 (tabGap t.work.gals 1))))) ∧
    (∀ g : Galley, actsAs (.galBegin c) specGalBegin (withOpcode c 0x0502) (fun t _ y => t.galley (y.par 16 1) = some g ∧ g.state ≠ 3)
      (fun t k y => settle (finish (t.setGalley (y.par 16 1) { g with state := 2, used := y.par 20 4 }) k stOK 0 (2 ^ 64 * (g.ckpt + 1))))) ∧
    (∀ g : Galley, actsAs (.galQuery c) specGalQuery (withOpcode c 0x0505) (fun t _ y => t.galley (y.par 16 1) = some g)
      (fun t k _ => settle (finish t k stOK 0 (g.state + 2 ^ 32 * g.used + 2 ^ 64 * g.ckpt)))) ∧
    (∀ g : Galley, actsAs (.galClose c) specGalClose (withOpcode c 0x0501) (fun t _ y => t.galley (y.par 16 1) = some g ∧ g.closing = none)
      (fun t k y => tellAccepted (settle ((t.setCmd k { y with st := .finishing }).setGalley (y.par 16 1) { g with closing := some k })) k))) ∧
  (∀ (s : State) (i k : Nat) (c : Cmd) (g : Galley), 1 ≤ i → i ≤ 16 → s.galley i = some g → c.mirSeq = 0 →
    (∀ u t : State, pairHeld s = false → nextLockup s i = some (k, c) → g.state = 2 → s.pwr.hold = false → serving s = true → heldOn s c = false →
      energyFits s (lockEnergy s c) = true → drainGal s g = (false, u) → startOp u k { c with total := g.used, progress := 0 } = some t →
      exec (.lockupReady i) s = .next (intEval (t.setGalley i
        { g with state := 3, lock := some k, prev := none, leaves := [], table := [], changed := 0 }))) ∧
    (∀ (pl : List (List Byte)) (ps : List Nat) (u : State) (fresh : Nat), g.lock = some k → s.cmd k = some c → c.st = .running →
      proofAt s g pl ps u fresh →
      let h := { g with prev := some (pl, ps) }
      (g.used ≤ g.leaves.length →
        exec (.chunkHashComplete i) s = .next (intEval (afterUnit c (accessed (lockupCommit (u.setGalley i h) k i h)) k))) ∧
      (∀ (g1 : Galley) (t : State), g.leaves.length < g.used → t = lockChunk (u.setGalley i h) k i h pl ps fresh → t.galley i = some g1 →
        (g1.leaves.length < g1.used → exec (.chunkHashComplete i) s = .next (intEval (afterUnit c (accessed t) k))) ∧
        (g1.leaves.length = g1.used → g1.lock = some k →
          exec (.chunkHashComplete i) s = .next (intEval (afterUnit c (accessed (lockupCommit t k i g1)) k))))))

/-- R295, R306, R308, R309, R310: WIN_OPEN takes a free window (the lowest, log 16) with a cleared directory; WIN_CLOSE of a window that
is DOWN frees it, and of one that is OPEN starts the drain of every line that an agent may hold; WIN_REOPEN clears the directory of a window that is DOWN and opens it; WIN_QUERY returns the state, the cause, the
agents and the live tokens. -/
def Obligations.WindowCommandsRun : Prop :=
  ∀ c : CmdIn,
    (∀ (i p d r1 r2 : Nat), actsAs (.winOpen c) specWinOpen (withOpcode c 0x0700)
      (fun t _ y => freeWindow t = some i ∧ checkRa t y.host (y.par 0 8) (rRead ||| rWrite) = .ok p r1
        ∧ checkRa t y.host (y.par 16 8) (rRead ||| rWrite) = .ok d r2 ∧ unsettledRange t r1 = false ∧ unsettledRange t r2 = false
        ∧ winPlaceOk t y = true ∧ tierUp t (ppaCream p) (ppaPart p) = true ∧ tierUp t true (ppaPart d) = true)
      (fun t k y =>
        let w : Window := { host := y.host, base := y.par 0 8, ext := spanExts t y.host (y.par 0 8) (y.par 8 8), len := y.par 8 8
                            dirRa := y.par 16 8, dirExt := spanExts t y.host (y.par 16 8) (y.par 8 8 / 16)
                            agents := winAgents y, snoopUs := winSnoopUs y, state := 1 }
        settle (finish (repin ((dirClear (granStart (beginAccess t) k (y.par 8 8 / 16)) w).setWin i w)) k stOK 0 i))) ∧
    actsAs (.winClose c) specWinClose (withOpcode c 0x0701) (fun t _ y => (t.win (y.par 16 1)).state = 3)
      (fun t k y => settle (finish (freeWin t (y.par 16 1)) k stOK)) ∧
    actsAs (.winClose c) specWinClose (withOpcode c 0x0701) (fun t _ y => (t.win (y.par 16 1)).state = 1)
      (fun t k y =>
        let w := t.win (y.par 16 1)
        let u := (granStart (beginAccess t) k (w.len / 16)).setCmd k { y with st := .finishing, color := 1 }
        let u := downQueued (w.waits.foldl (fun s x => sendCoh s (y.par 16 1) 0xF x.agent x.line x.txn 0 none false) u) (y.par 16 1)
        let u := u.setWin (y.par 16 1) { w with state := 2, closeKey := some k, wrote := 0, tokens := [], waits := [] }
        settle ((dirLines u w).foldl (fun s l => closeLine s (y.par 16 1) l) u)) ∧
    actsAs (.winReopen c) specWinReopen (withOpcode c 0x0702)
      (fun t _ y => (t.win (y.par 16 1)).state = 3
        ∧ (∀ e ∈ (t.win (y.par 16 1)).ext ++ (t.win (y.par 16 1)).dirExt, tierUp t (ppaCream e.1) (ppaPart e.1) = true))
      (fun t k y => settle (finish ((dirClear (granStart (beginAccess t) k ((t.win (y.par 16 1)).len / 16)) (t.win (y.par 16 1))).setWin
        (y.par 16 1) { t.win (y.par 16 1) with state := 1 }) k stOK)) ∧
    actsAs (.winQuery c) specWinQuery (withOpcode c 0x0703) (fun _ _ _ => True)
      (fun t k y => settle (finish t k stOK 0 ((t.win (y.par 16 1)).state + 2 ^ 8 * (t.win (y.par 16 1)).cause
        + 2 ^ 16 * (t.win (y.par 16 1)).agents.length + 2 ^ 32 * liveTokens t (t.win (y.par 16 1)) (y.par 16 1))))

/-- R454, R455, R456, R470, R474: FW_STAGE copies from the host into the staging buffer; FW_COMMIT begins verification; FW_STATUS returns what it
says; FW_ACTIVATE makes a slot that is STAGED or VALID preferred, a STAGED one TRIAL with three tries; FW_CONFIRM makes the running slot VALID when
it is TRIAL, and raises the minimum SVN; PWR_BUDGET_SET takes effect at the next epoch; PWR_QUERY returns the energy figures. -/
def Obligations.FirmwareAndEnergyCommandsRun : Prop :=
  ∀ c : CmdIn,
    actsAs (.fwStage c) specFwStage (withOpcode c 0x0F02) (fun t _ y => t.hostFails (y.par 16 8) (y.par 28 4) = false)
      (fun t k y => settle (finish { t with fw := { t.fw with
        staging := memPutL t.fw.staging (y.par 24 4) (t.hostRead (y.par 16 8) (y.par 28 4)) } } k stOK)) ∧
    actsAs (.fwCommit c) specFwCommit (withOpcode c 0x0F03) (fun _ _ _ => True)
      (fun t k y => settle (finish { t with fw := { t.fw with state := 1, error := 0, totalLen := y.par 16 4, programmed := 0 } } k stOK)) ∧
    actsAs (.fwStatus c) specFwStatus (withOpcode c 0x0F04) (fun _ _ _ => True)
      (fun t k _ => settle (finish t k stOK 0 (t.fw.state + 2 ^ 8 * t.fw.error + 2 ^ 32 * t.fw.programmed + 2 ^ 64 * t.fw.running
        + 2 ^ 72 * t.fw.slotState.getD 0 0 + 2 ^ 80 * t.fw.slotState.getD 1 0 + 2 ^ 88 * t.fuses.minSvn))) ∧
    actsAs (.fwActivate c) specFwActivate (withOpcode c 0x0F05)
      (fun t _ y => fwBusy t = false ∧ (t.fw.slotState.getD (y.par 16 1) 0 = 1 ∨ t.fw.slotState.getD (y.par 16 1) 0 = 3))
      (fun t k y => let x := y.par 16 1
        let staged : Bool := t.fw.slotState.getD x 0 = 1
        settle (finish { t with fw := { t.fw with
          preferred := x, slotState := if staged then t.fw.slotState.set x 2 else t.fw.slotState
          tries := if staged then t.fw.tries.set x 3 else t.fw.tries } } k stOK)) ∧
    actsAs (.fwConfirm c) specFwConfirm (withOpcode c 0x0F06) (fun _ _ _ => True)
      (fun t k _ => settle (finish { t with
        fw := { t.fw with slotState := if t.fw.slotState.getD t.fw.running 0 = 2 then t.fw.slotState.set t.fw.running 3 else t.fw.slotState }
        fuses := { t.fuses with minSvn := max t.fuses.minSvn (t.fw.svn.getD t.fw.running 0) } } k stOK)) ∧
    actsAs (.pwrBudgetSet c) specPwrBudgetSet (withOpcode c 0x0F10) (fun _ _ _ => True)
      (fun t k y => settle (finish { t with pwr := { t.pwr with nextB := some (y.par 16 2, y.par 20 4) } } k stOK)) ∧
    actsAs (.pwrQuery c) specPwrQuery (withOpcode c 0x0F11) (fun _ _ _ => True)
      (fun t k _ => settle (finish t k stOK 0 (t.pwr.pEff % 2 ^ 16 + 2 ^ 16 * min t.pwr.draw 65535
        + 2 ^ 32 * min (t.pwr.window / 1000) (2 ^ 32 - 1) + 2 ^ 64 * min t.pwr.planned 65535 + 2 ^ 80 * highestLevel t)))

/-- R392, R393: PAIR_QUERY returns the pair state, IN_STEP, the cause and the partner; PAIR_FORM answers and makes the part the active
of a pair with the partner it names, not yet in step; PAIR_BREAK answers, tells the partner and leaves the pair; PAIR_SWITCH of an active
in step hands the role over without an answer of its own (log 33). -/
def Obligations.PairCommandsRun : Prop :=
  ∀ c : CmdIn,
    actsAs (.pairQuery c) specPairQuery (withOpcode c 0x0900) (fun _ _ _ => True)
      (fun t k _ => settle (finish t k stOK 0 (t.mir.state + 2 ^ 8 * flag t.mir.inStep 0 + 2 ^ 16 * t.mir.cause + 2 ^ 64 * t.mir.partner.toNat))) ∧
    actsAs (.pairForm c) specPairForm (withOpcode c 0x0901) (fun _ _ _ => True)
      (fun t k y =>
        let u := (settle (finish t k stOK)).bump
        ownResync (releaseTokens { u with mir := { u.mir with
          state := 1, partner := BitVec.ofNat 64 (y.par 16 8), inStep := false, cause := 0, broken := false, seq := 0, acked := 0, curInt := 0,
          intervals := [], tokens := [], copies := [], due := [], cohCopies := [], disputed := [], digesting := [], divTimes := [],
          formedAt := u.now, watermark := none, cutHold := none, lastRec := u.now, lastEdge := max u.mir.lastEdge u.now } })) ∧
    actsAs (.pairSwitch c) specPairSwitch (withOpcode c 0x0902) (fun _ _ _ => True)
      (fun t k _ => giveUpRole (sendNotice (t.delCmd k) 2 0) 4) ∧
    actsAs (.pairBreak c) specPairBreak (withOpcode c 0x0903) (fun _ _ _ => True)
      (fun t k _ => breakPair (sendNotice (settle (finish t k stOK)) 3 0))

/-- R52, R65, R233, R257, R281, R289, R393: a granular command that nothing holds stands ready in the lowest free slot and is told its rate; its
granules are the events OPERATION_START and GRANULE_COMPLETE. Of those that near-memory stops halt, the halted ones are swept out (R236). -/
def Obligations.GranularCommandsStandReady : Prop :=
  ∀ c : CmdIn,
    standsReady (.fill c) specFill (withOpcode c 0x0300) (fun s => haltSweep s c.chan) ∧
    standsReady (.copy c) specCopy (withOpcode c 0x0301) (fun s => haltSweep s c.chan) ∧
    standsReady (.compare c) specCompare (withOpcode c 0x0302) (fun s => haltSweep s c.chan) ∧
    standsReady (.reduce c) specReduce (withOpcode c 0x0303) (fun s => haltSweep s c.chan) ∧
    standsReady (.redContribute c) specRedContribute (withOpcode c 0x0311) id ∧
    standsReady (.progRun c) specProgRun (withOpcode c 0x0381) id ∧
    standsReady (.attAppend c) specAttAppend (withOpcode c 0x0402) (fun s => haltSweep s c.chan) ∧
    standsReady (.attScore c) specAttScore (withOpcode c 0x0403) (fun s => haltSweep s c.chan) ∧
    standsReady (.attRedigest c) specAttRedigest (withOpcode c 0x0404) (fun s => haltSweep s c.chan) ∧
    standsReady (.galLockup c) specGalLockup (withOpcode c 0x0503) id ∧
    standsReady (.galExport c) specGalExport (withOpcode c 0x0504) id ∧
    standsReady (.pairResync c) specPairResync (withOpcode c 0x0904) id

/-- R57, R138, R372: a green hardware opcode whose stop queues nothing is served at once (log 11). MEM_READ delivers the bytes, to BUF of a
ring's host or after the reply of a rank; MEM_WRITE stores, and its lines wait at a real-time port where it is one's (R384); MEM_ATOMIC and MEM_CAS return the previous value. Each ends OK (DISPUTED where a
read lay in a disputed range, R407) and releases its slot. Stated outside a pair's active. R138, R141: behind other items of its stop a green hardware opcode enters the queue of its class, with its bytes and the moment. -/
def Obligations.MemoryOpcodesServed : Prop :=
  (∀ (s : State) (c : CmdIn) (pt k : Nat) (y : Cmd) (u v : State), (u.point pt).items = [] → u.mir.state ≠ 1 → y.mirSeq = 0 →
    (∀ bs, reachesStop s specMemRead (withOpcode c 0x0101) pt k y u →
      readGran (beginAccess u) y.host (cmdB y.raw 16 8) (cmdB y.raw 24 4) = (.ok bs, v) →
      exec (.memRead c) s = .next (intEval (match y.chan with
        | .ring _ =>
          let w := toBuf v y.host (cmdB y.raw 32 8) bs
          settle (finish (markUsed w k) k (okStatus w) 0 0 [])
        | .rank _ => settle (finish (markUsed v k) k (okStatus v) 0 0 bs)))) ∧
    (∀ (bs : List Byte) (w : State), reachesStop s specMemWrite (withOpcode c 0x0102) pt k y u →
      writeData u y (cmdB y.raw 24 4) = (some bs, w) →
      writeGran (accessing w) y.host (cmdB y.raw 16 8) bs = (.ok (), v) →
      exec (.memWrite c) s = .next (intEval
        (accessed (settle (finish (rtWrite (markUsed v k) y.host (cmdB y.raw 16 8) bs.length) k stOK))))) ∧
    (∀ old, reachesStop s specMemAtomic (withOpcode c 0x0103) pt k y u →
      atomicRa (accessing u) y.host (cmdB y.raw 16 8) (cmdB y.raw 25 1)
        (fun o => atomicOp (cmdB y.raw 25 1) (cmdB y.raw 24 1) o (cmdB y.raw 32 (cmdB y.raw 25 1))) = (.ok old, v) →
      exec (.memAtomic c) s = .next (intEval (accessed (settle (finish (markUsed v k) k (okStatus v) 0 old))))) ∧
    (∀ old, reachesStop s specMemCas (withOpcode c 0x0104) pt k y u →
      atomicRa (accessing u) y.host (cmdB y.raw 16 8) (cmdB y.raw 25 1)
        (fun o => if o = cmdB y.raw 32 (cmdB y.raw 25 1) then cmdB y.raw 40 (cmdB y.raw 25 1) else o) = (.ok old, v) →
      exec (.memCas c) s = .next (intEval (accessed (settle (finish (markUsed v k) k (okStatus v) 0 old)))))) ∧
  (∀ (s : State) (c : CmdIn) (pt k : Nat) (y : Cmd) (u : State), (u.point pt).items ≠ [] →
    let item : Nat → QItem := fun b => { tc := tcOfPrio y.prio, color := 1, bytes := b, f := 0, since := u.now, work := .cmd k
                                         tag := BitVec.ofNat 32 (tagOf y.raw), src := BitVec.ofNat 32 (srcOf y.raw), elig := 0 }
    let q : Nat → State := fun b => enqueueItem (u.setCmd k { y with st := .queued }) pt (item b)
    (reachesStop s specMemRead (withOpcode c 0x0101) pt k y u →
      exec (.memRead c) s = .next (intEval (q (roundUp (cmdB y.raw 24 4) 64)))) ∧
    (reachesStop s specMemWrite (withOpcode c 0x0102) pt k y u →
      exec (.memWrite c) s = .next (intEval (q (roundUp (cmdB y.raw 24 4) 64)))) ∧
    (reachesStop s specMemAtomic (withOpcode c 0x0103) pt k y u → exec (.memAtomic c) s = .next (intEval (q 64))) ∧
    (reachesStop s specMemCas (withOpcode c 0x0104) pt k y u → exec (.memCas c) s = .next (intEval (q 64))))

/-- R64, R74, R75: the rows of a ring's registers while they are within reach. A doorbell moves SQ_TAIL, and one that adds slots is noted for
the fetches of an enabled ring; RING_ENABLE with sizes in range enables and sets the indices to 0 and PHASE to 1; RING_DISABLE of an enabled ring stops
fetching and cancels its commands; RING_FLUSH cancels; RING_RESUME of a ring without error bits clears STOPPED; RING_STOP sets it. R75: while EN reads 1 a write of `CMD_RING_CFG` that keeps EN changes OUTSTANDING_MAX alone, and one that would enable a ring with a size
out of range sets CFG_ERR instead (R74). R45, R64, R74, R76: RING_FETCH of a ring that may fetch reads the 64 bytes at SQ_HEAD, advances SQ_HEAD modulo the ring's size and gives the
command to the entry checks, visible since its doorbell; a read that fails on PCIe sets FETCH_ERR and stops the ring. A ring that may
not fetch does nothing. Stated of a host whose submissions are not sealed (R129). -/
def Obligations.RingRowsRun : Prop :=
  (∀ (s : State) (n : Nat) (v : W32), n < 1024 → ringsUp s = true →
    exec (.doorbell n v) s = .next (intEval (s.setRing n { s.ring n with
      sqTail := v.toNat % 65536
      bells := if (s.ring n).en && !(s.ring n).disabling
          && v.toNat % 65536 % 2 ^ (s.ring n).sqLog2 != (s.ring n).sqTail % 2 ^ (s.ring n).sqLog2
        then (s.ring n).bells ++ [(v.toNat % 65536, s.now)] else (s.ring n).bells })) ∧
    ((s.ring n).en = false → 6 ≤ v.toNat / 2 % 32 → v.toNat / 2 % 32 ≤ 16 → 7 ≤ v.toNat / 2 ^ 6 % 32 → v.toNat / 2 ^ 6 % 32 ≤ 16 →
      (s.ring n).fetchErr = false → (s.ring n).writeErr = false →
      exec (.ringEnable n v) s = .next (intEval (s.setRing n { s.ring n with
        outMax := (v ||| 1).toNat / 2 ^ 13 % 1024, sqLog2 := (v ||| 1).toNat / 2 % 32, rqLog2 := (v ||| 1).toNat / 2 ^ 6 % 32
        en := true, disabling := false, sqTail := 0, sqHead := 0, rqTail := 0, rqHead := 0, phase := true, full := false, bells := []
        stopped := false }))) ∧
    ((s.ring n).en = true → (s.ring n).disabling = false →
      exec (.ringDisable n v) s = .next (intEval (cancelAll (s.setRing n { s.ring n with
        outMax := (v &&& ~~~1).toNat / 2 ^ 13 % 1024, disabling := true }) fun c => c.chan == .ring n))) ∧
    exec (.ringFlush n) s = .next (intEval (cancelAll s fun c => c.chan == .ring n)) ∧
    ((s.ring n).errs = false → exec (.ringResume n) s = .next (intEval (s.setRing n { s.ring n with stopped := false }))) ∧
    exec (.ringStop n) s = .next (intEval (s.setRing n { s.ring n with stopped := true })) ∧
    ((s.ring n).en = true → (s.ring n).disabling = true → outstanding s (.ring n) = 0 →
      exec (.ringDisableComplete n) s = .next (intEval (s.setRing n { s.ring n with en := false, disabling := false })))) ∧
  (∀ (s : State) (n : Nat) (v : W32), n < 1024 → ringsUp s = true →
    ((s.ring n).en = true → exec (.ringEnable n v) s = .next (intEval (s.setRing n { s.ring n with outMax := (v ||| 1).toNat / 2 ^ 13 % 1024 }))) ∧
    ((s.ring n).en = false → (v.toNat / 2 % 32 < 6 ∨ 16 < v.toNat / 2 % 32) →
      exec (.ringEnable n v) s = .next (intEval (s.setRing n { s.ring n with
        outMax := (v ||| 1).toNat / 2 ^ 13 % 1024, sqLog2 := (v ||| 1).toNat / 2 % 32, rqLog2 := (v ||| 1).toNat / 2 ^ 6 % 32, cfgErr := true })))) ∧
  (∀ (s : State) (n : Nat), n < 1024 →
    let r := s.ring n
    let a := r.sqBase.toNat + 64 * (r.sqHead % 2 ^ r.sqLog2)
    let head := (r.sqHead + 1) % 2 ^ r.sqLog2
    (mayFetch s n = false → exec (.ringFetch n) s = .next (intEval s)) ∧
    (mayFetch s n = true → s.hostFails a 64 = true →
      exec (.ringFetch n) s = .next (intEval (s.setRing n { r with fetchErr := true, stopped := true }))) ∧
    (∀ (t moment : Nat) (bells : List (Nat × Nat)), mayFetch s n = true → s.hostFails a 64 = false →
      (∀ h, s.host r.ident = some h → h.path ≠ 3) → r.bells = (t, moment) :: bells →
      exec (.ringFetch n) s = .next (intEval (receiveCmd
        (s.setRing n { r with sqHead := head, bells := if t % 2 ^ r.sqLog2 = head then bells else (t, moment) :: bells })
        { chan := .ring n, port := 14, txn := 0, raw := BitVec.ofNat 512 (leNat (s.hostRead a 64)), data := [] } (some moment)))))

/-- R43, R63, R119, R121, R138: the timers of the store when they are due. A held command ends WAIT_EXPIRED; tokens of a value that have
expired are dropped; an opcode that is yellow, or of a galley's reserved ingest (R280), and not served within 16 µs is withdrawn and answered
RETRY; a refusal, at entry or later, is logged and answered ACCESS_REFUSED. R43, R119, R138: before their moment these timers do nothing. -/
def Obligations.StoreTimersRun : Prop :=
  (∀ (s : State) (k : Nat) (c : Cmd) (r : Refused) (w : W16),
    (s.cmd k = some c → c.st = .held → waitLimit c.raw ≠ 0 → pairHeld s = false → unitDown s (unitOf 5 2) = false →
      c.accepted + 100000 * waitLimit c.raw ≤ s.now → exec (.waitLimitExpiry k) s = .next (intEval (settle (finish s k stWAIT_EXPIRED)))) ∧
    exec (.retryTokenExpiry w) s = .next (intEval { s with store := { s.store with
      chans := tabMapD {} (fun _ x => { x with tokens := x.tokens.filter fun t => t.value != w || decide (s.now < t.expiry) }) s.store.chans } }) ∧
    (s.cmd k = some c → c.st = .queued → c.color = 2 → c.visible + 16000 ≤ s.now →
      exec (.yellowWithdrawal k) s = .next (intEval (settle (retry
        (let t := (cleanup s k c).delCmd k
         { t with qos := { t.qos with withdrawn := satAdd 32 t.qos.withdrawn 1 } })
        c.replyTo (loadOf s c))))) ∧
    (s.cmd k = some c → c.st = .queued → c.color = 4 → c.visible + 16000 ≤ s.now →
      exec (.yellowWithdrawal k) s = .next (intEval (settle (retry ((cleanup s k c).delCmd k) c.replyTo (loadOf s c))))) ∧
    (s.store.refusals[k]? = some r → r.due ≤ s.now → r.key = none → r.seq = 0 →
      exec (.refusalDelayExpiry k) s = .next (intEval (settle (sendLogged
        (appendLog { s with store := { s.store with refusals := s.store.refusals.eraseIdx k } } r.host r.cause r.access r.raw r.addr)
        { seq := 0, chan := r.chan, raw := r.raw, txn := r.txn, prio := r.prio, clamped := r.clamped, status := stACCESS, ord := r.ord } .refusal)))) ∧
    (∀ j, s.store.refusals[k]? = some r → r.due ≤ s.now → r.key = some j →
      exec (.refusalDelayExpiry k) s = .next (intEval (settle (finish
        (appendLog { s with store := { s.store with refusals := s.store.refusals.eraseIdx k } } r.host r.cause r.access r.raw r.addr)
        j stACCESS r.prog 0 [] false .refusal))))) ∧
  (∀ (s : State) (k : Nat) (c : Cmd) (r : Refused),
    (s.cmd k = some c → s.now < c.accepted + 100000 * waitLimit c.raw → exec (.waitLimitExpiry k) s = .next (intEval s)) ∧
    (s.cmd k = some c → s.now < c.visible + 16000 → exec (.yellowWithdrawal k) s = .next (intEval s)) ∧
    (s.store.refusals[k]? = some r → s.now < r.due → exec (.refusalDelayExpiry k) s = .next (intEval s)))

/-- R67, R518, R437, R471: OPERATION_START of a granular operation that stands ready or stopped starts it where its load fits and leaves it as
it is where it does not; one that needs a partition that is not online ends PARTITION_OFFLINE, and one on library tiles whose energy does not
fit ENERGY_REFUSED; a contribution starts its step (R247), and a command that stood ready for its turn acts (R60). R67, R70, R142:
GRANULE_COMPLETE of a running operation whose granule has its turn carries it out; a pending cancellation takes effect after it. -/
def Obligations.OperationsStartAndEnd : Prop :=
  (∀ (s : State) (k : Nat) (c : Cmd) (sp : OpSpec), s.cmd k = some c → halted s = false →
    (c.st = .ready ∨ c.st = .preempted ∨ c.st = .resuming) → ownRows (opcodeOf c.raw) = false → specOf (opcodeOf c.raw) = some sp →
    (c.started = true ∨ heldOn s c = false ∧ pairWaits s c = false ∧ (s.pwr.hold = false ∨ c.loads = [])) →
    ((c.started = true ∨ (sp.total s c).isSome = true) →
      (needsOffline s c = true → exec (.operationStart k) s = .next (intEval (settle (finish s k stOFFLINE c.progress)))) ∧
      (needsOffline s c = false → opcodeOf c.raw = 0x0311 → exec (.operationStart k) s = .next (intEval (redStart s k c))) ∧
      (needsOffline s c = false → opcodeOf c.raw ≠ 0x0311 →
        (libStarts (opcodeOf c.raw) = true → c.started = false → energyFits s (workEnergy s k c) = false →
          exec (.operationStart k) s = .next (intEval (settle (finish (energyRefused s) k stENERGY)))) ∧
        ((libStarts (opcodeOf c.raw) = false ∨ c.started = true ∨ energyFits s (workEnergy s k c) = true) →
          exec (.operationStart k) s = .next (intEval ((startOp s k c).getD s))))) ∧
    (c.started = false → sp.total s c = none → opcodeOf c.raw ≠ 0x0311 → libStarts (opcodeOf c.raw) = false →
      exec (.operationStart k) s = .next (intEval (sp.act s k)))) ∧
  (∀ (s : State) (k : Nat) (c : Cmd) (sp : OpSpec) (f : State → Nat → State), s.cmd k = some c → halted s = false →
    (c.st = .running ∨ c.st = .stopping) → ownRows (opcodeOf c.raw) = false → specOf (opcodeOf c.raw) = some sp → sp.step = some f →
    (granTurn s k c = true → exec (.granuleComplete k) s = .next (intEval (advance (afterUnit c (granPace c (f s k) k) k)))) ∧
    (granTurn s k c = false → exec (.granuleComplete k) s = .next (intEval s)))

/-- R238, R239: the granule of a FILL writes its part of the destination from the ink, repeated from the destination's start, and that of a COPY
what it reads from the source; each counts the granule, and the last ends the operation. Stated outside a pair (no order token). -/
def Obligations.FillAndCopyGranules : Prop :=
  ∀ (s : State) (k : Nat) (c : Cmd) (u v : State) (bs : List Byte), s.cmd k = some c → halted s = false → c.st = .running → c.mirSeq = 0 →
    granTurn s k c = true →
    (opcodeOf c.raw = 0x0300 →
      writeAll (accessing s) c.host (fillDst c + granOff (fillDst c) c.progress)
        ((List.range (granLen (fillDst c) (fillLen c) c.progress)).map fun i => fillByte c (granOff (fillDst c) c.progress + i)) = (.ok (), u) →
      exec (.granuleComplete k) s = .next (intEval (advance (afterUnit c (granPace c
        (accessed (endIfLast (granDone u k (granLen (fillDst c) (fillLen c) c.progress)) k fun _ => 0)) k) k)))) ∧
    (opcodeOf c.raw = 0x0301 →
      readAll (accessing s) c.host (c.par 24 8 + granOff (c.par 16 8) c.progress) (granLen (c.par 16 8) (c.par 32 8) c.progress) = (.ok bs, u) →
      writeAll u c.host (c.par 16 8 + granOff (c.par 16 8) c.progress) bs = (.ok (), v) →
      exec (.granuleComplete k) s = .next (intEval (advance (afterUnit c (granPace c
        (accessed (endIfLast (granDone v k (2 * granLen (c.par 16 8) (c.par 32 8) c.progress)) k fun _ => 0)) k) k))))

/-! ## Tiles (R156-R191) -/

/-- R157, R160: the control and scalar instructions that only move PC, the loop counters and the scalar registers. Two's complement arithmetic
modulo 2^64; SHIFT amounts in IMM[5:0]; SMOVHI keeps bits 31 to 0; a LOOP counter at 0 falls through and stays 0, one that reaches 0 falls
through, another branches; TRAP stops the tile with USER and its code. -/
def Obligations.ControlAndScalarInstructions : Prop :=
  tileSets (fun n i => .nop (.tile n i)) 0x00 (fun _ t => t) ∧
  tileDoes .br 0x03 (fun s n i => s.setTile n ((s.tile n).jump (immBits i 9 0))) ∧
  tileDoes .bcc 0x04 (fun s n i =>
    let x := (s.tile n).S i.a
    let y := (s.tile n).S i.b
    let cond := immBits i 18 16
    s.setTile n (if (cond = 0 ∧ x = y) ∨ (cond = 1 ∧ x ≠ y) ∨ (cond = 2 ∧ x < y) ∨ (cond = 3 ∧ y ≤ x) ∨ (cond = 4 ∧ x.toInt < y.toInt)
      ∨ (5 ≤ cond ∧ y.toInt ≤ x.toInt) then (s.tile n).jump (immBits i 9 0) else (s.tile n).next)) ∧
  tileSets .lseti 0x05 (fun i t => t.setL i.d i.imm) ∧
  tileSets .lset 0x06 (fun i t => t.setL i.d ((t.S i.a).setWidth 32)) ∧
  tileDoes .loop 0x07 (fun s n i =>
    let t := s.tile n
    s.setTile n (if t.L i.d = 0 then t.next else if t.L i.d = 1 then (t.setL i.d 0).next
      else (t.setL i.d (t.L i.d - 1)).jump (immBits i 9 0))) ∧
  tileSets .sadd 0x10 (fun i t => t.setS i.d (t.S i.a + t.S i.b)) ∧
  tileSets .ssub 0x11 (fun i t => t.setS i.d (t.S i.a - t.S i.b)) ∧
  tileSets .smul 0x12 (fun i t => t.setS i.d (t.S i.a * t.S i.b)) ∧
  tileSets .sand 0x13 (fun i t => t.setS i.d (t.S i.a &&& t.S i.b)) ∧
  tileSets .sor 0x14 (fun i t => t.setS i.d (t.S i.a ||| t.S i.b)) ∧
  tileSets .sxor 0x15 (fun i t => t.setS i.d (t.S i.a ^^^ t.S i.b)) ∧
  tileSets .saddi 0x16 (fun i t => t.setS i.d (t.S i.a + i.imm.signExtend 64)) ∧
  tileSets .sshl 0x17 (fun i t => t.setS i.d (t.S i.a <<< (i.imm.toNat % 64))) ∧
  tileSets .sshr 0x18 (fun i t => t.setS i.d (t.S i.a >>> (i.imm.toNat % 64))) ∧
  tileSets .ssra 0x19 (fun i t => t.setS i.d ((t.S i.a).sshiftRight (i.imm.toNat % 64))) ∧
  tileSets .smovi 0x1A (fun i t => t.setS i.d (i.imm.signExtend 64)) ∧
  tileSets .smovhi 0x1B (fun i t => t.setS i.d (i.imm ++ (t.S i.d).setWidth 32)) ∧
  tileDoes .gets 0x1C (fun s n i => s.setTile n ((s.tile n).setS i.d (BitVec.ofNat 64 (getsValue s n (i.imm.toNat % 16)))).next) ∧
  tileDoes .trap 0x02 (fun s n i => settle (trapTile s n 1 (i.imm.toNat % 65536)))

/-- R160, R162, R178: a scratch load or store with its span in the segment and aligned moves 64 or 8 bytes, and one whose span is not traps
OPERAND. A load that meets a word with an uncorrectable error traps SCRATCH_UE; words with a single-bit error are mended first (R155). R162: which scratch accesses are in order. The address is S[A] plus IMM[15:0] modulo 2^64, aligned to the access, and the span lies in the
program's segment. -/
def Obligations.ScratchInstructions : Prop :=
  (∀ (s : State) (n o : Nat) (i : TI), n < 10240 →
    let t := s.tile n
    (scratchAddr t i 64 = some o → scratchBad t (t.scrAt + o) 64 = false →
      let u := mendScratch s n (t.scrAt + o) 64
      (issues s n 0x20 i = true → exec (.vld n i) s = .next (intEval (u.setTile n ((u.tile n).setV i.d (BitVec.ofNat 512 (scratchGet t o 64))).next))) ∧
      (issues s n 0x22 i = true → exec (.ald n i) s = .next (intEval (u.setTile n ((u.tile n).setA i.d (BitVec.ofNat 512 (scratchGet t o 64))).next)))) ∧
    (scratchAddr t i 64 = some o →
      (issues s n 0x21 i = true → exec (.vst n i) s = .next (intEval (s.setTile n (scratchPut t o 64 (t.V i.d).toNat).next))) ∧
      (issues s n 0x23 i = true → exec (.ast n i) s = .next (intEval (s.setTile n (scratchPut t o 64 (t.A i.d).toNat).next)))) ∧
    (scratchAddr t i 8 = some o → scratchBad t (t.scrAt + o) 8 = false →
      let u := mendScratch s n (t.scrAt + o) 8
      issues s n 0x24 i = true → exec (.sld n i) s = .next (intEval (u.setTile n ((u.tile n).setS i.d (BitVec.ofNat 64 (scratchGet t o 8))).next))) ∧
    (scratchAddr t i 8 = some o →
      issues s n 0x25 i = true → exec (.sst n i) s = .next (intEval (s.setTile n (scratchPut t o 8 (t.S i.d).toNat).next))) ∧
    (scratchAddr t i 64 = none →
      (issues s n 0x20 i = true → exec (.vld n i) s = .next (intEval (settle (trapTile s n 2 0)))) ∧
      (issues s n 0x21 i = true → exec (.vst n i) s = .next (intEval (settle (trapTile s n 2 0))))) ∧
    (scratchAddr t i 64 = some o → scratchBad t (t.scrAt + o) 64 = true → issues s n 0x20 i = true →
      exec (.vld n i) s = .next (intEval (settle (trapTile s n 4 0 (BitVec.ofNat 64 o)))))) ∧
  (∀ (s : State) (n a w : Nat), scratchSingles (s.tile n) a w = [] → mendScratch s n a w = s) ∧
  (∀ (t : Tile) (i : TI) (w o : Nat), 0 < w → (scratchAddr t i w = some o ↔
    o = ((t.S i.a).toNat + i.imm.toNat % 65536) % 2 ^ 64 ∧ w ∣ o ∧ o + w ≤ t.seg.2.2.2.2 * 1024))

/-- R159, R160, R163, R164, R216, R217, R219: the matrix instructions. An MMA whose checks agree writes its accumulator tile and counts an MMA;
one whose checks do not traps MAC_CHECK, counted and reported as a fault of the tile (R225), as the row MAC_CHECK does by itself. R159, R160: UNPK spreads packed elements of 3 or 6 bits into their containers, and PACK packs them into bytes 0 to 47; bytes 48 to 63 of PACK's
destination are a free value of the operands, for the specification states none (log 43). R165-R167, R198, R203-R214, R220: the conversion instructions. -/
def Obligations.MatrixAndConversionInstructions : Prop :=
  (tileDoes .mma 0x40 (fun s n i => match mmaCheck s (s.tile n) i with
    | none => s.setTile n { ((s.tile n).setA i.d (mmaTile (s.tile n) i)).next with mmas := (s.tile n).mmas + 1 }
    | some p => settle (trapTile (cluMac s (cluOf n)) n 0x0A 0 0 p)) ∧
  tileSets .azero 0x41 (fun i t => t.setA i.d 0) ∧
  tileSets .aadd 0x42 (fun i t => t.setA i.d (vecOf 32 ((List.range 16).map fun k =>
    let x := (t.A i.a).toNat / 2 ^ (32 * k) % 2 ^ 32
    let y := (t.A i.b).toNat / 2 ^ (32 * k) % 2 ^ 32
    if i.fmt = 8 then (x + y) % 2 ^ 32 else f32Add x y))) ∧
  tileSets .amulv 0x43 (fun i t => t.setA i.d (vecOf 32 ((List.range 16).map fun k =>
    f32Mul (f32Mul ((t.A i.a).toNat / 2 ^ (32 * k) % 2 ^ 32) ((t.V i.b).toNat / 2 ^ (32 * (k / 4)) % 2 ^ 32))
      ((t.V i.b).toNat / 2 ^ (32 * (4 + k % 4)) % 2 ^ 32)))) ∧
  tileSets .amovv 0x44 (fun i t => t.setA i.d (t.V i.a)) ∧
  tileSets .vmova 0x45 (fun i t => t.setV i.d (t.A i.a)) ∧
  (∀ (s : State) (n : Nat) (b : Bool), n < 10240 → (s.tile n).st.active = true → (s.tile n).run.isSome = true →
    exec (.macCheck n b) s = .next (intEval (settle (trapTile (cluMac s (cluOf n)) n 0x0A 0 0 (if b then 5 else 4)))))) ∧
  (tileSets .unpk 0x56 (fun i t => t.setV i.d (if i.fmt = 11
    then vecOf 4 ((List.range 128).map fun k => fixContainer 11 ((t.V i.a).toNat / 2 ^ (3 * k) % 8))
    else vecOf 8 ((List.range 64).map fun k => (t.V i.a).toNat / 2 ^ (6 * k) % 64))) ∧
  tileSets .pack 0x57 (fun i t => t.setV i.d (Config.packHigh (t.V i.a) i.fmt i.imm ++ BitVec.ofNat 384 (if i.fmt = 11
    then packElems 3 ((elems 4 (t.V i.a).toNat).map (· % 8)) else packElems 6 ((elems 8 (t.V i.a).toNat).map (· % 64)))))) ∧
  (tileSets .cvt 0x50 (fun i t => cvtTile t i) ∧
  tileSets .vamax 0x51 (fun i t => t.setS i.d (BitVec.ofNat 64 (amaxOf (f32 ((t.S i.b).toNat % 2 ^ 32)
    :: (elems (container i.fmt.toNat) (t.V i.a).toNat).map (elemValue i.fmt.toNat))))) ∧
  tileSets .scale 0x52 (fun i t => t.setS i.d (BitVec.ofNat 64 (
    if i.imm.toNat % 2 = 0 then scaleMx i.fmt.toNat ((t.S i.a).toNat % 2 ^ 32)
    else scaleZb i.fmt.toNat ((t.S i.a).toNat % 2 ^ 32) ((t.S i.a).toNat / 2 ^ 32)))) ∧
  tileSets .cvtq 0x53 (fun i t =>
    let r := convertList (cvtqElem i.fmt.toNat (tileDivisor t i)) (immBits i 5 4) (elems 32 (t.V i.a).toNat) t.lfsr.toNat
    ((t.setV i.d (putChunk (container i.fmt.toNat) 16 (immBits i 11 8) (t.V i.d) r.1)).setLfsr r.2.1).count r.2.2.1 r.2.2.2) ∧
  tileSets .deq 0x54 (fun i t =>
    let cs := (chunkElems (container i.fmt.toNat) 16 (immBits i 11 8) (t.V i.a).toNat).map (deqElem i.fmt.toNat (tileDivisor t i))
    (t.setV i.d (vecOf 32 (cs.map (·.code)))).count (cs.filter (·.sat)).length (cs.filter (·.flush)).length) ∧
  tileSets .seed 0x55 (fun i t => t.setLfsr (seedOf (t.S i.a).toNat (t.S i.b).toNat t.logical)) ∧
  tileSets .vexp2 0x67 (fun i t => t.setV i.d (vecOf 32 ((elems 32 (t.V i.a).toNat).map exp2F32))) ∧
  tileSets .vbcast 0x68 (fun i t => t.setV i.d (vecOf (container i.fmt.toNat)
    (List.replicate (512 / container i.fmt.toNat) (fixContainer i.fmt.toNat (t.S i.a).toNat)))))

/-- R160, R168, R219: the vector instructions. A compare gives all ones or 0 in each element, a select goes byte by byte; the elementwise
operations count the saturations of INT8 in SATC; the reductions go in binary32. -/
def Obligations.VectorInstructions : Prop :=
  tileSets .vcmp 0x60 (fun i t => t.setV i.d (vecOf (container i.fmt.toNat) (List.zipWith
    (fun x y => if vecCmp i.fmt.toNat (i.imm.toNat % 8) x y then allOnes i.fmt.toNat else 0)
    (elems (container i.fmt.toNat) (t.V i.a).toNat) (elems (container i.fmt.toNat) (t.V i.b).toNat)))) ∧
  tileSets .vsel 0x61 (fun i t => t.setV i.d (vecOf 8 ((List.range 64).map fun k =>
    if (t.V i.c).toNat / 256 ^ k % 256 = 0 then (t.V i.b).toNat / 256 ^ k % 256 else (t.V i.a).toNat / 256 ^ k % 256))) ∧
  tileSets .vadd 0x62 (vecTile 0) ∧ tileSets .vsub 0x63 (vecTile 1) ∧ tileSets .vmul 0x64 (vecTile 2) ∧
  tileSets .vmax 0x65 (vecTile 3) ∧ tileSets .vmin 0x66 (vecTile 4) ∧
  tileSets .vred 0x70 (fun i t => t.setS i.d (BitVec.ofNat 64 (reduceF32 (i.imm.toNat % 4)
    ((elems (container i.fmt.toNat) (t.V i.a).toNat).map fun x => (convert i.fmt.toNat 0 .rne false x).code)))) ∧
  tileSets .arow 0x71 (fun i t => t.setV i.d (vecOf 32 ((List.range 4).map fun k => reduceF32 (i.imm.toNat % 4)
    ((List.range 4).map fun j => (convert 0 0 .rne false (accElem (t.A i.a) k j)).code))))

/-- R169-R176: the stream and synchronisation instructions. DLD and DST queue a transfer while fewer than eight wait, stall with eight, and trap OPERAND
on bad operands; DWAIT and HALT wait and are looked at again at once; SWAIT waits on its object; SSIG adds 1 or S[A] to its object; SREAD reads the
counter; GRAN counts a granule and, with a stop request, waits for its engines. -/
def Obligations.StreamInstructions : Prop :=
  (∀ (s : State) (n : Nat) (i : TI) (x : Xfer), n < 10240 →
    let e := immBits i 8 8 == 1
    let queued := s.setTile n ((s.tile n).setEng e { (s.tile n).eng e with queue := ((s.tile n).eng e).queue ++ [x] }).next
    (xferOf (s.tile n) i true = some x → ((s.tile n).eng e).queue.length < 8 → issues s n 0x30 i = true →
      exec (.dld n i) s = .next (intEval queued)) ∧
    (xferOf (s.tile n) i false = some x → ((s.tile n).eng e).queue.length < 8 → issues s n 0x31 i = true →
      exec (.dst n i) s = .next (intEval queued)) ∧
    (xferOf (s.tile n) i true = some x → 8 ≤ ((s.tile n).eng e).queue.length → issues s n 0x30 i = true → exec (.dld n i) s = .next (intEval s)) ∧
    (xferOf (s.tile n) i true = none → issues s n 0x30 i = true → exec (.dld n i) s = .next (intEval (settle (trapTile s n 2 0))))) ∧
  tileDoes .halt 0x01 (fun s n _ => settle (wakeDma (s.setTile n { s.tile n with st := .inHalt }) n)) ∧
  tileDoes .gran 0x08 (fun s n _ =>
    let t := { s.tile n with grans := (s.tile n).grans + 1 }
    if t.stopReq = true then settle (wakeDma (s.setTile n { t with st := .inGran }) n) else s.setTile n t.next) ∧
  tileDoes .dwait 0x32 (fun s n i =>
    settle (wakeDma (s.setTile n { s.tile n with st := .inDwait (immBits i 8 8 == 1) (i.imm.toNat % 16) }) n)) ∧
  tileDoes .swait 0x78 (fun s n i =>
    settle ((foldCycles s n).setTile n { (foldCycles s n).tile n with st := .inSwait (i.imm.toNat % 16) (immBits i 5 4) (foldCycles s n).now })) ∧
  (∀ (s : State) (n k : Nat) (c : Cmd) (i : TI), n < 10240 → runOf s n = some (k, c) →
    (issues s n 0x79 i = true → exec (.ssig n i) s = .next (intEval (postUpd (s.setTile n (s.tile n).next) (c.runSync (i.imm.toNat % 16))
      (.signal (if immBits i 5 5 = 1 then (s.tile n).S i.a else 1))))) ∧
    (issues s n 0x7A i = true → exec (.sread n i) s = .next (intEval
      (s.setTile n ((s.tile n).setS i.d (s.obj (c.runSync (i.imm.toNat % 16))).count).next))))

/-- R160, R177: an event of a tile that does not fetch the instruction does nothing, and R12: an event of a tile that the part does not have stops
with the fault of an operand that names no instance. R170-R174, R178, R188: the events of a running tile's engines and limits. -/
def Obligations.TileTimersRun : Prop :=
  (∀ (s : State) (n : Nat) (i : TI),
    (n < 10240 → fetches s n 0x10 i = false → exec (.sadd n i) s = .next (intEval s)) ∧
    (n < 10240 → fetches s n 0x40 i = false → exec (.mma n i) s = .next (intEval s)) ∧
    (10240 ≤ n → stopsNoInstance (exec (.sadd n i) s) ∧ stopsNoInstance (exec (.mma n i) s) ∧ stopsNoInstance (exec (.dld n i) s))) ∧
  (∀ (s : State) (n k : Nat) (c : Cmd) (e : Bool), n < 10240 → runOf s n = some (k, c) →
    (∀ (q : Xfer) (rest : List Xfer), ((s.tile n).eng e).queue = q :: rest → q.rows ≤ q.row → ((s.tile n).eng e).wait = 0 →
      ((s.tile n).eng e).halted = false →
      exec (.dmaTransferComplete n e) s = .next (intEval (settle (wakeDma (onEng s n e fun x => { x with queue := rest }) n)))) ∧
    (mayBurst s n e = true → exec (.dmaBurstIssue n e) s = .next (intEval (burstIssue s n e))) ∧
    (∀ slot mode since, (s.tile n).st = .inSwait slot mode since → pairHeld s = false → c.runWaitUs ≠ 0 → since + 1000 * c.runWaitUs < s.now →
      exec (.tileWaitLimit n) s = .next (intEval (settle (trapTile s n 9 0)))) ∧
    (∀ slot mode since, (s.tile n).st = .inSwait slot mode since → s.now ≤ since + 1000 * c.runWaitUs →
      exec (.tileWaitLimit n) s = .next (intEval s)) ∧
    (∀ p, s.prog c.runHandle = some p → pairHeld s = false → (s.tile n).st.active = true → p.maxCyc < workCycles s n →
      exec (.maxCyclesExceeded n) s = .next (intEval (settle (trapTile s n 8 0)))) ∧
    (∀ p, s.prog c.runHandle = some p → workCycles s n ≤ p.maxCyc → exec (.maxCyclesExceeded n) s = .next (intEval s)))

/-! ## Runs, reductions and lock-ups -/

/-- R187, R471: RUN_START of a run that is ready or pre-empted takes its tiles where they are free, its cores serve, no run of theirs that was
ready earlier waits and the energy fits: each tile of the placement starts at instruction 0 with its logical index, and the run starts at its
power floor (R470). R190, R248: where work holds its tiles, what is of lower priority is asked to give them up. R187, R437, R471: RUN_START of
a run whose program's partition went offline ends it PARTITION_OFFLINE, and one whose energy does not fit ENERGY_REFUSED; while starts are held
for energy it waits. -/
def Obligations.RunsStart : Prop :=
  ∀ (s : State) (k : Nat) (c : Cmd) (p : Prog), s.cmd k = some c → opcodeOf c.raw = 0x0381 → (c.st = .ready ∨ c.st = .preempted) →
    s.prog c.runHandle = some p →
    (p.state = 3 → exec (.runStart k) s = .next (intEval (settle (finish s k stOFFLINE c.progress)))) ∧
    (p.state ≠ 3 → s.pwr.hold = true → exec (.runStart k) s = .next (intEval s)) ∧
    (p.state ≠ 3 → s.pwr.hold = false → ctlServes s p.tiles = true → earlierRun s k c p.tiles = false →
      (p.tiles.any (tileTaken s) = true → exec (.runStart k) s = .next (intEval (preemptRuns s c p.tiles))) ∧
      (p.tiles.any (tileTaken s) = false →
        (c.started = true ∨ energyFits s (p.tiles.length * tilePower 0 * (p.maxCyc / 600) / 1000000000) = true →
          exec (.runStart k) s = .next (intEval (
            let t := (p.tiles.zip (List.range p.tiles.length)).foldl (startTile k p c.runHandle c.progress)
              (s.setCmd k { c with st := .running, started := true, startedAt := s.now, opState := c.progress })
            let u := ((p.tiles.map cluOf).eraseDups).foldl cluRun t
            setLevels { u with pwr := { u.pwr with runLvl := tabSet 0 u.pwr.runLvl k 0 } }))) ∧
        (c.started = false → energyFits s (p.tiles.length * tilePower 0 * (p.maxCyc / 600) / 1000000000) = false →
          exec (.runStart k) s = .next (intEval (settle (finish (energyRefused s) k stENERGY))))))

/-- R229, R230: SYNC_UPDATE_APPLY takes the updates on their way to an object, in the order that R230 gives, and applies each, answering the
command that sent it. R99-R101: a fault record that is not written yet is written to its queue slot, and a fault unresolved for its escalation time is
escalated, counted in `XLT_ESCALATED`. -/
def Obligations.ObjectAndFaultEventsRun : Prop :=
  (∀ (s : State) (i : Nat), i < 16384 →
    let ups := (s.sync.inFlight.filter (·.1 == i)).map (·.2)
    (ups = [] → exec (.syncUpdateApply i) s = .next (intEval s)) ∧
    (ups ≠ [] → exec (.syncUpdateApply i) s = .next (intEval (settle ((sortUpds ups).foldl (deliver i)
      { s with sync := { s.sync with inFlight := s.sync.inFlight.filter (·.1 != i) } }))))) ∧
  (∀ (s : State) (f : XFault),
    (s.xlt.pending.find? (fun g => g.id == f.id && !g.written) = some f →
      exec (.faultRecordWrite f.id) s = .next (intEval (faultRecordWrite s f))) ∧
    (s.xlt.pending.find? (fun g => g.id == f.id && decide (g.expiry ≤ s.now) && !pairHeld s) = some f →
      exec (.xltFaultEscalation f.id) s = .next (intEval (abortFault { s with xlt := { s.xlt with escalated := satAdd 32 s.xlt.escalated 1 } } f))) ∧
    (s.now < f.expiry → s.xlt.pending = [f] → exec (.xltFaultEscalation f.id) s = .next (intEval s)))

/-! ## Coherent windows (R293-R311) -/

/-- R138, R140, R298, R299, R302: a request of a listed agent of an open window, without a token, is charged as an item of TC3 at the memory stop of its line; green at an
idle stop, with no gate on the line (R104), it is counted and accepted where its line has no open transaction, and answered RETRY where it has
one; elsewhere it enters the stop's queue, and where its traffic is red it is answered RETRY; the requests of agents that are not listed, and of a window that is not open, are answered
DOWN; a line beyond the window is a protocol error that takes it down. R299: what a request that needs no snoop comes to. RD_S of an uncached line grants it exclusively and makes the requester its owner; of a shared
line adds a sharer; RD_X takes the line, and UPG by a sharer is granted without data. R294: a fifth sharer makes an entry BROADCAST, which then names no agent; a sharer that is listed is not added again. -/
def Obligations.CoherentRequests : Prop :=
  (∀ (s t : State) (m : CohMsg) (col : Nat), m.win < 64 → pairHeld s = false → m.token = 0 →
    let w := s.win m.win
    ∀ (code : Nat) (i : Instr), (code = 1 ∧ i = .rdS m) ∨ (code = 2 ∧ i = .rdX m) ∨ (code = 3 ∧ i = .upg m) →
    (w.state = 1 → agentListed w m = true → m.line < w.len / 64 → chargeItem s (agentHost s w m.agent) 64 = (col, t) →
      let a := winLine w m.line
      let pt := 10 * ppaPart a + stopOf t a
      (col = 1 → (t.point pt).items = [] → gated t a = false →
        ((tabFind w.trans m.line).isSome = false → exec i s = .next (intEval (settle (acceptReq t m.win m.line m.agent code m.txn)))) ∧
        ((tabFind w.trans m.line).isSome = true → exec i s = .next (intEval (cohRetry t m.win m true 0)))) ∧
      (col ≠ 3 → (col ≠ 1 ∨ (t.point pt).items ≠ [] ∨ gated t a = true) →
        exec i s = .next (intEval (enqueueItem t pt {
          tc := 3, color := col, bytes := 64, f := 0, since := t.now, work := .coh code m
          tag := BitVec.ofNat 32 m.txn, src := BitVec.ofNat 32 (2 ^ 20 + m.rank), elig := 0 }))) ∧
      (col = 3 → exec i s = .next (intEval (cohRetry t m.win m false 0)))) ∧
    ((w.state ≠ 1 ∨ agentListed w m = false) → exec i s = .next (intEval (answerDown s m))) ∧
    (w.state = 1 → agentListed w m = true → w.len / 64 ≤ m.line → exec i s = .next (intEval (settle (windowDown s m.win 2))))) ∧
  (∀ (s : State) (wi line txn : Nat) (r : Nat) (e : DirE), r < 64 →
    let t : Nat → Trans := fun code => { agent := r, code := code, txn := txn, snoops := [] }
    (e.st = 0 → serveReq s wi line (t 1) e = sendFill (dirWrite s (s.win wi) line { st := 2, ptrs := [r] }) wi 0x9 r line txn) ∧
    (e.st = 1 → serveReq s wi line (t 1) e = sendFill (dirWrite s (s.win wi) line (addSharer e r)) wi 0x8 r line txn) ∧
    (serveReq s wi line (t 2) e = sendFill (dirWrite s (s.win wi) line { st := 2, ptrs := [r] }) wi 0x9 r line txn) ∧
    (e.st = 1 → e.ptrs.contains r = true →
      serveReq s wi line (t 3) e = sendFill (dirWrite s (s.win wi) line { st := 2, ptrs := [r] }) wi 0xA r line txn) ∧
    (e.st = 0 → serveReq s wi line (t 3) e = sendFill (dirWrite s (s.win wi) line { st := 2, ptrs := [r] }) wi 0x9 r line txn)) ∧
  (∀ (e : DirE) (r : Nat),
    (e.st = 3 → addSharer e r = e) ∧
    (e.st = 1 → e.ptrs.contains r = true → addSharer e r = e) ∧
    (e.st ≠ 3 → e.ptrs.contains r = false → e.ptrs.length < 4 → addSharer e r = { st := 1, ptrs := e.ptrs ++ [r] }) ∧
    (e.st ≠ 3 → e.ptrs.contains r = false → 4 ≤ e.ptrs.length → addSharer e r = { st := 3, ptrs := [] }))

/-- R299, R300, R304, R309: answers. WB by the recorded owner writes the line, acknowledges and leaves the line uncached; a snoop answer that is
outstanding is taken, with its data where it carries any; a snoop or a token that is due is timed out. Stated of an open window. R302, R304: an answer that is due and not there takes an open window down with TIMEOUT, and before it is due nothing happens; a token 1 ms old without a request goes. -/
def Obligations.CoherentAnswers : Prop :=
  (∀ (s : State) (m : CohMsg), m.win < 64 → pairHeld s = false →
    let w := s.win m.win
    let t := chargeReserved s (agentHost s w m.agent) 64
    w.state = 1 → agentListed w m = true →
    (m.line < w.len / 64 → snooped w m.line m.agent = false →
      ∀ (e : DirE) (u : State), dirRead t w m.line = (some e, u) → e.st = 2 → e.ptrs = [m.agent] →
      ((cohWrite u w m).win m.win).state = 1 →
      exec (.wb m) s = .next (intEval (settle (dirWrite (sendCoh ((cohWrite u w m).setWin m.win ((cohWrite u w m).win m.win))
        m.win 0xB m.agent m.line m.txn 0 none false) w m.line { st := 0, ptrs := [] })))) ∧
    (snooped w m.line m.agent = true →
      exec (.rspAck m) s = .next (intEval (settle (dropSnoop t m.win m.line m.agent true))) ∧
      (w.discards.contains (m.line, m.agent) = false →
        exec (.rspNp m) s = .next (intEval (settle (dropSnoop t m.win m.line m.agent false)))) ∧
      exec (.rspData m) s = .next (intEval (settle (dropSnoop
        ((cohWrite t w m).setWin m.win { (cohWrite t w m).win m.win with wrote := w.wrote }) m.win m.line m.agent true)))) ∧
    (snooped w m.line m.agent = false → w.discards.contains (m.line, m.agent) = false →
      exec (.rspAck m) s = .next (intEval (settle (windowDown t m.win 2))))) ∧
  (∀ (s : State) (wi line agent : Nat) (t : Trans) (x : CohTok), wi < 64 →
    let w := s.win wi
    (tabFind w.trans line = some t → (t.snoops.any fun y => y.agent == agent && decide (y.at_ + 1000 * w.snoopUs ≤ s.now)) = true → w.state = 1 →
      exec (.snoopTimeout wi line agent) s = .next (intEval (settle (windowDown s wi 1)))) ∧
    (tabFind w.trans line = some t → (t.snoops.any fun y => y.agent == agent && decide (y.at_ + 1000 * w.snoopUs ≤ s.now)) = false →
      exec (.snoopTimeout wi line agent) s = .next (intEval s)) ∧
    (w.tokens = [x] → w.waits = [] → tokQueued s wi x.value = false → x.expiry ≤ s.now →
      exec (.cohTokenExpiry wi x.value) s = .next (intEval (settle (drainLine wi x.line 1 (dropTok s wi x.value))))) ∧
    (w.tokens = [x] → s.now < x.expiry → exec (.cohTokenExpiry wi x.value) s = .next (intEval s)))

/-! ## The tenant life cycle and the administrator's requests (R106-R128) -/

/-- R107, R108, R112: TENANT_CLAIM of an UNCLAIMED part with a ticket of its operator, for its device and at its claim counter, makes it CLAIMED with the ticket's
administrator key: tables, objects and log empty, counter and key generation up by one, epochs 0; in another state it answers STATE with `ISO_SCRUB`, and with a
bad ticket BAD_TICKET, and changes nothing else. TENANT_RELEASE by the administrator, or with such a ticket, releases. R109: TENANT_SCRUB_COMPLETE of a partition that is still to be scrubbed zeroes its memory, system areas included; with the last one the part is UNCLAIMED and
PERMILLE is 1000. -/
def Obligations.ClaimReleaseAndScrub : Prop :=
  (∀ (s : State) (t : Ticket) (sess : Option Nat), secServes s = true → s.flt.recovery = false →
    (s.iso.tenant = 0 → ticketOk s t = true →
      ∃ u, exec (.tenantClaim t) s = .next (intEval (respond u .plain 0x01 rSUCCESS)) ∧ u.iso.tenant = 1 ∧ u.iso.adminKey = t.adminKey
        ∧ u.iso.claims = s.iso.claims + 1 ∧ u.iso.keyGen = s.iso.keyGen + 1 ∧ u.iso.keys = true ∧ u.iso.epoch = 0 ∧ u.iso.log = []
        ∧ u.iso.hostsA = [] ∧ u.iso.grantsA = [] ∧ u.xlt.dirA = [] ∧ u.xlt.epoch = 0 ∧ u.sync.objs = [] ∧ u.fab.ranksA = [] ∧ u.fab.routeEpoch = 0
        ∧ u.churn.progs = [] ∧ u.work = {} ∧ u.mem = s.mem ∧ u.rings = s.rings) ∧
    (s.iso.tenant ≠ 0 → exec (.tenantClaim t) s = .next (intEval (respond s .plain 0x01 rSTATE (leBytes 4 (isoScrub s))))) ∧
    (s.iso.tenant = 0 → ticketOk s t = false → exec (.tenantClaim t) s = .next (intEval (respond s .plain 0x01 rBAD_TICKET))) ∧
    (secAuth s sess = true → exec (.tenantRelease sess none) s = .next (intEval (respond (release s) (framed sess) 0x02 rSUCCESS))) ∧
    (secAuth s sess = false → exec (.tenantRelease sess none) s = .next (intEval (respond s (framed sess) 0x02 rNO_SESSION))) ∧
    (s.iso.tenant = 1 → ticketOk s t = true → t.adminKey = s.iso.adminKey → t.tenantId = s.iso.tenantId →
      exec (.tenantRelease sess (some t)) s = .next (intEval (respond (release s) (framed sess) 0x02 rSUCCESS)))) ∧
  (∀ (s : State) (p : Nat), p < 8 → s.iso.tenant = 3 → bitOf s.iso.pendingP.toNat p = true → s.online p = true →
    exec (.tenantScrubComplete p) s = .next (intEval (scrubDone (scrubPart s p) p)) ∧
    (s.iso.pendingP &&& ~~~(BitVec.ofNat 8 (2 ^ p)) = 0 → (scrubDone (scrubPart s p) p).iso.tenant = 0 ∧ (scrubDone (scrubPart s p) p).iso.permille = 1000) ∧
    (s.iso.pendingP &&& ~~~(BitVec.ofNat 8 (2 ^ p)) ≠ 0 → (scrubDone (scrubPart s p) p).iso.tenant = 3))

/-- R113-R117, R121, R124, R126: the administrator's requests on a part outside a pair are carried out and answered: the tables' shadow copies, the commits, the
log, the binding sets and the weight ranges; ISO_COMMIT once no line that was translated under the old tables is under way (R117). R112: without a session authenticated with the administrator key each of these requests answers NO_SESSION and changes nothing else. -/
def Obligations.AdministratorRequestsRun : Prop :=
  (∀ (s : State) (sess : Option Nat), adminTakes s sess = true →
    (∀ h e, exec (.hostSet sess h e) s = .next (intEval (answered (framed sess) 0x10 (hostSet s h e)))) ∧
    (∀ h, exec (.hostClear sess h) s = .next (intEval (answered (framed sess) 0x11 (hostClear s h)))) ∧
    (∀ h r x, exec (.grantSet sess h r x) s = .next (intEval (answered (framed sess) 0x20 (grantSet s h r x)))) ∧
    (commitWaits s sess = false → exec (.isoCommit sess) s = .next (intEval (answered (framed sess) 0x21 (isoCommit s)))) ∧
    (commitWaits s sess = true → exec (.isoCommit sess) s = .next (intEval (drainDma s))) ∧
    (∀ m, exec (.bindsetLoad sess m) s = .next (intEval (answered (framed sess) 0x30 (bindsetLoad s m)))) ∧
    (∀ d, exec (.weightClear sess d) s = .next (intEval (answered (framed sess) 0x32 (weightClear s d.toNat)))) ∧
    (∀ f n, exec (.logRead sess f n) s = .next (intEval (answered (framed sess) 0x40 (logRead s f n)))) ∧
    (∀ src dst hid t, weightUnwrap s (framed sess) src.toNat dst.toNat hid = (none, t) → t.mir.state = 0 →
      exec (.weightUnwrap sess src dst hid) s = .next (intEval t)) ∧
    (∀ src dst hid code t, weightUnwrap s (framed sess) src.toNat dst.toNat hid = (some code, t) →
      exec (.weightUnwrap sess src dst hid) s = .next (intEval (respond t (framed sess) 0x31 code)))) ∧
  (∀ (s : State) (sess : Option Nat), secServes s = true → s.flt.recovery = false → secAuth s sess = false →
    let no : Nat → Host.Outcome State Fault Refusal := fun req => .next (intEval (respond s (framed sess) req rNO_SESSION))
    (∀ h e, exec (.hostSet sess h e) s = no 0x10) ∧ (∀ h, exec (.hostClear sess h) s = no 0x11) ∧
    (∀ h r x, exec (.grantSet sess h r x) s = no 0x20) ∧ exec (.isoCommit sess) s = no 0x21 ∧ (∀ m, exec (.bindsetLoad sess m) s = no 0x30) ∧
    (∀ a b h, exec (.weightUnwrap sess a b h) s = no 0x31) ∧ (∀ d, exec (.weightClear sess d) s = no 0x32) ∧
    (∀ f n, exec (.logRead sess f n) s = no 0x40))

/-- R113-R117: what those requests write. HOST_SET writes the shadow entry without the fields of XLT_S1_ROOT; HOST_CLEAR invalidates it and takes its grants from the
shadow; GRANT_SET adds a grant that is new where a bucket has room, changes one, or with no rights removes it; ISO_COMMIT makes both shadows active and counts the epoch. None but
ISO_COMMIT touches the active tables. R125, R126, R393: WEIGHT_CHUNK_COMPLETE reads the next chunk of the unwrap that runs from its source and writes what it opens to at its place, where its tag is good; a
bad tag zeroes the destination and answers BAD_IMAGE; where a partition of the destination is offline the request fails with BUSY.
FORWARDED_TENANT_REQUEST applies the active's request on a standby, and does nothing on another part. -/
def Obligations.AdministratorTablesChange : Prop :=
  (∀ (s : State) (hid rid : Nat) (e : BitVec 256) (x : Rights),
    (hostSet s hid e).2.2.iso.hostsA = s.iso.hostsA ∧ (hostSet s hid e).2.2.iso.grantsA = s.iso.grantsA ∧
    (hostClear s hid).2.2.iso.hostsA = s.iso.hostsA ∧ (hostClear s hid).2.2.iso.grantsA = s.iso.grantsA ∧
    (grantSet s hid rid x).2.2.iso.hostsA = s.iso.hostsA ∧ (grantSet s hid rid x).2.2.iso.grantsA = s.iso.grantsA ∧
    (hid ≤ 65535 → ∀ old, tabFind s.iso.hostsS hid = some old →
      (hostClear s hid).2.2.iso.hostsS = tabIns s.iso.hostsS hid { old with valid := false }
        ∧ ∀ g ∈ (hostClear s hid).2.2.iso.grantsS, g.2.host ≠ hid) ∧
    (hid ≤ 65535 → rid < 2 ^ 20 → tabFind s.iso.bound rid = none → ∀ i, grantSlot s.iso.grantsS hid rid = some i →
      (grantSet s hid rid x).2.2.iso.grantsS =
        if x = 0 then tabDel s.iso.grantsS i else tabIns s.iso.grantsS i { host := hid, rid := rid, rights := x }) ∧
    (hid ≤ 65535 → rid < 2 ^ 20 → tabFind s.iso.bound rid = none → x ≠ 0 → grantSlot s.iso.grantsS hid rid = none → ∀ i,
      (grantSlots hid rid).find? (fun i => (tabFind s.iso.grantsS i).isNone) = some i →
      (grantSet s hid rid x).2.2.iso.grantsS = tabIns s.iso.grantsS i { host := hid, rid := rid, rights := x }) ∧
    (isoCommit s).1 = rSUCCESS) ∧
  (∀ (s v : State) (u : Unwrap) (bs : List Byte), s.iso.unwrap = some u →
    let a := u.dstPpa + u.next * 2 ^ 22
    let n := chunkLen u
    (secServes s = true → (u.next = 0 → destBusy s u = false) →
      (tierUp s (ppaCream a) (ppaPart a) = false → exec (.weightChunkComplete u.rid u.next) s = .next (intEval (unwrapLost s u))) ∧
      (tierUp s (ppaCream a) (ppaPart a) = true → readGran s u.host (chunkAt u) (n + 16) = (.ok bs, v) →
        (∀ plain, openChunk v u bs = some plain → u.length ≤ u.next * 2 ^ 22 + n →
          exec (.weightChunkComplete u.rid u.next) s = .next (intEval (unwrapEnd (secWrite v a plain) rSUCCESS))) ∧
        (∀ plain, openChunk v u bs = some plain → u.next * 2 ^ 22 + n < u.length →
          exec (.weightChunkComplete u.rid u.next) s = .next (intEval { secWrite v a plain with
            iso := { (secWrite v a plain).iso with unwrap := some { u with next := u.next + 1 } } })) ∧
        (openChunk v u bs = none → exec (.weightChunkComplete u.rid u.next) s = .next (intEval (unwrapEnd (unbindZero v u.rid) rBAD_IMAGE))))) ∧
    (s.mir.state = 2 → exec (.forwardedTenantRequest 0x20 bs) s = .next (intEval
      (grantSet s (leAt bs 0 2) (leAt bs 2 3) (BitVec.ofNat 3 (leAt bs 5 1))).2.2)) ∧
    (s.mir.state = 0 → exec (.forwardedTenantRequest 0x20 bs) s = .next (intEval s)))

/-- R112, R127: sessions. KEY_EXCHANGE begins the session of the lowest free number where fewer than 32 are in use, and FINISH with a good proof establishes it with the requester's key
(a bad proof ends it); HEARTBEAT answers, KEY_UPDATE counts a key, END_SESSION ends it. R129: a session that is established begins the seal of its host
(which host that is, is a free value, log 41), with both counters at their start; its end takes the key. R127: the requests of attestation that change no session, each in a connection that has come to its stage: it is answered, and the body is a free value of the response
(the codes and the stages are the model's, log 30). -/
def Obligations.SessionsAndAttestation : Prop :=
  (∀ (s : State) (p : SpdmPath) (n : Nat) (x : Session), secServes s = true → tabFind s.iso.sessions n = some x →
    (3 ≤ tabGet 0 s.iso.spdm (spdmIx p) →
      (∀ bs, tabGap s.iso.sessions 0 < 32 → exec (.keyExchange p bs) s = .next (intEval (spdmSend
        (setSession { s with iso := { s.iso with sessNo := s.iso.sessNo + 1 } } (tabGap s.iso.sessions 0) { serial := s.iso.sessNo + 1 })
        (.transport p) 0xE4 0x64 (BitVec.ofNat 8 (tabGap s.iso.sessions 0) :: Config.spdmBody 0xE4 bs s.free)))) ∧
      (∀ key proof, x.established = false → Config.finishOk key proof n = true →
        let y := { x with established := true, mutualKey := some key }
        exec (.finish p n (some key) proof) s = .next (intEval (spdmSend (beginSeal (setSession s n y) y) (.transport p) 0xE5 0x65 []))) ∧
      (∀ proof, x.established = false →
        let y := { x with established := true, mutualKey := none }
        exec (.finish p n none proof) s = .next (intEval (spdmSend (beginSeal (setSession s n y) y) (.transport p) 0xE5 0x65 []))) ∧
      (∀ key proof, x.established = false → Config.finishOk key proof n = false →
        exec (.finish p n (some key) proof) s = .next (intEval (spdmError { s with iso := { s.iso with sessions := tabDel s.iso.sessions n } }
          (.transport p) 0xE5 0x06)))) ∧
    (x.established = true →
      exec (.heartbeat n) s = .next (intEval (spdmSend s (.session n) 0xE8 0x68 [])) ∧
      (let y := { x with keyGen := x.keyGen + 1 }
       exec (.keyUpdate n) s = .next (intEval (spdmSend (renewSeal (setSession s n y) y) (.session n) 0xE9 0x69 []))) ∧
      exec (.endSession n) s = .next (intEval (spdmSend
        (endSeal { s with iso := { s.iso with sessions := tabDel s.iso.sessions n } } x) (.session n) 0xEC 0x6C [])))) ∧
  (∀ (s : State) (p : SpdmPath), secServes s = true →
    let at_ := tabGet 0 s.iso.spdm (spdmIx p)
    let stage : Nat → State := fun n => { s with iso := { s.iso with spdm := tabSet 0 s.iso.spdm (spdmIx p) n } }
    let reply : Nat → Nat → Nat → List Byte → Host.Outcome State Fault Refusal := fun req rsp n body =>
      .next (intEval ({ stage n with out := s.out ++ [.sec (.transport p) req rsp (Config.spdmBody req body s.free)], free := s.free + 1 }))
    exec (.getVersion p) s = reply 0x84 0x04 1 [] ∧
    (1 ≤ at_ → exec (.getCapabilities p) s = reply 0xE1 0x61 2 []) ∧
    (2 ≤ at_ → exec (.negotiateAlgorithms p) s = reply 0xE3 0x63 3 []) ∧
    (3 ≤ at_ → exec (.getDigests p) s = reply 0x81 0x01 3 []) ∧
    (3 ≤ at_ → ∀ slot off len, exec (.getCertificate p slot off len) s = reply 0x82 0x02 3 (leBytes 1 slot ++ leBytes 2 off ++ leBytes 2 len)) ∧
    (3 ≤ at_ → ∀ nonce, exec (.challenge p nonce) s = reply 0x83 0x03 3 nonce) ∧
    (3 ≤ at_ → ∀ i, 1 ≤ i → i ≤ 5 → exec (.getMeasurements p i) s =
      .next (intEval (spdmSend s (.transport p) 0xE0 0x60 (1 :: BitVec.ofNat 8 i :: Config.sha384 (measured s i)))))) ∧
  (∀ (s : State) (x : Session) (h : Nat), Config.sessionHost x.serial x.mutualKey = some h →
    tabFind (beginSeal s x).iso.sealKey h = some (x.serial, x.keyGen) ∧ tabFind (beginSeal s x).iso.sealIn h = none ∧
    tabFind (beginSeal s x).iso.sealOut h = none)

/-- R128: TDISP moves an interface from CONFIG_UNLOCKED to CONFIG_LOCKED to RUN and back; an error in one of the latter two stops the interface's rings. IDE_KM in an established
session sets up link IDE and up to 16 selective streams. -/
def Obligations.ConfidentialHostRequestsRun : Prop :=
  ∀ (s : State) (i n : Nat) (x : Session), i ≤ 16 → tabFind s.iso.sessions n = some x → x.established = true → secServes s = true →
    let st := tabGet 0 s.iso.tdisp i
    let put : Nat → State := fun v => { s with iso := { s.iso with tdisp := tabSet 0 s.iso.tdisp i v } }
    (st = 0 → exec (.tdispRequest i .lock) s = .next (intEval (put 1))) ∧
    (st = 1 → exec (.tdispRequest i .start) s = .next (intEval (put 2))) ∧
    exec (.tdispRequest i .stop) s = .next (intEval (put 0)) ∧
    (st ≠ 0 → exec (.tdispRequest i .error) s = .next (intEval ((ifaceRings s i).foldl stopAndCancel (put 3)))) ∧
    (∀ b, exec (.ideKmRequest (some n) none b) s = .next (intEval { s with iso := { s.iso with linkIde := b } })) ∧
    (∀ k, (s.iso.streams.filter (· != k)).length < 16 →
      exec (.ideKmRequest (some n) (some k) true) s = .next (intEval { s with iso := { s.iso with streams := s.iso.streams.filter (· != k) ++ [k] } }))

/-! ## Power, reset and boot (R449-R453, R499-R510) -/

/-- R499-R509: the pins. RESET_N low resets the device, and its rise releases it or is kept until it may; RESET_N low
for 1 s is reported in the SAF status byte; PWRGD low resets, and 100 ms of it clear a trip; the SMBus reads and
clears the status byte; loss of VDD_SAF leaves SAF as at power-up; PERST_N and a function-level reset reset the rings.
R111, R506: a device reset leaves SAF, the fuses, the claim counter and key generation, the host identities of the
rings, the contents of memory and the flash record, and puts every other unit at its value of reset. That memory keeps
its bytes over RESET_N and a release is taken once it may be are the model's choices (logs 3, 36). -/
def Obligations.PinEventsRun : Prop :=
  (∀ s : State,
    (s.pins.vddSaf = true →
      (s.pins.resetN = true → ∀ d, d = deviceReset s →
        exec .resetNAssert s = .next (intEval { d with pins := { d.pins with resetN := false, resetLowAt := s.now - 1000 }, saf := { d.saf with resetHeld := false } })) ∧
      (s.pins.resetN = false → s.boot.inReset = true → ∀ p, p = { s.pins with resetN := true } → ∀ a, a = { s.saf with statusByte := s.saf.statusByte &&& 0xFE } →
        (releaseOk s = true → exec .resetNRelease s = .next (intEval { s with
          pins := p, saf := a, devStart := s.now, boot := { s.boot with inReset := false, releasePend := false, stage := 0, stageAt := s.now } })) ∧
        (releaseOk s = false → exec .resetNRelease s = .next (intEval { s with pins := p, saf := a, boot := { s.boot with releasePend := true } }))) ∧
      (s.pins.resetN = false → s.pins.pwrgd = true → s.pins.resetLowAt + 1000000000 ≤ s.now →
        exec .resetHeld s = .next (intEval { s with saf := { s.saf with resetHeld := true, statusByte := s.saf.statusByte ||| 1 } })) ∧
      (s.pins.pwrgd = true → ∀ d, d = deviceReset s → exec .pwrgdFall s = .next (intEval { d with
        pins := { d.pins with pwrgd := false, pwrgdLowAt := s.now - 1000 }, boot := { d.boot with releasePend := s.pins.resetN } })) ∧
      (s.pins.pwrgd = false → s.saf.tripped = true →
        (s.pins.pwrgdLowAt + 100000000 ≤ s.now → exec .pwrgdRise s = .next (intEval { s with
          pins := { s.pins with pwrgd := true, pwrgdHighAt := s.now, thermtripN := true }, saf := { s.saf with tripped := false } })) ∧
        (s.now < s.pins.pwrgdLowAt + 100000000 → exec .pwrgdRise s = .next (intEval { s with pins := { s.pins with pwrgd := true, pwrgdHighAt := s.now } }))) ∧
      exec .smbusReceiveByte s = .next (intEval { s with out := s.out ++ [.smbus s.saf.statusByte] }) ∧
      exec (.smbusSendByte 0xFF) s = .next (intEval { s with saf := { s.saf with statusByte := s.saf.statusByte &&& 0xF3 } }) ∧
      (∀ d, d = resetUnits s → exec .vddSafLoss s = .next (intEval { d with
        mem := { d.mem with bytes := [], err := [] }, saf := {}, pins := { vddSaf := false, pwrgd := false, resetN := false, perstN := s.pins.perstN } }))) ∧
    (s.pins.vddSaf = false → ∀ d, d = resetUnits s → exec .powerUp s = .next (intEval { d with
      saf := {}, pins := { vddSaf := true, pwrgd := false, resetN := false, perstN := s.pins.perstN, resetLowAt := s.now, pwrgdLowAt := s.now } })) ∧
    (pcieUp s = true → exec .perstNAssert s = .next (intEval (ringsReset { s with pins := { s.pins with perstN := false } }))) ∧
    exec .perstNRelease s = .next (intEval { s with pins := { s.pins with perstN := true } }) ∧
    (pcieUp s = true → exec .functionLevelReset s = .next (intEval (ringsReset s)))) ∧
  (∀ s : State, deviceReset s = { resetUnits s with saf := { s.saf with statusByte := s.saf.statusByte &&& 0xFD } }) ∧
  (∀ s : State, let t := resetUnits s
    t.fuses = s.fuses ∧ t.now = s.now ∧ t.saf = s.saf ∧ t.iso.claims = s.iso.claims ∧ t.iso.keyGen = s.iso.keyGen ∧ t.mem.bytes = s.mem.bytes ∧ t.mem.err = s.mem.err ∧
    t.boot.inReset = true ∧ t.boot.stage = 0 ∧ t.iso.tenant = State.reset.iso.tenant ∧ t.iso.hostsA = [] ∧ t.iso.grantsA = [] ∧ t.iso.keys = State.reset.iso.keys
    ∧ t.xlt = State.reset.xlt ∧ t.store = State.reset.store ∧ t.qos = State.reset.qos ∧ t.churn = State.reset.churn ∧ t.sync = State.reset.sync ∧ t.work = State.reset.work
    ∧ t.coh = State.reset.coh ∧ t.fab = State.reset.fab ∧ t.lanes = State.reset.lanes ∧ t.mir = State.reset.mir ∧ t.flt = State.reset.flt ∧ t.pwr = State.reset.pwr
    ∧ t.intr = State.reset.intr ∧ (∀ n, (t.ring n).en = false))

/-- R451-R453, R504, R505: the boot stages in order. Three strap samples that agree are latched and ones that do not
end in STRAP_UNSTABLE; a slot is chosen by the straps and the slot states; each stage that completes leads to the
next; a stage beyond its bound of 500 ms ends in BOOT_FAILED with DETAIL 2. What an operand of the event means is the
model's reading (log 36). -/
def Obligations.BootStagesRun : Prop :=
  ∀ (s : State) (v : List Bool), s.boot.inReset = false → s.saf.tripped = false → s.flt.failed = false →
    (s.boot.stage = 0 → exec (.bootStageComplete v) s = .next (intEval { s with boot := { s.boot with samples := [], stage := 1, stageAt := s.now } })) ∧
    (s.boot.stage = 1 → s.boot.strapsValid = true →
      exec (.bootStageComplete v) s = .next (intEval { s with boot := { s.boot with stage := 2, stageAt := s.now } })) ∧
    (s.boot.stage = 2 → ∀ x f, slotChoose s (fun i => v.getD i false) = (some x, f) →
      exec (.bootStageComplete v) s = .next (intEval { s with
        fw := { f with running := x }, boot := { s.boot with slot := x, stage := 3, stageAt := s.now }
        flt := { s.flt with heartbeats := tabSet 0 s.flt.heartbeats (unitOf 5 0).toNat s.now } })) ∧
    (s.boot.stage = 2 → s.boot.bootSel = 0 → ∀ f, slotChoose s (fun i => v.getD i false) = (none, f) →
      exec (.bootStageComplete v) s = .next (intEval { s with
        fw := { f with romMode := true }, boot := { s.boot with stage := 10, stageAt := s.now, detail := 1 } })) ∧
    (s.boot.stage = 5 → exec (.bootStageComplete v) s = .next (intEval
      { bootTo (startScrub s) 6 with fw := { (startScrub s).fw with fwReady := true } })) ∧
    (s.boot.stage = 2 → s.boot.stageAt + 500000000 < s.now → exec .bootStageTimeout s = .next (intEval (bootFail s 2))) ∧
    (s.boot.stage = 2 → s.now ≤ s.boot.stageAt + 500000000 → exec .bootStageTimeout s = .next (intEval s)) ∧
    (s.boot.stage = 1 → s.boot.stageAt + 1000000 ≤ s.now → ∀ a b c : BitVec 5, s.boot.samples = [a, b] →
      (a = b ∧ b = c → exec (.strapSample c) s = .next (intEval { s with
        boot := { s.boot with samples := [a, b, c], strapsValid := true, skimDpc := bitOf c.toNat 4, pairRole := c.toNat / 4 % 4, bootSel := c.toNat % 4 }
        saf := { s.saf with unstable := false }, mir := { s.mir with strapErr := c.toNat / 4 % 4 == 3 } })) ∧
      (¬ (a = b ∧ b = c) → exec (.strapSample c) s = .next (intEval { s with
        boot := { s.boot with samples := [a, b, c], stage := 9, stageAt := s.now }
        saf := { s.saf with unstable := true, sample0 := a, sample1 := b, sample2 := c, statusByte := s.saf.statusByte ||| 2 } })))

/-! ## The Rirdaul links (R312-R357) -/

/-- R317-R319, R323, R326, R329: a flit on an ACTIVE link. Under DISCARD and in a replay nothing but what ends them is taken; otherwise a Sequence flit is good under the number expected, and a Fixed
one under the fixed seed. A good flit's ACK, of no more than is held, and its credit, of no more than the partner has, are taken first. DATA goes on by one number and adds to its packet; IDLE brings its
six credits; REPLAY_MARK sets where the replay begins; NAK starts a replay; LINK_REQ and LINK_ACK are answered or carried out; INIT is answered, and in INIT it may complete the exchange (log 47). A DATA flit of a
replay brings no data. A DATA flit that fails is an error: one NAK, and DISCARD. -/
def Obligations.FlitsArrive : Prop :=
  ∀ (s : State) (p : Nat) (f : List Byte), p < 14 → f.length = 256 →
    let l := s.link p
    let h := leAt f 0 8
    let pay := (f.drop 8).take 240
    let good : Nat → Bool := fun seed => leAt f 248 8 == crc64 seed (f.take 248)
    let t := (takeHeader s p h).2
    (l.state = 3 → headerOk l h = true →
      ((∀ k ∈ l.replayBuf, ∀ q, k.pkt = some q → q.ptype ≠ 8) → ∃ u, t = s.setLink p u ∧ u.e = l.e ∧ u.txSeq = l.txSeq ∧ u.replayBuf = l.replayBuf.drop (ackCount l h)
        ∧ u.credits = if h / 2 ^ 4 % 8 < 6 then l.credits.set (h / 2 ^ 4 % 8) (l.credits.getD (h / 2 ^ 4 % 8) 0 + creditCount l h) else l.credits) ∧
      (good l.e = true → l.discard = false → l.replayPos = none →
        (h % 16 = 0 → exec (.data p f) s = .next (intEval (takeData arrivePkt (t.onLink p fun l => { l with e := (l.e + 1) % 65536 }) p h pay))) ∧
        (h % 16 = 1 → exec (.idle p f) s = .next (intEval (takeIdle t p pay))) ∧
        (h % 16 = 5 → exec (.linkReq p f) s = .next (intEval (takeReq t p pay))) ∧
        (h % 16 = 6 → exec (.linkAck p f) s = .next (intEval (takeAckMsg t p pay)))) ∧
      (∀ r, good r = true → l.discard = false → l.replayPos = some r → h % 16 = 0 →
        exec (.data p f) s = .next (intEval (t.onLink p fun l => { l with replayPos := if (r + 1) % 65536 = l.e then none else some ((r + 1) % 65536) }))) ∧
      (good 0x10000 = true →
        (h % 16 = 2 → ((t.link p).e + 65536 - leAt pay 0 2) % 65536 ≤ 1024 → exec (.replayMark p f) s = .next (intEval (t.setLink p
          { t.link p with discard := false, replayPos := if leAt pay 0 2 = (t.link p).e then none else some (leAt pay 0 2) }))) ∧
        (h % 16 = 3 → exec (.nak p f) s = .next (intEval (startReplay t p 1))))) ∧
    (good 0x10000 = true → h % 16 = 4 →
      (l.state = 3 → exec (.init p f) s = .next (intEval (sendInit s p))) ∧
      (l.state = 2 → exec (.init p f) s = .next (intEval (takeInit s p pay)))) ∧
    (l.state = 3 → l.discard = true → h % 16 ≠ 2 → h % 16 ≠ 3 → h % 16 ≠ 4 →
      (h % 16 = 0 → exec (.data p f) s = .next (intEval s)) ∧
      (h % 16 = 1 → exec (.idle p f) s = .next (intEval s))) ∧
    (l.state = 3 → good l.e = false → good 0x10000 = false → l.discard = false → l.replayPos = none → h % 16 = 0 →
      exec (.data p f) s = .next (intEval (s.setLink p { bumpCrc l with nakDue := true, discard := true, replayPos := none })))

/-- R316, R318, R319, R323: FLIT_TRANSMIT of an ACTIVE port sends one flit: a NAK that is due first, then a REPLAY_MARK, then what is replayed; a new flit takes the next number, one credit of its type and a place in
the replay buffer. With nothing to send, or after 47 DATA flits in a row, it is an IDLE. -/
def Obligations.FlitsTransmit : Prop :=
  ∀ (s : State) (p : Nat), p < 14 → (s.link p).state = 3 →
    let l := noteStarved (s.link p) s.now
    let u := s.setLink p l
    let x := (List.range 6).foldl (fun n t => n + 2 ^ (12 * t) * (l.freed.getD t 0 % 4096)) 0
    (l.nakDue = true → exec (.flitTransmit p) s = .next (intEval
      ((sendFixed u p 3 (leBytes 2 l.e)).onLink p fun l => { l with nakDue := false, run := 0 }))) ∧
    (∀ r, l.nakDue = false → l.markDue = some r → exec (.flitTransmit p) s = .next (intEval
      ((sendFixed u p 2 (leBytes 2 (nextSeq l) ++ leBytes 1 r)).onLink p fun l => { l with markDue := none, run := 0 }))) ∧
    (∀ f rest, l.nakDue = false → l.markDue = none → l.run < 47 → l.replaying = f :: rest → exec (.flitTransmit p) s = .next (intEval
      ((sendFlit (u.setLink p { l with replaying := rest }) p 0 f.seq f.vc f.sop f.eop f.bytes.length f.bytes).onLink p fun l => { l with run := l.run + 1 }))) ∧
    (∀ i f, l.nakDue = false → l.markDue = none → l.run < 47 → l.replaying = [] → l.replayBuf.length < 1024 → readyFlit l = some i → l.waiting[i]? = some f →
      exec (.flitTransmit p) s = .next (intEval (
        (sendFlit (u.setLink p { l with
          waiting := l.waiting.eraseIdx i, credits := l.credits.set f.vc (l.credits.getD f.vc 0 - 1), txSeq := (l.txSeq + 1) % 65536
          replayBuf := l.replayBuf ++ [{ f with seq := l.txSeq }], timerAt := if l.replayBuf = [] then s.now else l.timerAt })
          p 0 l.txSeq f.vc f.sop f.eop f.bytes.length f.bytes).onLink p fun l => { l with run := l.run + 1 }))) ∧
    (l.nakDue = false → l.markDue = none → (47 ≤ l.run ∨ (l.replaying = [] ∧ (1024 ≤ l.replayBuf.length ∨ readyFlit l = none))) →
      exec (.flitTransmit p) s = .next (intEval ((sendSeq u p 1 (leBytes 9 x ++ leBytes 2 l.replayBuf.length)).onLink p fun l => { l with run := 0 })))

/-- R319, R320, R324-R326, R330: the timers and registers of a link. The replay timer starts a replay with REASON 0 of what is held; a type without credit for the timeout takes the link down; an INIT goes
every microsecond; a HOLDOFF of 1 s ends in DOWN, or in training where two lanes see a signal already; a retrain of 5 ms takes the link down. Before their moments the timers do nothing. RFL_CTRL asks for a retrain,
takes down or starts the port. R330: taking down a link that is in DOWN or HOLDOFF does nothing; a port in training enters HOLDOFF with nothing in its buffers and its lanes off, and no other port changes. -/
def Obligations.LinkTimersRun : Prop :=
  (∀ (s : State) (p ty t : Nat), p < 14 →
    let l := s.link p
    let x := s.lanePort p
    let held := s.setLink p { l with state := 0 }
    (l.state = 3 → l.replayBuf ≠ [] → l.timerAt + 100 * l.replayTimer ≤ s.now →
      exec (.replayTimerExpiry p) s = .next (intEval (startReplay s p 0)) ∧
      (l.replayCnt + 1 < l.replayLimit → exec (.replayTimerExpiry p) s = .next (intEval (s.setLink p (bumpReplays
        { l with replaying := l.replayBuf, markDue := some 0, timerAt := s.now, replayCnt := l.replayCnt + 1 }))))) ∧
    (l.replayBuf = [] ∨ s.now < l.timerAt + 100 * l.replayTimer → exec (.replayTimerExpiry p) s = .next (intEval s)) ∧
    (ty < 6 → l.state = 3 → l.starved.getD ty none = some t →
      (t + 1000 * l.creditToUs ≤ s.now → exec (.creditTimeout p ty) s = .next (intEval (linkDown s p 0))) ∧
      (s.now < t + 1000 * l.creditToUs → exec (.creditTimeout p ty) s = .next (intEval s))) ∧
    (l.state = 2 → l.initAt + 1000 ≤ s.now → exec (.initTimer p) s = .next (intEval (sendInit (s.setLink p { l with initAt := s.now }) p))) ∧
    (l.state = 2 → s.now < l.initAt + 1000 → exec (.initTimer p) s = .next (intEval s)) ∧
    (l.state = 5 → l.holdAt + 1000000000 ≤ s.now →
      ((lanesWhere x (·.signal)).length < 2 → exec (.holdoffEnd p) s = .next (intEval held)) ∧
      (x.tstate = 0 → 2 ≤ (lanesWhere x (·.signal)).length → exec (.holdoffEnd p) s = .next (intEval (detectStart held p)))) ∧
    (l.state = 5 → s.now < l.holdAt + 1000000000 → exec (.holdoffEnd p) s = .next (intEval s)) ∧
    (barWrite s 0x20 = true →
      exec (.rflCtrlRetrain p) s = .next (intEval (linkRequest s p 1 0)) ∧
      exec (.rflCtrlDown p) s = .next (intEval (linkDown s p 0)) ∧
      exec (.rflCtrlUp p) s = .next (intEval (detectStart s p))) ∧
    (l.state = 4 → x.retrain = true →
      (l.retrainAt + 5000000 ≤ s.now → exec (.retrainTimeout p) s = .next (intEval (linkDown s p 7))) ∧
      (s.now < l.retrainAt + 5000000 → exec (.retrainTimeout p) s = .next (intEval s)))) ∧
  (∀ (s : State) (p cause : Nat),
    ((s.link p).state = 0 ∨ (s.link p).state = 5 → linkDown s p cause = s) ∧
    ((s.link p).state = 1 → ((linkDown s p cause).link p).state = 5 ∧ ((linkDown s p cause).link p).holdAt = s.now
      ∧ ((linkDown s p cause).link p).replayBuf = [] ∧ ((linkDown s p cause).link p).waiting = []
      ∧ ((linkDown s p cause).lanePort p).tstate = 0 ∧ ((linkDown s p cause).lanePort p).failCause = cause
      ∧ ∀ q, q ≠ p → (linkDown s p cause).link q = s.link q ∧ (linkDown s p cause).lanePort q = s.lanePort q))

/-- R337-R343: the routing requests of the administrator on a part outside a pair are carried out on the shadow tables and answered; ROUTE_COMMIT begins the drain of the ranks it changes, or answers BUSY during another. DRAIN_COMPLETE
publishes and answers once all is drained; a drain not done in its time is answered BUSY; a rank's move back is tried again after 1 s. R341: remote reads. The data of the rank that was asked waits for the PREFETCH; an error or a time-out ends it ACCESS_REFUSED. -/
def Obligations.RoutingAndRemoteReads : Prop :=
  (∀ (s : State) (sess : Option Nat) (d : Drain),
    (adminTakes s sess = true →
      (∀ r e, exec (.rankSet sess r e) s = .next (intEval (answered (framed sess) 0x50 (rankSet s r e)))) ∧
      (∀ r, exec (.rankClear sess r) s = .next (intEval (answered (framed sess) 0x51 (rankClear s r)))) ∧
      (∀ p i e, exec (.cktSet sess p i e) s = .next (intEval (answered (framed sess) 0x52 (cktSet s p i e)))) ∧
      (∀ p i, exec (.cktClear sess p i) s = .next (intEval (answered (framed sess) 0x53 (cktClear s p i)))) ∧
      (∀ r, exec (.selfRank sess r) s = .next (intEval (answered (framed sess) 0x55 (selfRank s r)))) ∧
      (s.fab.drain = none → exec (.routeCommit sess) s = .next (intEval { s with fab := { s.fab with
        drain := some { ranks := changedRanks s, since := s.now, back := false, via := framed sess } } })) ∧
      (s.fab.drain = some d → exec (.routeCommit sess) s = .next (intEval (respond s (framed sess) 0x54 rBUSY)))) ∧
    (s.fab.drain = some d → d.back = false →
      (drained s d = true → exec .drainComplete s = .next (intEval (nextBack (respond (routePublish s) d.via 0x54 rSUCCESS)))) ∧
      (drained s d = false → exec .drainComplete s = .next (intEval s)) ∧
      (d.since + 1000 * s.fab.drainUs ≤ s.now → exec .drainTimeout s = .next (intEval (nextBack (respond (releaseHeld s) d.via 0x54 rBUSY))))) ∧
    (∀ r t, tabFind s.fab.retryBack r = some t → t + 1000000000 ≤ s.now →
      exec (.rankMoveBackRetry r) s = .next (intEval (nextBack { s with fab := { s.fab with retryBack := tabDel s.fab.retryBack r } })))) ∧
  (∀ (s : State) (k r t txn : Nat) (bs : List Byte) (code : W32), tabFind s.work.rrds txn = some (k, r, t) →
    (bs.length = 4096 → exec (.rrdData r txn bs) s = .next (intEval { s with work := { s.work with
      rrds := tabDel s.work.rrds txn, remote := tabIns s.work.remote k bs } })) ∧
    (∀ src, src ≠ r → exec (.rrdData src txn bs) s = .next (intEval s)) ∧
    exec (.rrdErr r txn code) s = .next (intEval (rrdFail s txn)) ∧
    (t + 1000 * s.fab.rrdToUs ≤ s.now → exec (.rrdTimeout txn) s = .next (intEval (rrdFail s txn))) ∧
    (s.now < t + 1000 * s.fab.rrdToUs → exec (.rrdTimeout txn) s = .next (intEval s)))

/-- R346-R348, R350, R353, R354: the training of a port. A signal is marked on its lane in HOLDOFF as elsewhere; the
detection window ends 1 ms after the first lane was seen and leads to LOCK with two lanes or more; a lane that locks
in LOCK completes it once every lane that must lock has; CAP, EQ and STEP are taken by the shared operations of those
messages, CHECK and ALIGN take the partner's result and READY in their states; a message that fails its CRC-16 does
nothing; a check period ends after 1 ms; a state that lasts 2 ms takes the port down with cause 3. Before their
moments the timers do nothing. The form of the CRC-16 and when a receiver is ready are the model's (log 32). -/
def Obligations.TrainingEventsRun : Prop :=
  ∀ (s : State) (p n : Nat) (m : BitVec 128), p < 14 → n < 9 →
    let x := s.lanePort p
    (x.tstate = 8 → exec (.laneSignalDetect p n) s = .next (intEval (s.setLane p n { s.lane p n with signal := true }))) ∧
    (x.tstate = 1 → ∀ t, x.firstAt = some t → t + 1000000 ≤ s.now → 2 ≤ (lanesWhere x (·.signal)).length →
      exec (.detectWindowEnd p) s = .next (intEval (enterLock s p))) ∧
    (x.tstate = 1 → ∀ t, x.firstAt = some t → s.now < t + 1000000 → exec (.detectWindowEnd p) s = .next (intEval s)) ∧
    ((x.tstate = 7 ∨ x.tstate = 8) → exec (.frameLock p n) s = .next (intEval s)) ∧
    (x.tstate = 2 → ∀ u, u = s.setLane p n { s.lane p n with locked := true } →
      ((mustLock (u.lanePort p)).all fun n => (u.lane p n).locked) = true →
      exec (.frameLock p n) s = .next (intEval (lockNext u p))) ∧
    (trainOk n 1 m = true → exec (.cap p n m) s = .next (intEval (takeCap s p m.toNat))) ∧
    (trainOk n 2 m = true → exec (.eq p n m) s = .next (intEval (takeEq s p n m.toNat))) ∧
    (trainOk n 3 m = true → exec (.step p n m) s = .next (intEval (takeStep s p m.toNat))) ∧
    (trainOk n 4 m = true → x.tstate = 5 → bitOf m.toNat 8 = true →
      exec (.check p n m) s = .next (intEval (checkBoth (s.setLanePort p { x with peerRes := some (bitOf m.toNat 9) }) p))) ∧
    (trainOk n 5 m = true → x.tstate = 7 → bitOf m.toNat 8 = true →
      exec (.align p n m) s = .next (intEval (alignDone (s.setLanePort p { x with peerReady := true }) p))) ∧
    (trainOk n 1 m = false → exec (.cap p n m) s = .next (intEval s)) ∧
    (∀ e, x.tstate = 5 → x.resOk = none → x.since + 1000000 ≤ s.now → exec (.checkPeriodEnd p e) s = .next (intEval (checkPeriodEnd s p e))) ∧
    (∀ e, x.tstate = 5 → s.now < x.since + 1000000 → exec (.checkPeriodEnd p e) s = .next (intEval s)) ∧
    (x.retrain = false → x.tstate = 3 → x.since + 2000000 ≤ s.now → exec (.trainStateTimeout p) s = .next (intEval (linkDown s p 3))) ∧
    (x.retrain = false → x.tstate = 3 → s.now < x.since + 2000000 → exec (.trainStateTimeout p) s = .next (intEval s))

/-- R327, R328, R349-R352: lanes in service. A mark that is right and matched is the lane's last and clears its errors, and the symbols corrected since the one before are counted; another is a mark error, and the third in a row fails the lane. A lane that fails
is not used again until the next bring-up; its data moves to the spare lane where that is free. R355-R357: the loop-backs. A near-end request of a port in OFF starts it at its rung; a far-end request is kept until bring-up; MODE 0 leaves one. The port that serves a far-end loop-back leaves it when the signal goes. -/
def Obligations.LanesInServiceAndLoopbacks : Prop :=
  (∀ (s : State) (p n : Nat) (sy : List (BitVec 10)) (no : Nat), p < 14 → n < 9 →
    let x := s.lanePort p
    let l := s.lane p n
    let good := { l with markNo := some no, badMarks := 0, locked := true }
    (x.tstate = 8 → l.logical ≠ 0 → l.logical ≠ 15 → x.moving = none → markOf (linkLanes (s.link p)) l sy = some no →
      exec (.registerMark p n sy { matched := true }) s = .next (intEval (s.setLane p n good)) ∧
      ∀ k, 0 < k → k ≤ 2 ^ x.serLog2 → (∀ e ∈ l.ser, e.1 + 1000000 ≤ s.now) → l.ce + k < 2 ^ 32 →
        exec (.registerMark p n sy { matched := true, corrected := k }) s = .next (intEval (s.setLane p n { good with ce := l.ce + k, ser := [(s.now, k)] }))) ∧
    (x.tstate = 8 → l.logical ≠ 15 → exec (.registerMark p n sy { matched := false }) s = .next (intEval (registerMark.markError s p n l))) ∧
    (∀ cause, 1 ≤ cause → cause ≤ 4 → exec (.laneFailure p n cause) s = .next (intEval (failLane s p n cause))) ∧
    (∀ cause, (s.link p).state = 3 → l.failed = false → l.logical = 15 →
      failLane s p n cause = corrected ((s.setLane p n { l with failed := true, cause := cause, locked := false, signal := l.signal && cause != 1 }).onPort p fun y =>
        { y with lanesOk := x.lanesOk &&& ~~~(BitVec.ofNat 9 (2 ^ n)) }) (unitOf 0xA p) 0x08 0 0) ∧
    (∀ e, x.tstate = 9 → l.chk = true → l.pat ≠ 0 → l.prbsErr + e < 2 ^ 32 →
      exec (.prbsCheckerLock p { lane := n, errors := e }) s = .next (intEval (s.setLane p n { l with chkLock := true, prbsErr := l.prbsErr + e })))) ∧
  (∀ (s : State) (p : Nat) (v : W32), p < 14 → barWrite s 0x30 = true →
    let x := s.lanePort p
    let rung := v.toNat / 4 % 4
    ((v.toNat % 4 = 1 ∨ v.toNat % 4 = 2) → x.tstate = 0 →
      let t := enter ((s.setLanePort p { x with lbRung := rung, lbMode := v.toNat % 4, lbState := 1, rung := rung }).onLink p fun l => { l with state := 1 }) p 9
      (v.toNat % 4 = 1 → exec (.loopbackNearSerial p v) s = .next (intEval t)) ∧
      (v.toNat % 4 = 2 → exec (.loopbackNearParallel p v) s = .next (intEval t))) ∧
    (v.toNat % 4 = 3 → x.tstate = 0 → exec (.loopbackFarRequest p v) s = .next (intEval (s.setLanePort p { x with lbRung := rung, lbMode := 3 }))) ∧
    (v.toNat % 4 = 0 → x.tstate = 9 → x.lbState = 1 → exec (.loopbackEnd p v) s = .next (intEval (linkDown (s.setLanePort p { x with lbRung := rung }) p 0))) ∧
    (v.toNat % 4 = 0 → x.tstate = 0 → exec (.loopbackEnd p v) s = .next (intEval (s.setLanePort p { x with lbRung := rung, lbMode := 0 }))) ∧
    (x.tstate = 9 → x.lbState = 2 → exec (.farEndSignalLoss p) s = .next (intEval (linkDown s p 0))))

/-- R380, R381, R383: the channels. CHANNEL_ISSUE serves the request that the order of R381 picks, and with none waiting makes up the postponed refreshes; a row that has been idle for its time closes; a refresh
is postponed while requests wait for its rank, up to eight times. R376-R379: scrubbers and remap entries. A scrubber whose period has come reads its next line and moves on. An entry is installed or removed through a copy of its line, during which writes to it are ignored, and PMC keeps what is installed (log 45). -/
def Obligations.ChannelsRefreshAndScrub : Prop :=
  (∀ (s : State) (u : MemUnit) (rank bank : Nat), muOk u = true →
    let x := s.chq (muQ u)
    let waits := x.reqs.any fun r => muStack u || (coordOf s r.ppa).rank == rank
    (x.reqs = [] → muRuns s u = true → noMakeUp s u x = false →
      exec (.channelIssue u) s = .next (intEval (s.setChq (muQ u) { x with postponed := [] }))) ∧
    (∀ i r, muRuns s u = true → pickReq s x = some i → x.reqs[i]? = some r → exec (.channelIssue u) s = .next (intEval (serveChReq
      (s.setChq (muQ u) (openRow s u { x with reqs := x.reqs.eraseIdx i, batch := batchNow s x } r)) r (aheadOf x.reqs i r)))) ∧
    (muRuns s u = false → exec (.channelIssue u) s = .next (intEval s)) ∧
    (∀ row t, bank < 32 → tabFind x.rows (32 * rank + bank) = some (row, t) →
      (idleOver s u t = true → exec (.rowIdleClose u rank bank) s = .next (intEval (s.setChq (muQ u) { x with rows := tabDel x.rows (32 * rank + bank) }))) ∧
      (idleOver s u t = false → exec (.rowIdleClose u rank bank) s = .next (intEval s))) ∧
    (muRuns s u = true → rank < (muBlk s u).ranks → waits = true → tabGet 0 x.postponed rank < 8 →
      exec (.refreshDue u rank) s = .next (intEval (s.setChq (muQ u) { x with postponed := tabSet 0 x.postponed rank (tabGet 0 x.postponed rank + 1) }))) ∧
    (waits = false ∨ 8 ≤ tabGet 0 x.postponed rank → exec (.refreshDue u rank) s = .next (intEval s))) ∧
  (∀ (s : State) (u : MemUnit) (e : Nat) (v : W32), muOk u = true → e < 16 →
    let b := muBlk s u
    let x := s.chq (scrubQ u)
    let r := s.remap u e
    let done := { r with busy := false, valid := !r.remove, remove := false }
    (b.scrubEn = true → muRuns s u = true → x.scrubAt ≠ 0 → x.scrubL * scrubT b ≤ (s.now - x.scrubAt) * scrubCount s u →
      ∀ t y, t = (readLine s (ppaOf (muStack u) (muPart u) (64 * scrubLineAt u x.scrubL)) true).2 → y = t.chq (scrubQ u) → y.scrubL + 1 < scrubCount s u →
      exec (.scrubLine u) s = .next (intEval (
        let z := t.setChq (scrubQ u) { y with scrubL := y.scrubL + 1, scrubAt := x.scrubAt }
        z.setCnt (muCnt u) { z.cnt (muCnt u) with scrubPos := scrubStripe u (y.scrubL + 1) }))) ∧
    (b.scrubEn = false → exec (.scrubLine u) s = .next (intEval s)) ∧
    (r.busy = true → exec (.remapInstall u e v) s = .next (intEval s) ∧ exec (.remapRemove u e v) s = .next (intEval s)) ∧
    (r.busy = false → r.valid = false → bitOf v.toNat 31 = true →
      exec (.remapInstall u e v) s = .next (intEval (s.setRemap u e { r with rank := v.toNat % 8, busy := true, remove := false }))) ∧
    (r.busy = false → r.valid = true → bitOf v.toNat 31 = false →
      exec (.remapRemove u e v) s = .next (intEval (s.setRemap u e { r with busy := true, remove := true }))) ∧
    (r.busy = true →
      (∀ a bs t, remapPpa s u r = some a → readLine s a true = (some bs, t) →
        exec (.remapCopyComplete u e) s = .next (intEval (keepRemaps (setErr (putBytes (t.setRemap u e done) a bs) a 0) (muCnt u)))) ∧
      (∀ a t, remapPpa s u r = some a → readLine s a true = (none, t) →
        exec (.remapCopyComplete u e) s = .next (intEval (keepRemaps (poisonLine (t.setRemap u e done) a) (muCnt u)))) ∧
      (remapPpa s u r = none → exec (.remapCopyComplete u e) s = .next (intEval (keepRemaps (s.setRemap u e done) (muCnt u))))) ∧
    (r.busy = false → exec (.remapCopyComplete u e) s = .next (intEval s)))

/-- R385, R386, R436: parking. It is refused where the partition is not online, trains, or a range maps what would not be kept; it is complete once nothing issued is left. Leaving it starts the zero pass over what was not kept. R387-R390: training and injection. The training registers take writes only in TRAINING; a run of the helper ends with the lanes that failed. A partition that trained goes ONLINE at start-up and on to its restore in a reset; one that
failed is faulted. -/
def Obligations.ParkingAndTraining : Prop :=
  (∀ (s : State) (p : Nat) (v : W32), p < 8 →
    let x := s.part p
    let kept := x.refused && !bitOf v.toNat 1
    let idle := (List.range 8).all fun i => (s.chq (8 * p + i)).reqs == []
    (barWrite s (16 + p) = true →
      (x.park = false → bitOf v.toNat 0 = true → s.online p = true → (x.chans.any (·.state == 1)) = false → mapsUnkept s p = false →
        exec (.park p v) s = .next (intEval (s.setPart p { x with refused := kept, park := true, parkReq := true }))) ∧
      (x.park = false → bitOf v.toNat 0 = true → mapsUnkept s p = true → exec (.park p v) s = .next (intEval (s.setPart p { x with refused := true }))) ∧
      (bitOf v.toNat 0 = false → exec (.unpark p v) s = .next (intEval (unparkPart (s.setPart p { x with refused := kept }) p)))) ∧
    (x.parkReq = true → idle = true → exec (.parkComplete p) s = .next (intEval (s.setPart p { x with
      parkReq := false, parked := true, parkAt := s.now, chans := x.chans.map fun b => if b.state = 2 then { b with state := 3 } else b }))) ∧
    (idle = false → exec (.parkComplete p) s = .next (intEval s)) ∧
    (s.online p = true →
      exec (.zeroFillComplete p true) s = .next (intEval (s.setPart p { x with fillCream := false })) ∧
      (x.parked = false → x.fillSkim = true → ∀ t, t = x.zeroed.foldl (fun s i => zeroSpan s (ppaOf false p (i * segBytes s p)) (segBytes s p)) s →
        exec (.zeroFillComplete p false) s = .next (intEval (t.setPart p { x with fillSkim := false, zeroed := [] })))) ∧
    (s.online p = false → ∀ c, exec (.zeroFillComplete p c) s = .next (intEval s))) ∧
  (∀ (s : State) (st : Bool) (i p : Nat) (v lo hi : W32) (r : TrainResult), blkOk st i = true → p < 8 →
    let b := s.blk st i
    let t := trainResult s p r
    (b.state ≠ 1 → exec (.trainingRunStart st i v) s = .next (intEval s)) ∧
    (b.state = 1 → bitOf v.toNat 31 = true → b.trnBusy = false → v.toNat % 65536 ≠ 0 → exec (.trainingRunStart st i v) s = .next (intEval
      (s.setBlk st i { b with trnCtrl := v &&& 0x3FFFFFFF, trnBusy := true, trnDone := false, trnLo := 0, trnHi := 0 }))) ∧
    (b.state = 1 → bitOf v.toNat 31 = false → exec (.trainingRunStart st i v) s = .next (intEval (s.setBlk st i { b with trnCtrl := v &&& 0x3FFFFFFF }))) ∧
    (b.trnBusy = true → exec (.trainingRunDone st i lo hi) s = .next (intEval
      (s.setBlk st i { b with trnBusy := false, trnDone := true, trnLo := lo, trnHi := hi &&& 0xFF }))) ∧
    (b.trnBusy = false → exec (.trainingRunDone st i lo hi) s = .next (intEval s)) ∧
    (barWrite s (16 + if st then i else i / 4) = true → exec (.injectArm st i v) s = .next (intEval (s.setBlk st i { b with
      injTgt := if st then field v.toNat 20 16 else field v.toNat 16 16, injMask := BitVec.ofNat 8 (field v.toNat 15 8), injTwo := bitOf v.toNat 4, injCol := v.toNat % 16 }))) ∧
    ((s.part p).state = 4 → s.boot.stage = 4 ∨ 6 ≤ s.boot.stage →
      (skimCause r = 0 → creamCause t r = 0 →
        (s.boot.stage = 4 → s.flt.recovery = false → exec (.partitionTrainingComplete p r) s = .next (intEval (shareRate (setPartState t p 0)))) ∧
        (6 ≤ s.boot.stage → exec (.partitionTrainingComplete p r) s = .next (intEval (shareRate (setPartState t p 5))))) ∧
      (skimCause r ≠ 0 ∨ creamCause t r ≠ 0 → exec (.partitionTrainingComplete p r) s = .next (intEval (partFault t p (unitOf 2 p) 0x10 0 0 0 true)))) ∧
    ((s.part p).state ≠ 4 → exec (.partitionTrainingComplete p r) s = .next (intEval s)))

/-- R423, R424, R431-R433, R465, R32, R34: what reports a fault. A unit that is none stops the step. A report is contained by the class of its unit; a watchdog expires on the unit it watches; a core's watchdog only without
its heartbeat; a clock's window only where it is more than 5 % off its plan: the planned frequency, or, at the end of a stop of 4 µs, 6 µs of the old and up to 4 µs of either. -/
def Obligations.FaultReports : Prop :=
  ∀ (s : State) (u : W32) (prot detail : Byte) (info : W64) (wd i count : Nat),
    (unitOk u = true → exec (.faultReport u prot detail info) s = .next (intEval (faultAt s u prot.toNat detail.toNat info))) ∧
    (unitOk u = false → exec (.faultReport u prot detail info) s = .fault .noInstance) ∧
    (unitOk u = true → (s.unit u).stuck = true → exec (.brokenWire u) s = .next (intEval s)) ∧
    (unitOk u = true → (s.unit u).stuck = false → exec (.brokenWire u) s = .next (intEval (brokenWire s u))) ∧
    (unitOk u = true → wdWatches wd u = true →
      (wd ≠ 7 → wd ≠ 8 → exec (.watchdogExpiry wd u) s = .next (intEval (faultAt s u 0x0B wd 0))) ∧
      (heartLate s u = true → exec (.watchdogExpiry wd u) s = .next (intEval (faultAt s u 0x0B wd 0))) ∧
      (wd = 7 ∨ wd = 8 → heartLate s u = false → exec (.watchdogExpiry wd u) s = .next (intEval s))) ∧
    (unitOk u = true → unitClass u = 4 ∨ unitClass u = 5 → exec (.coreHeartbeat u) s = .next (intEval { s with flt := { s.flt with
      heartbeats := tabSet 0 s.flt.heartbeats u.toNat s.now } })) ∧
    (i < 140 → tabGet 0 s.flt.stopUntil i = 0 →
      (19 * islandKhz s i ≤ 2000 * count → 2000 * count ≤ 21 * islandKhz s i → exec (.clockMonitorWindow i count) s = .next (intEval s)) ∧
      (21 * islandKhz s i < 2000 * count ∨ 2000 * count < 19 * islandKhz s i →
        exec (.clockMonitorWindow i count) s = .next (intEval (faultAt s (unitOf 0xE i) 0x09 0 0)))) ∧
    (i < 140 → ∀ t old, t = tabGet 0 s.flt.stopUntil i → old = tabGet 0 s.flt.wasKhz i → 4000 ≤ t → s.now = t →
      (19 * (old * 6000) ≤ 20000000 * count → 20000000 * count ≤ 21 * (old * 6000 + max old (islandKhz s i) * 4000) →
        exec (.clockMonitorWindow i count) s = .next (intEval s))) ∧
    (i < 140 → exec (.pllRelockComplete i) s = .next (intEval (pllLocked s i)) ∧
      ((∀ e ∈ s.churn.tiles, cluOf e.1 = i → e.2.st.active = false) →
        exec (.pllRelockComplete i) s = .next (intEval { s with flt := { s.flt with relocking := s.flt.relocking.filter (· != i) } }))) ∧
    (aliveHeld s = false → exec .aliveToggle s = .next (intEval { s with pins := { s.pins with alive := !s.pins.alive } })) ∧
    (aliveHeld s = true → exec .aliveToggle s = .next (intEval s))

/-- R435-R437, R441: the phases of a partition reset and of device recovery. A dump that is complete in DUMPING is
written and leads to RESETTING; the fifth core that confirms self-refresh, or the deadline of 1 ms, begins the hold;
the hold ends with the reset of the partition; a partition in RETURNING comes back. During a device recovery the hold
of all ends with the ports in detection, and its completion is the recovery's end. In any other state, and before
their moments, these events do nothing. The order of the phases where R435 leaves it open is the model's (log 34). -/
def Obligations.ResetPhasesRun : Prop :=
  ∀ (s : State) (p c : Nat), p < 8 → c < 5 →
    let x := s.part p
    (x.state = 2 → s.flt.recovery = false → ∀ t, t = dumpWrite s p →
      exec (.dumpComplete p) s = .next (intEval (setPartState (t.setPart p { t.part p with quiesceAt := t.now, dump := [] }) p 3))) ∧
    (x.state ≠ 2 → exec (.dumpComplete p) s = .next (intEval s)) ∧
    (x.state = 3 → x.holdAt = 0 → x.confirmed.contains c = false → x.confirmed.length ≠ 4 →
      exec (.selfRefreshConfirm p c) s = .next (intEval (s.setPart p { x with confirmed := c :: x.confirmed }))) ∧
    (x.state = 3 → x.holdAt = 0 → x.confirmed.contains c = false → x.confirmed.length = 4 → s.flt.recovery = false →
      exec (.selfRefreshConfirm p c) s = .next (intEval (beginHold (s.setPart p { x with confirmed := c :: x.confirmed }) p))) ∧
    (x.state = 3 → x.holdAt = 0 → s.flt.recovery = false → x.quiesceAt + 1000000 ≤ s.now → exec (.quiesceDeadline p) s = .next (intEval (beginHold s p))) ∧
    (s.now < x.quiesceAt + 1000000 → exec (.quiesceDeadline p) s = .next (intEval s)) ∧
    (x.state = 3 → x.holdAt ≠ 0 → x.holdAt + 1000000 ≤ s.now + 1 → exec (.resetHoldEnd (some p)) s = .next (intEval (resetPart s p))) ∧
    (s.now + 1 < x.holdAt + 1000000 → exec (.resetHoldEnd (some p)) s = .next (intEval s)) ∧
    (s.flt.recovery = true → s.flt.recHoldAt ≠ 0 → s.flt.recHoldAt + 10000000 ≤ s.now → (∀ q, q < 8 → (s.part q).state ≠ 3) →
      exec (.resetHoldEnd none) s = .next (intEval ((List.range 14).foldl detectStart { s with flt := { s.flt with recHoldAt := 0 } }))) ∧
    (s.flt.recovery = false → exec (.resetHoldEnd none) s = .next (intEval s)) ∧
    (x.state = 5 → s.flt.recovery = false → s.flt.busy = false → (partReturn s p).flt.busy = false →
      exec (.partitionReturn p) s = .next (intEval (partReturn s p))) ∧
    (x.state ≠ 5 → exec (.partitionReturn p) s = .next (intEval s)) ∧
    exec .deviceRecoveryComplete s = .next (intEval (recoveryEnd s)) ∧
    (s.flt.recovery = false → exec .deviceRecoveryComplete s = .next (intEval s))

/-- R427-R430, R463, R464: a unit leaves QUIET after its time without a fault, is counted, and latches OFFLINE once it was counted too often; a window of counting ends with its counter; a unit that overruns its bound ends what it holds and
faults the unit above it; a core that restarted goes into QUIET. -/
def Obligations.QuietAndEscalation : Prop :=
  ∀ (s : State) (u : W32), unitOk u = true →
    let x := s.unit u
    (x.state = 3 → x.since + 1000000 * s.flt.quietMs ≤ s.now → unitClass u ≠ 8 → unitClass u ≠ 2 →
      (s.flt.recovLimit < x.count + 1 → exec (.quietEnd u) s = .next (intEval (latchUnit s u))) ∧
      (x.count + 1 ≤ s.flt.recovLimit → exec (.quietEnd u) s = .next (intEval (setUnitState
        (s.setUnit u { x with count := x.count + 1, winOpen := true, winAt := if x.winOpen then x.winAt else s.now }) u 0)))) ∧
    (x.state ≠ 3 ∨ s.now < x.since + 1000000 * s.flt.quietMs → exec (.quietEnd u) s = .next (intEval s)) ∧
    (x.winOpen = true → x.winAt + 60000000000 * s.flt.recovWinMin ≤ s.now →
      exec (.recoveryWindowEnd u) s = .next (intEval (s.setUnit u { x with winOpen := false, count := 0 }))) ∧
    (s.now < x.winAt + 60000000000 * s.flt.recovWinMin → exec (.recoveryWindowEnd u) s = .next (intEval s)) ∧
    exec (.escalation u) s = .next (intEval (escalate s u)) ∧
    (x.state ≠ 1 → x.state ≠ 2 → exec (.escalation u) s = .next (intEval s)) ∧
    (x.state = 1 ∨ x.state = 2 → unitClass u = 4 → x.since + min (unitBound u) (1000000 * s.flt.escalateMs) < s.now →
      ∀ v, parentOf u = some v → exec (.escalation u) s = .next (intEval (faultAt (endHeld s u) v 0x11 0 0 1))) ∧
    (unitClass u = 4 ∨ unitClass u = 5 →
      exec (.coreRestartComplete u) s = .next (intEval (coreRestart s u)) ∧
      (unitDown s u = false ∨ x.stuck = true → exec (.coreRestartComplete u) s = .next (intEval s)))

/-- R444-R446: `FLT_CMD`. A write while a command runs is ignored. A unit that is none ends with result 2, a unit that cannot with result 1; CLEAR_COUNT clears the counter and ends with 0; a test runs until BIST_COMPLETE, which ends with 0 or 3. -/
def Obligations.FaultCommandsRun : Prop :=
  ∀ (s : State) (v : W32) (fails : List BistRec), barWrite s 3 = true →
    let u := s.flt.cmdUnit
    let y := { s with flt := { s.flt with test := field v.toNat 7 4 } }
    (s.flt.busy = true →
      exec (.fltOffline v) s = .next (intEval s) ∧ exec (.fltReturn v) s = .next (intEval s) ∧ exec (.fltBist v) s = .next (intEval s)
      ∧ exec (.fltClearCount v) s = .next (intEval s)) ∧
    (s.flt.busy = false → unitOk u = false →
      (v.toNat % 16 = 1 → exec (.fltOffline v) s = .next (intEval (fltDone y 2))) ∧
      (v.toNat % 16 = 2 → exec (.fltReturn v) s = .next (intEval (fltDone y 2))) ∧
      (v.toNat % 16 = 3 → exec (.fltBist v) s = .next (intEval (fltDone y 2))) ∧
      (v.toNat % 16 = 4 → exec (.fltClearCount v) s = .next (intEval (fltDone y 2)))) ∧
    (s.flt.busy = false → unitOk u = true →
      (v.toNat % 16 = 1 → exec (.fltOffline v) s = .next (intEval (fltOffline y u))
        ∧ ((s.unit u).state = 1 ∨ (s.unit u).state = 2 → exec (.fltOffline v) s = .next (intEval (fltDone y 1)))
        ∧ ((s.unit u).state = 4 → exec (.fltOffline v) s = .next (intEval (fltDone y 0)))) ∧
      (v.toNat % 16 = 2 → exec (.fltReturn v) s = .next (intEval (fltReturn y u))
        ∧ ((s.unit u).state ≠ 4 → exec (.fltReturn v) s = .next (intEval (fltDone y 1)))) ∧
      (v.toNat % 16 = 3 → exec (.fltBist v) s = .next (intEval (fltBist y u (field v.toNat 7 4)))
        ∧ ((s.unit u).state = 4 → unitClass u = 0xA → field v.toNat 7 4 = 4 →
            exec (.fltBist v) s = .next (intEval { y with flt := { y.flt with busy := true, bistUnit := u } }))) ∧
      (v.toNat % 16 = 4 → exec (.fltClearCount v) s = .next (intEval (fltDone (y.setUnit u { s.unit u with count := 0, winOpen := false }) 0)))) ∧
    exec (.bistComplete fails) s = .next (intEval (bistComplete s fails)) ∧
    (s.flt.busy = false → exec (.bistComplete fails) s = .next (intEval s)) ∧
    (s.flt.busy = true → (s.unit s.flt.bistUnit).state = 4 → unitClass s.flt.bistUnit = 0xA → s.flt.test = 4 → (∀ r ∈ fails, r.kind ≠ 5 ∧ r.kind ≠ 6) →
      exec (.bistComplete fails) s = .next (intEval (fltDone { s with flt := { s.flt with bistFails := min fails.length 65535, bistRecs := fails.take 256 } }
        (if fails = [] then 0 else 3))))

/-- R397-R399, R402, R405, R407, R410, R415, R417: the records that a member of a pair receives. Outside a pair a
record only marks the partner as heard; a SYNCING member keeps tokens; one in step takes tokens and events in order
and drops a reply that is sent from its log; a token that is a duplicate changes nothing; a heartbeat gives the
partner's state; a notice of code 0 or above 5 does nothing of its own, 4 ends the pair's being in step and 5 is a
joining's step; resynchronisation data with a line for which there is no memory stops with a fault of its own (log 33). -/
def Obligations.PairRecordsRun : Prop :=
  ∀ (s : State) (t e : BitVec 256) (d : BitVec 384) (h : BitVec 192) (n rs : BitVec 128) (l : List (Nat × W64)) (ppa : W64) (bs : List Byte),
    let y := sawRecord s
    let dup := y.mir.tokens.any fun x => (tokOf x.1).seq == (tokOf t).seq
    let same : Prop := exec (.tokenRecord t) s = .next (intEval y) ∧ exec (.eventRecord e) s = .next (intEval y) ∧ exec (.replySentRecord rs) s = .next (intEval y)
    (s.mir.state ≠ 2 → s.mir.state ≠ 3 → same) ∧
    (s.mir.state = 2 → dup = false → exec (.tokenRecord t) s = .next (intEval (y.onMir fun m => { m with tokens := m.tokens ++ [(t, s.now)] }))) ∧
    (s.mir.state = 3 →
      (dup = false → exec (.tokenRecord t) s = .next (intEval (advance (y.onMir fun m => { m with tokens := m.tokens ++ [(t, s.now)] })))) ∧
      (dup = true → exec (.tokenRecord t) s = .next (intEval y)) ∧
      exec (.eventRecord e) s = .next (intEval (advance (y.onMir fun m => { m with
        due := m.due ++ [(e.toNat / 256 ^ 16 % 256 ^ 8, e.toNat / 256 ^ 8 % 256 ^ 1, e.toNat / 256 ^ 24 % 256 ^ 8)] }))) ∧
      exec (.replySentRecord rs) s = .next (intEval (advance (y.onMir fun m => { m with replyLog := m.replyLog.filter fun x => x.seq != rs.toNat / 2 ^ 64 }))) ∧
      exec (.rangeDigestList l) s = .next (intEval (sendLists ((digestsOf y (l.map (·.1))).1.length + 1) (digestsOf y (l.map (·.1))).2 (digestsOf y (l.map (·.1))).1))) ∧
    (s.mir.state ≠ 3 → s.mir.state ≠ 4 → (s.mir.state = 1 → s.mir.due = []) → exec (.heartbeatRecord h) s = .next (intEval (y.onMir fun m => { m with
      peerState := h.toNat / 256 ^ 8 % 256 ^ 1, peerParts := h.toNat / 256 ^ 9 % 256 ^ 1, peerSeq := h.toNat / 256 ^ 16 % 256 ^ 8 }))) ∧
    ((advance y).interval (d.toNat / 256 ^ 8 % 256 ^ 4) = none → exec (.digestRecord d) s = .next (intEval (advance y))) ∧
    (∀ code, code = n.toNat / 256 ^ 8 % 256 →
      (code = 0 ∨ 5 < code → exec (.noticeRecord n) s = .next (intEval (advance y))) ∧
      (code = 4 → exec (.noticeRecord n) s = .next (intEval (lostStandby (advance y) (n.toNat / 256 ^ 9 % 256)))) ∧
      (code = 5 → s.mir.state = 2 → exec (.noticeRecord n) s = .next (intEval (joinStep y)))) ∧
    ((∀ o ∈ lineCuts ppa.toNat (min 4096 bs.length), backed s (ppa.toNat + o) = true) →
      exec (.resynchronisationData ppa bs) s = .next (intEval (resyncData s ppa.toNat bs))
      ∧ (s.mir.state = 0 → exec (.resynchronisationData ppa bs) s = .next (intEval y))) ∧
    (∀ o ∈ lineCuts ppa.toNat (min 4096 bs.length), backed s (ppa.toNat + o) = false → exec (.resynchronisationData ppa bs) s = .fault .unbacked)

/-- R398, R401, R403-R406, R410, R411, R415, R499: the timers of a pair. A heartbeat goes every 10 µs; an interval is
cut at 4,096 tokens or 100 µs; the digest of an interval that is over is sent and compared; a digest of the partner
that is 10 ms late, a token without its copy for 500 µs, more than 65,536 tokens not started, and records that stay
away for MIR_SILENT_US each end the pair's being in step with their cause (8, 10, 11, 14), or hand the role over where
the partner's PEER_ALIVE is silent too (2, 3); a copy without its token for 2 ms is dropped and counted; the cut of a
resynchronisation waits for the commands that write. Before their moments the timers do nothing. What the partner does
at the cut is the model's (log 33). -/
def Obligations.PairTimersRun : Prop :=
  ∀ (s : State) (n k : Nat),
    let m := s.mir
    (m.partner ≠ 0 → s.flt.failed = false → s.flt.recovery = false → s.boot.inReset = false → m.sentHb + 10000 ≤ s.now → m.state ≠ 3 → m.state ≠ 1 ∨ m.due = [] →
      exec .mirrorHeartbeatTimer s = .next (intEval (sendMir (s.onMir fun m => { m with sentHb := s.now })
        (mirHead 4 3 ++ [BitVec.ofNat 8 m.state, BitVec.ofNat 8 (recovering s)] ++ leBytes 6 0 ++ leBytes 8 m.seq)))) ∧
    (m.partner = 0 ∨ s.now < m.sentHb + 10000 → exec .mirrorHeartbeatTimer s = .next (intEval s)) ∧
    (∀ i, s.interval m.curInt = some i →
      (m.state = 1 → i.cut = false → 4096 ≤ i.count ∨ i.opened + 100000 ≤ s.now →
        exec .intervalCut s = .next (intEval ((s.setInterval { i with cut := true }).onMir fun m => { m with curInt := m.curInt + 1 }))) ∧
      (i.count < 4096 → s.now < i.opened + 100000 → exec .intervalCut s = .next (intEval s))) ∧
    (∀ i, s.interval n = some i → intervalOver s i = true → m.state = 3 →
      ∀ y, y = { i with cut := true, sentAt := some s.now } → exec (.intervalClose n) s = .next (intEval
        (compareInterval (fun s => failover s 3) (sendMir (s.setInterval y) (digestBytes y)) y))) ∧
    (∀ i, s.interval n = some i → intervalOver s i = false → exec (.intervalClose n) s = .next (intEval s)) ∧
    (∀ i t, s.interval n = some i → i.sentAt = some t → i.peer = none →
      (t + 10000000 ≤ s.now → m.state = 3 → exec (.digestLate n) s = .next (intEval (leaveStep s 11))) ∧
      (t + 10000000 ≤ s.now → m.state ≠ 3 → exec (.digestLate n) s = .next (intEval (lostStandby s 11))) ∧
      (s.now < t + 10000000 → exec (.digestLate n) s = .next (intEval s))) ∧
    (∀ r t, m.tokens.find? (fun x => (tokOf x.1).seq == n) = some (r, t) →
      (m.state = 3 → copyFor s (tokOf r) = none → t + 500000 ≤ s.now → exec (.tokenMissingTimeout n) s = .next (intEval (leaveStep s 8))) ∧
      (s.now < t + 500000 → exec (.tokenMissingTimeout n) s = .next (intEval s))) ∧
    (∀ c t, m.copies.find? (fun x => x.1 == k) = some (k, c, t) →
      ((m.tokens.any fun x => (tokOf x.1).src == srcOf c.raw && (tokOf x.1).tag == tagOf c.raw) = false → t + 2000000 ≤ s.now →
        exec (.orphanTimeout k) s = .next (intEval (s.onMir fun m => bumpOrphans { m with copies := m.copies.filter fun x => x.1 != k }))) ∧
      (s.now < t + 2000000 → exec (.orphanTimeout k) s = .next (intEval s))) ∧
    (m.state = 3 → 65536 < (unstarted s).length → exec .lagTimeout s = .next (intEval (leaveStep s 10))) ∧
    (m.state ≠ 3 → exec .lagTimeout s = .next (intEval s)) ∧
    (m.state = 3 → peerAliveOk s = false → m.lastRec + 1000 * m.mirSilentUs ≤ s.now → exec .peerSilentTimeout s = .next (intEval (failover s 2))) ∧
    (peerAliveOk s = true → exec .peerSilentTimeout s = .next (intEval s)) ∧
    (m.lastRec + 1000 * m.mirSilentUs ≤ s.now →
      (m.state = 3 → peerAliveOk s = true → exec .mirSilentTimeout s = .next (intEval (leaveStep s 14))) ∧
      (m.state = 1 → m.inStep = true → aliveHeld s = false → exec .mirSilentTimeout s = .next (intEval (lostStandby s 14)))) ∧
    (s.now < m.lastRec + 1000 * m.mirSilentUs → exec .mirSilentTimeout s = .next (intEval s)) ∧
    exec .peerAliveEdge s = .next (intEval { s with mir := { m with lastEdge := s.now, edgeAt := some s.now } }) ∧
    (m.state = 1 → m.watermark = some (2 ^ 45) → s.store.cmds.any mutRuns = false → m.cutHold = none → m.cutRetry ≤ s.now →
      exec .resyncCut s = .next (intEval (cutDone s))) ∧
    (m.state = 1 → m.watermark = some (2 ^ 45) → s.store.cmds.any mutRuns = true → m.cutHold = none → m.cutRetry ≤ s.now →
      exec .resyncCut s = .next (intEval (s.onMir fun m => { m with cutHold := some s.now }))) ∧
    (m.state ≠ 1 → exec .resyncCut s = .next (intEval s))

/-- R453, R455, R457-R462: firmware images and Coleth messages. An image that fails a check ends the update with the error of R455; one that passes is programmed into the slot that does not run; both while SEC runs. A message that is not whole is answered 3 and counted; a HELLO of major 1 opens
service; of another major it refuses it. The mailbox's next message is written once VALID is cleared. -/
def Obligations.FirmwareUpdatesAndMessages : Prop :=
  ∀ (s : State) (ok : Bool) (v : W32) (bs : List Byte),
    let f := s.fw
    let img := stagedImage s f.totalLen
    let slot := 1 - f.running
    (secRuns s = true → f.state = 1 → f.totalLen ≤ 2 ^ 24 → leAt img 20 4 = f.totalLen →
      (imgError s img = 0 → exec (.fwProgramComplete ok) s = .next (intEval { s with fw := { f with state := 2 } })) ∧
      (imgError s img ≠ 0 → exec (.fwProgramComplete ok) s = .next (intEval { s with fw := { f with state := 4, error := imgError s img } }))) ∧
    (secRuns s = true → f.state = 2 →
      exec (.fwProgramComplete true) s = .next (intEval { s with fw := { f with
        state := 3, programmed := f.totalLen, slotState := f.slotState.set slot 1, slotImg := f.slotImg.set slot img
        svn := f.svn.set slot (leAt img 8 4), version := f.version.set slot (BitVec.ofNat 32 (leAt img 12 4)) } }) ∧
      exec (.fwProgramComplete false) s = .next (intEval { s with fw := { f with state := 4, error := 5, slotState := f.slotState.set slot 4 } })) ∧
    (f.state ≠ 1 → f.state ≠ 2 → exec (.fwProgramComplete ok) s = .next (intEval s)) ∧
    (colethServed s (.sideband bs) = true → colethGood bs = false →
      (∀ y, y = (mbxError s).send (.coleth true (colethBytes (leAt bs 2 2) 1 (leAt bs 8 4) [3, 0, 0, 0])) →
        exec (.hello (.sideband bs)) s = .next (intEval y) ∧ exec (.versionQuery (.sideband bs)) s = .next (intEval y) ∧
        exec (.fwChunk (.sideband bs)) s = .next (intEval y) ∧ exec (.fwRomCommit (.sideband bs)) s = .next (intEval y))) ∧
    (colethServed s (.sideband bs) = true → colethGood bs = true → leAt bs 0 1 = 1 →
      (leAt bs 2 2 = 1 → exec (.hello (.sideband bs)) s = .next (intEval (colethServe s (.sideband bs) bs))
        ∧ (f.romMode = false → s.boot.stage = 6 → (colethServe s (.sideband bs) bs).boot.stage = 7 ∧ (colethServe s (.sideband bs) bs).boot.served = true)) ∧
      (leAt bs 2 2 = 2 → exec (.versionQuery (.sideband bs)) s = .next (intEval (s.send (.coleth true (colethBytes 2 1 (leAt bs 8 4) ([0, 0, 0, 0] ++
        ([1, 0, 0, 0] ++ leBytes 4 (f.version.getD 0 0).toNat ++ leBytes 4 (f.svn.getD 0 0) ++ leBytes 4 (f.version.getD 1 0).toNat ++ leBytes 4 (f.svn.getD 1 0)
          ++ leBytes 1 (f.slotState.getD 0 0) ++ leBytes 1 (f.slotState.getD 1 0)))))))) ∧
      (leAt bs 2 2 = 3 → f.romMode = false → exec (.fwChunk (.sideband bs)) s = .next (intEval (s.send (.coleth true (colethBytes 3 1 (leAt bs 8 4) [2, 0, 0, 0]))))) ∧
      (leAt bs 2 2 = 4 → f.romMode = false → exec (.fwRomCommit (.sideband bs)) s = .next (intEval (s.send (.coleth true (colethBytes 4 1 (leAt bs 8 4) [2, 0, 0, 0]))))) ∧
      (∀ body, body = (bs.drop 16).take (leAt bs 4 2) → f.romMode = true → leAt bs 2 2 = 3 → 4 ≤ body.length → leAt body 0 4 + (body.length - 4) ≤ 2 ^ 24 →
        exec (.fwChunk (.sideband bs)) s = .next (intEval (({ s with fw := { f with staging := memPutL f.staging (leAt body 0 4) (body.drop 4) } } : State).send
          (.coleth true (colethBytes 3 1 (leAt bs 8 4) [0, 0, 0, 0]))))) ∧
      (leAt bs 2 2 = 4 → exec (.fwRomCommit (.sideband bs)) s = .next (intEval (colethServe s (.sideband bs) bs)))) ∧
    (colethServed s (.sideband bs) = true → colethGood bs = true → leAt bs 0 1 ≠ 1 → leAt bs 2 2 = 1 → f.romMode = false →
      (colethServe s (.sideband bs) bs).boot.stage = 8 ∧ (colethServe s (.sideband bs) bs).fw.standby = true) ∧
    (barWrite s 4 = true → bitOf v.toNat 31 = true → f.f2hValid = true → exec (.mbxF2hValidClear v) s = .next (intEval (mbxNext { s with fw := { f with f2hValid := false } }))) ∧
    (bitOf v.toNat 31 = false → exec (.mbxF2hValidClear v) s = .next (intEval s))

/-- R464, R466, R467, R470-R476: energy, budgets and temperature. The window is the sum of the last 100 buckets; a site cap outside its interval changes nothing; nothing is planned while PMC restarts; a trip stops the part once. -/
def Obligations.PowerAndThermalRun : Prop :=
  ∀ (s : State) (mj : List Nat) (w unres sensor : Nat) (temps : List (BitVec 16)) (temp : BitVec 16),
    let p := s.pwr
    let b := (p.buckets ++ [p.bucketMj]).drop (p.buckets.length + 1 - 100)
    exec (.energySample mj) s = .next (intEval { s with pwr := { p with
      energy := ((List.range (mj.take 26).length).zip (mj.take 26)).foldl (fun t x => tabSet 0 t x.1 (satAdd 64 (tabGet 0 t x.1) x.2)) p.energy
      bucketMj := p.bucketMj + (mj.take 26).foldl (· + ·) 0, epochMj := p.epochMj + (mj.take 26).foldl (· + ·) 0 } }) ∧
    exec .energyBucket s = .next (intEval { s with pwr := { p with buckets := b, bucketMj := 0, window := b.foldl (· + ·) 0 } }) ∧
    (400 ≤ w → w ≤ 950 → exec (.siteCapSet w) s = .next (intEval { s with pwr := { p with nextCap := some w } })) ∧
    (w < 400 ∨ 950 < w → exec (.siteCapSet w) s = .next (intEval s)) ∧
    exec (.plannerEpoch unres) s = .next (intEval (plannerEpoch s unres)) ∧
    (pmcDown s = true → exec (.plannerEpoch unres) s = .next (intEval { s with pwr := { p with draw := p.epochMj, epochMj := 0 } })) ∧
    (pmcDown s = false → temps.length = 13 → exec (.thermalSample temps) s = .next (intEval ([0, 1, 2, 3, 4].foldl moveDie
      (((List.range 13).zip temps).foldl (fun s x => (List.range 3).foldl (fun s i => thermCross s x.1 i x.2.toInt) s) { s with pwr := { p with temps := temps } })))) ∧
    (pmcDown s = true → exec (.thermalSample temps) s = .next (intEval s)) ∧
    (sensor < 13 → temp.toInt < 1760 → exec (.thermalTrip sensor temp) s = .next (intEval s)) ∧
    (sensor < 13 → s.saf.tripped = true → exec (.thermalTrip sensor temp) s = .next (intEval s)) ∧
    (sensor < 13 → 1760 ≤ temp.toInt → s.saf.tripped = false → ∀ t, t = raiseFault s (unitOf 0x14 0) 0x0D 0 0 1 →
      exec (.thermalTrip sensor temp) s = .next (intEval { t with
        pins := { t.pins with thermtripN := false }, saf := { t.saf with tripped := true, tripSensor := sensor, statusByte := t.saf.statusByte ||| 4 } }))

/-- R11, R128, R441, R442, R483, R487, R488, R490: accesses of registers. A partial write has no effect; so has one to a window that takes none, and one of a virtual function outside its rings. The mask of the interrupts, and the counters of translation, take a written value as it is.
A read of a low word sends it and latches the high word of its pair. -/
def Obligations.RegisterAccesses : Prop :=
  ∀ (s : State) (fn i d : Nat) (a v : W32) (be : BitVec 4), fn ≤ 16 →
    let latched : Nat → State := fun pair => ({ s with latches := { hi := tabIns s.latches.hi (latchKey fn pair) (BitVec.ofNat 32 (pairValue s pair / 2 ^ 32)) } } : State)
    exec (.registerWrite fn a v be) s = .next (intEval (regWrite s fn (a.toNat / 4 * 4) v.toNat be)) ∧
    (be ≠ 0xF → exec (.registerWrite fn a v be) s = .next (intEval s)) ∧
    (barWrite s (a.toNat / 2 ^ 20) = false → exec (.registerWrite fn a v be) s = .next (intEval s)) ∧
    (fn ≠ 0 → a.toNat / 2 ^ 20 = 0 → exec (.registerWrite fn a v be) s = .next (intEval s)) ∧
    (s.flt.failed = true → exec (.registerWrite fn a v be) s = .next (intEval s)) ∧
    (barWrite s 1 = true → exec (.registerWrite 0 0x00100004 v 0xF) s = .next (intEval { s with intr := { s.intr with mask := BitVec.ofNat 32 (v.toNat % 2048) } })) ∧
    (barWrite s 0x40 = true → exec (.registerWrite 0 0x04000008 v 0xF) s = .next (intEval { s with xlt := { s.xlt with faults := v.toNat } })) ∧
    (barWrite s 1 = true → exec (.msixRearm v) s = .next (intEval (intCfg s (v ||| 1).toNat))) ∧
    (barWrite s 1 = false → exec (.msixRearm v) s = .next (intEval s)) ∧
    (pcieUp s = true →
      exec (.glbDeviceIdLoRead fn) s = .next (intEval ((latched pairId).send (.readWord fn 0x08 (regRead s fn 0x08)))) ∧
      exec (.glbCapLoRead fn) s = .next (intEval ((latched pairCap).send (.readWord fn 0x14 (regRead s fn 0x14)))) ∧
      exec (.glbTimeLoRead fn) s = .next (intEval ((latched pairTime).send (.readWord fn 0x24 (regRead s fn 0x24))))) ∧
    (pcieUp s = true → fn = 0 → s.flt.recovery = false → s.flt.failed = false → s.boot.served = true →
      (i < 16384 → exec (.synCountLoRead fn i) s = .next (intEval ((latched (pairSync i)).send (.readWord fn (0x07000000 + 16 * i) (regRead s fn (0x07000000 + 16 * i)))))) ∧
      (d < 26 → exec (.pwrELoRead fn d) s = .next (intEval ((latched (pairEnergy d)).send (.readWord fn (energyAddr d) (regRead s fn (energyAddr d)))))) ∧
      exec (.mirSeqLoRead fn) s = .next (intEval ((latched pairSeq).send (.readWord fn 0x0900000C (regRead s fn 0x0900000C))))) ∧
    (pcieUp s = false → exec (.glbDeviceIdLoRead fn) s = .next (intEval s))

/-- R11: a read of the RC field SKIPPED sends the value from before an event of the same cycle and clears the field; that event is kept, and the next read returns it. -/
def Obligations.SkippedDumpsReadClears : Prop :=
  ∀ (s : State) (ev : Bool), pcieUp s = true →
    let v := regRead s 0 0x0030003C
    let t := ({ s with flt := { s.flt with skipped := if ev then 1 else 0 } } : State)
    let low := flag s.flt.dumpValid 0 + flag s.flt.dumpTrunc 2 + flag s.flt.dumpInc 3 + 2 ^ 4 * s.flt.dumpPart
    exec (.fltDumpSkippedRead 0 ev) s = .next (intEval (t.send (.readWord 0 0x0030003C v))) ∧
    v = BitVec.ofNat 32 (low + 2 ^ 16 * s.flt.skipped) ∧ regRead t 0 0x0030003C = BitVec.ofNat 32 (low + 2 ^ 16 * if ev then 1 else 0)

/-- R483: the evaluation that ends every row sends one message of vector `INT_CFG.VEC` of the physical function where MSI-X is enabled and the masked summary has gone from 0 to non-zero, and none otherwise; a write of REARM sends one if the masked summary
is non-zero, and none otherwise; INT_N is the same whether MSI-X is enabled or not. -/
def Obligations.InterruptMessages : Prop :=
  ∀ (s : State) (v : W32) (en : Bool),
    (intEval s).out = s.out ++ (if s.intr.msixEn && s.intr.wasZero && intMasked s then [.msix 0 s.intr.vec] else []) ∧
    (intEval { s with intr := { s.intr with msixEn := en } }).pins = (intEval s).pins ∧
    (barWrite s 1 = true → intDriven s → ∃ t, exec (.msixRearm v) s = .next t ∧ t.pins = s.pins ∧
      t.out = s.out ++ (if bitOf v.toNat 31 && intMasked s then [.msix 0 (field v.toNat 30 21)] else []))

/-- R415: resynchronisation data that a member receives stands at its 4,096 bytes afterwards, without errors, and every other byte of memory reads as before. -/
def Obligations.ResynchronisationDataStored : Prop :=
  ∀ (s : State) (ppa : W64) (bs : List Byte), ppa.toNat % 4096 = 0 → bs.length = 4096 → backed s ppa.toNat = true → 1 ≤ s.mir.state → s.mir.state ≤ 3 →
    ∃ t, exec (.resynchronisationData ppa bs) s = .next t ∧ memGetL t.mem.bytes ppa.toNat 4096 = bs ∧
      (∀ i, i < 64 → lineErr t (ppa.toNat + 64 * i) = 0) ∧
      ∀ a, a < ppa.toNat ∨ ppa.toNat + 4096 ≤ a → memByte t.mem.bytes a = memByte s.mem.bytes a
end

