-- ==== Sys2Proof/Laws/Tab.lean ====
section
/-! SUPPORT. The laws of sparse tables and of memory: what is written is read, nothing else changes, and the canonical form is
kept. -/
namespace Sys2Proof.Machine

variable {α : Type}

@[simp] theorem tabGet_tabIns_same (d : α) (t : Tab α) (k : Nat) (v : α) : tabGet d (tabIns t k v) k = v := by
  induction t with
  | nil => simp [tabIns, tabGet]
  | cons e t ih =>
    obtain ⟨i, w⟩ := e
    unfold tabIns
    split
    · simp [tabGet]
    · split
      · simp [tabGet]
      · simp_all [tabGet]

theorem tabGet_tabIns_other (d : α) (t : Tab α) (k j : Nat) (v : α) (h : j ≠ k) :
    tabGet d (tabIns t k v) j = tabGet d t j := by
  induction t with
  | nil => simp [tabIns, tabGet, Ne.symm h]
  | cons e t ih =>
    obtain ⟨i, w⟩ := e
    unfold tabIns
    split
    · simp [tabGet, Ne.symm h]
    · split
      · simp_all [tabGet, Ne.symm h]
      · simp [tabGet, ih]

@[simp] theorem tabGet_tabDel_same (d : α) (t : Tab α) (k : Nat) : tabGet d (tabDel t k) k = d := by
  induction t with
  | nil => simp [tabDel, tabGet]
  | cons e t ih =>
    obtain ⟨i, w⟩ := e
    unfold tabDel
    split
    · exact ih
    · simp_all [tabGet]

theorem tabGet_tabDel_other (d : α) (t : Tab α) (k j : Nat) (h : j ≠ k) : tabGet d (tabDel t k) j = tabGet d t j := by
  induction t with
  | nil => simp [tabDel]
  | cons e t ih =>
    obtain ⟨i, w⟩ := e
    unfold tabDel
    split
    · subst_vars
      simp [tabGet, Ne.symm h, ih]
    · simp [tabGet, ih]

/-- What a table write stores is what a read finds. -/
@[simp] theorem tabGet_tabSet_same [DecidableEq α] (d : α) (t : Tab α) (k : Nat) (v : α) : tabGet d (tabSet d t k v) k = v := by
  unfold tabSet
  split
  · simp_all
  · simp

/-- A table write leaves every other index alone. -/
theorem tabGet_tabSet_other [DecidableEq α] (d : α) (t : Tab α) (k j : Nat) (v : α) (h : j ≠ k) :
    tabGet d (tabSet d t k v) j = tabGet d t j := by
  unfold tabSet
  split
  · exact tabGet_tabDel_other d t k j h
  · exact tabGet_tabIns_other d t k j v h

@[simp] theorem tabFind_tabIns_same (t : Tab α) (k : Nat) (v : α) : tabFind (tabIns t k v) k = some v := by
  induction t with
  | nil => simp [tabIns, tabFind]
  | cons e t ih =>
    obtain ⟨i, w⟩ := e
    unfold tabIns
    split
    · simp [tabFind]
    · split
      · simp [tabFind]
      · simp_all [tabFind]

theorem tabFind_tabIns_other (t : Tab α) (k j : Nat) (v : α) (h : j ≠ k) : tabFind (tabIns t k v) j = tabFind t j := by
  induction t with
  | nil => simp [tabIns, tabFind, Ne.symm h]
  | cons e t ih =>
    obtain ⟨i, w⟩ := e
    unfold tabIns
    split
    · simp [tabFind, Ne.symm h]
    · split
      · simp_all [tabFind, Ne.symm h]
      · simp [tabFind, ih]

@[simp] theorem tabFind_tabDel_same (t : Tab α) (k : Nat) : tabFind (tabDel t k) k = none := by
  induction t with
  | nil => simp [tabDel, tabFind]
  | cons e t ih =>
    obtain ⟨i, w⟩ := e
    unfold tabDel
    split
    · exact ih
    · simp_all [tabFind]

theorem tabFind_tabDel_other (t : Tab α) (k j : Nat) (h : j ≠ k) : tabFind (tabDel t k) j = tabFind t j := by
  induction t with
  | nil => simp [tabDel]
  | cons e t ih =>
    obtain ⟨i, w⟩ := e
    unfold tabDel
    split
    · subst_vars
      simp [tabFind, Ne.symm h, ih]
    · simp [tabFind, ih]

theorem tabAbove_mono (i j : Nat) (t : Tab α) (h : i ≤ j) (ha : tabAbove j t = true) : tabAbove i t = true := by
  simp only [tabAbove, List.all_eq_true, decide_eq_true_eq] at *
  intro e he
  exact Nat.lt_of_le_of_lt h (ha e he)

theorem tabAbove_tabIns (i k : Nat) (t : Tab α) (v : α) (hk : i < k) (ha : tabAbove i t = true) :
    tabAbove i (tabIns t k v) = true := by
  induction t with
  | nil => simp [tabIns, tabAbove, hk]
  | cons e t ih =>
    obtain ⟨j, w⟩ := e
    simp only [tabAbove, List.all_cons, Bool.and_eq_true, decide_eq_true_eq] at ha ih
    unfold tabIns
    split
    · simp [tabAbove, hk, ha.1]
      simpa using ha.2
    · split
      · simp [tabAbove, hk]
        simpa using ha.2
      · simp only [tabAbove, List.all_cons, Bool.and_eq_true, decide_eq_true_eq]
        exact ⟨ha.1, ih ha.2⟩

theorem tabAbove_tabDel (i k : Nat) (t : Tab α) (ha : tabAbove i t = true) : tabAbove i (tabDel t k) = true := by
  induction t with
  | nil => simp [tabDel, tabAbove]
  | cons e t ih =>
    obtain ⟨j, w⟩ := e
    simp only [tabAbove, List.all_cons, Bool.and_eq_true, decide_eq_true_eq] at ha ih
    unfold tabDel
    split
    · exact ih ha.2
    · simp only [tabAbove, List.all_cons, Bool.and_eq_true, decide_eq_true_eq]
      exact ⟨ha.1, ih ha.2⟩

theorem tabWf_tabDel [DecidableEq α] (d : α) (t : Tab α) (k : Nat) (h : tabWf d t = true) : tabWf d (tabDel t k) = true := by
  induction t with
  | nil => simp [tabDel, tabWf]
  | cons e t ih =>
    obtain ⟨j, w⟩ := e
    simp only [tabWf, Bool.and_eq_true] at h
    unfold tabDel
    split
    · exact ih h.2
    · simp only [tabWf, Bool.and_eq_true]
      exact ⟨⟨h.1.1, tabAbove_tabDel j k t h.1.2⟩, ih h.2⟩

theorem tabWf_tabIns [DecidableEq α] (d : α) (t : Tab α) (k : Nat) (v : α) (hv : v ≠ d) (h : tabWf d t = true) :
    tabWf d (tabIns t k v) = true := by
  induction t with
  | nil => simp [tabIns, tabWf, tabAbove, hv]
  | cons e t ih =>
    obtain ⟨j, w⟩ := e
    simp only [tabWf, Bool.and_eq_true] at h
    unfold tabIns
    split
    · rename_i hkj
      simp only [tabWf, Bool.and_eq_true, decide_eq_true_eq]
      refine ⟨⟨hv, ?_⟩, ⟨by simpa using h.1.1, h.1.2⟩, h.2⟩
      simp only [tabAbove, List.all_cons, Bool.and_eq_true, decide_eq_true_eq]
      exact ⟨hkj, by simpa [tabAbove] using tabAbove_mono k j t (Nat.le_of_lt hkj) h.1.2⟩
    · split
      · subst_vars
        simp only [tabWf, Bool.and_eq_true, decide_eq_true_eq]
        exact ⟨⟨hv, h.1.2⟩, h.2⟩
      · rename_i h1 h2
        simp only [tabWf, Bool.and_eq_true, decide_eq_true_eq]
        exact ⟨⟨by simpa using h.1.1, tabAbove_tabIns j k t v (by omega) h.1.2⟩, ih h.2⟩

/-- A table write keeps the canonical form. -/
theorem tabWf_tabSet [DecidableEq α] (d : α) (t : Tab α) (k : Nat) (v : α) (h : tabWf d t = true) : tabWf d (tabSet d t k v) = true := by
  unfold tabSet
  split
  · exact tabWf_tabDel d t k h
  · exact tabWf_tabIns d t k v (by assumption) h

/-! ## Memory -/

/-- A byte written is the byte read. -/
@[simp] theorem memByte_memPut_same (m : Memory) (a : Nat) (b : BitVec 8) : memByte (memPut m a b) a = b := by
  simp [memByte, memPut]

/-- A write of a byte leaves every other address alone. -/
theorem memByte_memPut_other (m : Memory) (a j : Nat) (b : BitVec 8) (h : j ≠ a) : memByte (memPut m a b) j = memByte m j :=
  tabGet_tabSet_other memDefault m a j b h

/-- A write of a byte keeps the canonical form. -/
theorem memPut_wf (m : Memory) (a : Nat) (b : BitVec 8) (h : Memory.wf m = true) : Memory.wf (memPut m a b) = true :=
  tabWf_tabSet memDefault m a b h

/-- A write of bytes keeps the canonical form. -/
theorem memPutL_wf (m : Memory) (a : Nat) (bs : List (BitVec 8)) (h : Memory.wf m = true) : Memory.wf (memPutL m a bs) = true := by
  induction bs generalizing m a with
  | nil => exact h
  | cons b bs ih => exact ih _ _ (memPut_wf m a b h)

/-- A write of bytes leaves every address outside them alone. -/
theorem memByte_memPutL_other (m : Memory) (a j : Nat) (bs : List (BitVec 8)) (h : j < a ∨ a + bs.length ≤ j) :
    memByte (memPutL m a bs) j = memByte m j := by
  induction bs generalizing m a with
  | nil => rfl
  | cons b bs ih =>
    simp only [List.length_cons] at h
    rw [memPutL, ih _ _ (by omega), memByte_memPut_other _ _ _ _ (by omega)]

/-- The bytes written are the bytes read. -/
theorem memGetL_memPutL (m : Memory) (a : Nat) (bs : List (BitVec 8)) : memGetL (memPutL m a bs) a bs.length = bs := by
  induction bs generalizing m a with
  | nil => rfl
  | cons b bs ih =>
    simp only [List.length_cons, memGetL, memPutL, ih]
    rw [memByte_memPutL_other _ _ _ _ (by omega), memByte_memPut_same]

/-- Clearing a span of memory (R109, R436) keeps the canonical form: what is left out was listed. -/
theorem tabWf_filter [DecidableEq α] (d : α) (t : Tab α) (f : Nat × α → Bool) (h : tabWf d t = true) : tabWf d (t.filter f) = true := by
  induction t with
  | nil => rfl
  | cons e t ih =>
    obtain ⟨j, w⟩ := e
    simp only [tabWf, Bool.and_eq_true] at h
    rw [List.filter_cons]
    split
    · simp only [tabWf, Bool.and_eq_true]
      refine ⟨⟨h.1.1, ?_⟩, ih h.2⟩
      simp only [tabAbove, List.all_eq_true, decide_eq_true_eq, List.mem_filter] at *
      intro e he
      exact h.1.2 e he.1
    · exact ih h.2

end Sys2Proof.Machine
end

