-- ==== Sys2Proof/Laws/State.lean ====
section
/-! SUPPORT. The updates of the state, field by field: each changes its own field and leaves every other as it was; and what the named
instances read after a write. -/
namespace Sys2Proof.Machine

/-! ### setRing -/

@[simp] theorem State.setRing_now (s : State) (n : Nat) (x : Ring) : (s.setRing n x).now = s.now := rfl
@[simp] theorem State.setRing_devStart (s : State) (n : Nat) (x : Ring) : (s.setRing n x).devStart = s.devStart := rfl
@[simp] theorem State.setRing_fuses (s : State) (n : Nat) (x : Ring) : (s.setRing n x).fuses = s.fuses := rfl
@[simp] theorem State.setRing_pins (s : State) (n : Nat) (x : Ring) : (s.setRing n x).pins = s.pins := rfl
@[simp] theorem State.setRing_boot (s : State) (n : Nat) (x : Ring) : (s.setRing n x).boot = s.boot := rfl
@[simp] theorem State.setRing_saf (s : State) (n : Nat) (x : Ring) : (s.setRing n x).saf = s.saf := rfl
@[simp] theorem State.setRing_latches (s : State) (n : Nat) (x : Ring) : (s.setRing n x).latches = s.latches := rfl
@[simp] theorem State.setRing_intr (s : State) (n : Nat) (x : Ring) : (s.setRing n x).intr = s.intr := rfl
@[simp] theorem State.setRing_store (s : State) (n : Nat) (x : Ring) : (s.setRing n x).store = s.store := rfl
@[simp] theorem State.setRing_out (s : State) (n : Nat) (x : Ring) : (s.setRing n x).out = s.out := rfl
@[simp] theorem State.setRing_xlt (s : State) (n : Nat) (x : Ring) : (s.setRing n x).xlt = s.xlt := rfl
@[simp] theorem State.setRing_iso (s : State) (n : Nat) (x : Ring) : (s.setRing n x).iso = s.iso := rfl
@[simp] theorem State.setRing_qos (s : State) (n : Nat) (x : Ring) : (s.setRing n x).qos = s.qos := rfl
@[simp] theorem State.setRing_churn (s : State) (n : Nat) (x : Ring) : (s.setRing n x).churn = s.churn := rfl
@[simp] theorem State.setRing_sync (s : State) (n : Nat) (x : Ring) : (s.setRing n x).sync = s.sync := rfl
@[simp] theorem State.setRing_work (s : State) (n : Nat) (x : Ring) : (s.setRing n x).work = s.work := rfl
@[simp] theorem State.setRing_coh (s : State) (n : Nat) (x : Ring) : (s.setRing n x).coh = s.coh := rfl
@[simp] theorem State.setRing_fab (s : State) (n : Nat) (x : Ring) : (s.setRing n x).fab = s.fab := rfl
@[simp] theorem State.setRing_lanes (s : State) (n : Nat) (x : Ring) : (s.setRing n x).lanes = s.lanes := rfl
@[simp] theorem State.setRing_mem (s : State) (n : Nat) (x : Ring) : (s.setRing n x).mem = s.mem := rfl
@[simp] theorem State.setRing_mir (s : State) (n : Nat) (x : Ring) : (s.setRing n x).mir = s.mir := rfl
@[simp] theorem State.setRing_flt (s : State) (n : Nat) (x : Ring) : (s.setRing n x).flt = s.flt := rfl
@[simp] theorem State.setRing_fw (s : State) (n : Nat) (x : Ring) : (s.setRing n x).fw = s.fw := rfl
@[simp] theorem State.setRing_pwr (s : State) (n : Nat) (x : Ring) : (s.setRing n x).pwr = s.pwr := rfl
@[simp] theorem State.setRing_free (s : State) (n : Nat) (x : Ring) : (s.setRing n x).free = s.free := rfl
@[simp] theorem State.setRing_pending (s : State) (n : Nat) (x : Ring) : (s.setRing n x).pending = s.pending := rfl

/-! ### setPart -/

@[simp] theorem State.setPart_now (s : State) (p : Nat) (x : Part) : (s.setPart p x).now = s.now := rfl
@[simp] theorem State.setPart_devStart (s : State) (p : Nat) (x : Part) : (s.setPart p x).devStart = s.devStart := rfl
@[simp] theorem State.setPart_fuses (s : State) (p : Nat) (x : Part) : (s.setPart p x).fuses = s.fuses := rfl
@[simp] theorem State.setPart_pins (s : State) (p : Nat) (x : Part) : (s.setPart p x).pins = s.pins := rfl
@[simp] theorem State.setPart_boot (s : State) (p : Nat) (x : Part) : (s.setPart p x).boot = s.boot := rfl
@[simp] theorem State.setPart_saf (s : State) (p : Nat) (x : Part) : (s.setPart p x).saf = s.saf := rfl
@[simp] theorem State.setPart_latches (s : State) (p : Nat) (x : Part) : (s.setPart p x).latches = s.latches := rfl
@[simp] theorem State.setPart_intr (s : State) (p : Nat) (x : Part) : (s.setPart p x).intr = s.intr := rfl
@[simp] theorem State.setPart_rings (s : State) (p : Nat) (x : Part) : (s.setPart p x).rings = s.rings := rfl
@[simp] theorem State.setPart_store (s : State) (p : Nat) (x : Part) : (s.setPart p x).store = s.store := rfl
@[simp] theorem State.setPart_out (s : State) (p : Nat) (x : Part) : (s.setPart p x).out = s.out := rfl
@[simp] theorem State.setPart_xlt (s : State) (p : Nat) (x : Part) : (s.setPart p x).xlt = s.xlt := rfl
@[simp] theorem State.setPart_iso (s : State) (p : Nat) (x : Part) : (s.setPart p x).iso = s.iso := rfl
@[simp] theorem State.setPart_qos (s : State) (p : Nat) (x : Part) : (s.setPart p x).qos = s.qos := rfl
@[simp] theorem State.setPart_churn (s : State) (p : Nat) (x : Part) : (s.setPart p x).churn = s.churn := rfl
@[simp] theorem State.setPart_sync (s : State) (p : Nat) (x : Part) : (s.setPart p x).sync = s.sync := rfl
@[simp] theorem State.setPart_work (s : State) (p : Nat) (x : Part) : (s.setPart p x).work = s.work := rfl
@[simp] theorem State.setPart_coh (s : State) (p : Nat) (x : Part) : (s.setPart p x).coh = s.coh := rfl
@[simp] theorem State.setPart_fab (s : State) (p : Nat) (x : Part) : (s.setPart p x).fab = s.fab := rfl
@[simp] theorem State.setPart_lanes (s : State) (p : Nat) (x : Part) : (s.setPart p x).lanes = s.lanes := rfl
@[simp] theorem State.setPart_mir (s : State) (p : Nat) (x : Part) : (s.setPart p x).mir = s.mir := rfl
@[simp] theorem State.setPart_flt (s : State) (p : Nat) (x : Part) : (s.setPart p x).flt = s.flt := rfl
@[simp] theorem State.setPart_fw (s : State) (p : Nat) (x : Part) : (s.setPart p x).fw = s.fw := rfl
@[simp] theorem State.setPart_pwr (s : State) (p : Nat) (x : Part) : (s.setPart p x).pwr = s.pwr := rfl
@[simp] theorem State.setPart_free (s : State) (p : Nat) (x : Part) : (s.setPart p x).free = s.free := rfl
@[simp] theorem State.setPart_pending (s : State) (p : Nat) (x : Part) : (s.setPart p x).pending = s.pending := rfl

/-! ### setTile -/

@[simp] theorem State.setTile_now (s : State) (t : Nat) (x : Tile) : (s.setTile t x).now = s.now := rfl
@[simp] theorem State.setTile_devStart (s : State) (t : Nat) (x : Tile) : (s.setTile t x).devStart = s.devStart := rfl
@[simp] theorem State.setTile_fuses (s : State) (t : Nat) (x : Tile) : (s.setTile t x).fuses = s.fuses := rfl
@[simp] theorem State.setTile_pins (s : State) (t : Nat) (x : Tile) : (s.setTile t x).pins = s.pins := rfl
@[simp] theorem State.setTile_boot (s : State) (t : Nat) (x : Tile) : (s.setTile t x).boot = s.boot := rfl
@[simp] theorem State.setTile_saf (s : State) (t : Nat) (x : Tile) : (s.setTile t x).saf = s.saf := rfl
@[simp] theorem State.setTile_latches (s : State) (t : Nat) (x : Tile) : (s.setTile t x).latches = s.latches := rfl
@[simp] theorem State.setTile_intr (s : State) (t : Nat) (x : Tile) : (s.setTile t x).intr = s.intr := rfl
@[simp] theorem State.setTile_rings (s : State) (t : Nat) (x : Tile) : (s.setTile t x).rings = s.rings := rfl
@[simp] theorem State.setTile_store (s : State) (t : Nat) (x : Tile) : (s.setTile t x).store = s.store := rfl
@[simp] theorem State.setTile_out (s : State) (t : Nat) (x : Tile) : (s.setTile t x).out = s.out := rfl
@[simp] theorem State.setTile_xlt (s : State) (t : Nat) (x : Tile) : (s.setTile t x).xlt = s.xlt := rfl
@[simp] theorem State.setTile_iso (s : State) (t : Nat) (x : Tile) : (s.setTile t x).iso = s.iso := rfl
@[simp] theorem State.setTile_qos (s : State) (t : Nat) (x : Tile) : (s.setTile t x).qos = s.qos := rfl
@[simp] theorem State.setTile_sync (s : State) (t : Nat) (x : Tile) : (s.setTile t x).sync = s.sync := rfl
@[simp] theorem State.setTile_work (s : State) (t : Nat) (x : Tile) : (s.setTile t x).work = s.work := rfl
@[simp] theorem State.setTile_coh (s : State) (t : Nat) (x : Tile) : (s.setTile t x).coh = s.coh := rfl
@[simp] theorem State.setTile_fab (s : State) (t : Nat) (x : Tile) : (s.setTile t x).fab = s.fab := rfl
@[simp] theorem State.setTile_lanes (s : State) (t : Nat) (x : Tile) : (s.setTile t x).lanes = s.lanes := rfl
@[simp] theorem State.setTile_mem (s : State) (t : Nat) (x : Tile) : (s.setTile t x).mem = s.mem := rfl
@[simp] theorem State.setTile_mir (s : State) (t : Nat) (x : Tile) : (s.setTile t x).mir = s.mir := rfl
@[simp] theorem State.setTile_flt (s : State) (t : Nat) (x : Tile) : (s.setTile t x).flt = s.flt := rfl
@[simp] theorem State.setTile_fw (s : State) (t : Nat) (x : Tile) : (s.setTile t x).fw = s.fw := rfl
@[simp] theorem State.setTile_pwr (s : State) (t : Nat) (x : Tile) : (s.setTile t x).pwr = s.pwr := rfl
@[simp] theorem State.setTile_free (s : State) (t : Nat) (x : Tile) : (s.setTile t x).free = s.free := rfl
@[simp] theorem State.setTile_pending (s : State) (t : Nat) (x : Tile) : (s.setTile t x).pending = s.pending := rfl

/-! ### setClu -/

@[simp] theorem State.setClu_now (s : State) (c : Nat) (x : Clu) : (s.setClu c x).now = s.now := rfl
@[simp] theorem State.setClu_devStart (s : State) (c : Nat) (x : Clu) : (s.setClu c x).devStart = s.devStart := rfl
@[simp] theorem State.setClu_fuses (s : State) (c : Nat) (x : Clu) : (s.setClu c x).fuses = s.fuses := rfl
@[simp] theorem State.setClu_pins (s : State) (c : Nat) (x : Clu) : (s.setClu c x).pins = s.pins := rfl
@[simp] theorem State.setClu_boot (s : State) (c : Nat) (x : Clu) : (s.setClu c x).boot = s.boot := rfl
@[simp] theorem State.setClu_saf (s : State) (c : Nat) (x : Clu) : (s.setClu c x).saf = s.saf := rfl
@[simp] theorem State.setClu_latches (s : State) (c : Nat) (x : Clu) : (s.setClu c x).latches = s.latches := rfl
@[simp] theorem State.setClu_intr (s : State) (c : Nat) (x : Clu) : (s.setClu c x).intr = s.intr := rfl
@[simp] theorem State.setClu_rings (s : State) (c : Nat) (x : Clu) : (s.setClu c x).rings = s.rings := rfl
@[simp] theorem State.setClu_store (s : State) (c : Nat) (x : Clu) : (s.setClu c x).store = s.store := rfl
@[simp] theorem State.setClu_out (s : State) (c : Nat) (x : Clu) : (s.setClu c x).out = s.out := rfl
@[simp] theorem State.setClu_xlt (s : State) (c : Nat) (x : Clu) : (s.setClu c x).xlt = s.xlt := rfl
@[simp] theorem State.setClu_iso (s : State) (c : Nat) (x : Clu) : (s.setClu c x).iso = s.iso := rfl
@[simp] theorem State.setClu_qos (s : State) (c : Nat) (x : Clu) : (s.setClu c x).qos = s.qos := rfl
@[simp] theorem State.setClu_sync (s : State) (c : Nat) (x : Clu) : (s.setClu c x).sync = s.sync := rfl
@[simp] theorem State.setClu_work (s : State) (c : Nat) (x : Clu) : (s.setClu c x).work = s.work := rfl
@[simp] theorem State.setClu_coh (s : State) (c : Nat) (x : Clu) : (s.setClu c x).coh = s.coh := rfl
@[simp] theorem State.setClu_fab (s : State) (c : Nat) (x : Clu) : (s.setClu c x).fab = s.fab := rfl
@[simp] theorem State.setClu_lanes (s : State) (c : Nat) (x : Clu) : (s.setClu c x).lanes = s.lanes := rfl
@[simp] theorem State.setClu_mem (s : State) (c : Nat) (x : Clu) : (s.setClu c x).mem = s.mem := rfl
@[simp] theorem State.setClu_mir (s : State) (c : Nat) (x : Clu) : (s.setClu c x).mir = s.mir := rfl
@[simp] theorem State.setClu_flt (s : State) (c : Nat) (x : Clu) : (s.setClu c x).flt = s.flt := rfl
@[simp] theorem State.setClu_fw (s : State) (c : Nat) (x : Clu) : (s.setClu c x).fw = s.fw := rfl
@[simp] theorem State.setClu_pwr (s : State) (c : Nat) (x : Clu) : (s.setClu c x).pwr = s.pwr := rfl
@[simp] theorem State.setClu_free (s : State) (c : Nat) (x : Clu) : (s.setClu c x).free = s.free := rfl
@[simp] theorem State.setClu_pending (s : State) (c : Nat) (x : Clu) : (s.setClu c x).pending = s.pending := rfl

/-! ### setObj -/

@[simp] theorem State.setObj_now (s : State) (i : Nat) (x : SyncObj) : (s.setObj i x).now = s.now := rfl
@[simp] theorem State.setObj_devStart (s : State) (i : Nat) (x : SyncObj) : (s.setObj i x).devStart = s.devStart := rfl
@[simp] theorem State.setObj_fuses (s : State) (i : Nat) (x : SyncObj) : (s.setObj i x).fuses = s.fuses := rfl
@[simp] theorem State.setObj_pins (s : State) (i : Nat) (x : SyncObj) : (s.setObj i x).pins = s.pins := rfl
@[simp] theorem State.setObj_boot (s : State) (i : Nat) (x : SyncObj) : (s.setObj i x).boot = s.boot := rfl
@[simp] theorem State.setObj_saf (s : State) (i : Nat) (x : SyncObj) : (s.setObj i x).saf = s.saf := rfl
@[simp] theorem State.setObj_latches (s : State) (i : Nat) (x : SyncObj) : (s.setObj i x).latches = s.latches := rfl
@[simp] theorem State.setObj_intr (s : State) (i : Nat) (x : SyncObj) : (s.setObj i x).intr = s.intr := rfl
@[simp] theorem State.setObj_rings (s : State) (i : Nat) (x : SyncObj) : (s.setObj i x).rings = s.rings := rfl
@[simp] theorem State.setObj_store (s : State) (i : Nat) (x : SyncObj) : (s.setObj i x).store = s.store := rfl
@[simp] theorem State.setObj_out (s : State) (i : Nat) (x : SyncObj) : (s.setObj i x).out = s.out := rfl
@[simp] theorem State.setObj_xlt (s : State) (i : Nat) (x : SyncObj) : (s.setObj i x).xlt = s.xlt := rfl
@[simp] theorem State.setObj_iso (s : State) (i : Nat) (x : SyncObj) : (s.setObj i x).iso = s.iso := rfl
@[simp] theorem State.setObj_qos (s : State) (i : Nat) (x : SyncObj) : (s.setObj i x).qos = s.qos := rfl
@[simp] theorem State.setObj_churn (s : State) (i : Nat) (x : SyncObj) : (s.setObj i x).churn = s.churn := rfl
@[simp] theorem State.setObj_work (s : State) (i : Nat) (x : SyncObj) : (s.setObj i x).work = s.work := rfl
@[simp] theorem State.setObj_coh (s : State) (i : Nat) (x : SyncObj) : (s.setObj i x).coh = s.coh := rfl
@[simp] theorem State.setObj_fab (s : State) (i : Nat) (x : SyncObj) : (s.setObj i x).fab = s.fab := rfl
@[simp] theorem State.setObj_lanes (s : State) (i : Nat) (x : SyncObj) : (s.setObj i x).lanes = s.lanes := rfl
@[simp] theorem State.setObj_mem (s : State) (i : Nat) (x : SyncObj) : (s.setObj i x).mem = s.mem := rfl
@[simp] theorem State.setObj_mir (s : State) (i : Nat) (x : SyncObj) : (s.setObj i x).mir = s.mir := rfl
@[simp] theorem State.setObj_flt (s : State) (i : Nat) (x : SyncObj) : (s.setObj i x).flt = s.flt := rfl
@[simp] theorem State.setObj_fw (s : State) (i : Nat) (x : SyncObj) : (s.setObj i x).fw = s.fw := rfl
@[simp] theorem State.setObj_pwr (s : State) (i : Nat) (x : SyncObj) : (s.setObj i x).pwr = s.pwr := rfl
@[simp] theorem State.setObj_free (s : State) (i : Nat) (x : SyncObj) : (s.setObj i x).free = s.free := rfl
@[simp] theorem State.setObj_pending (s : State) (i : Nat) (x : SyncObj) : (s.setObj i x).pending = s.pending := rfl

/-! ### setWin -/

@[simp] theorem State.setWin_now (s : State) (w : Nat) (x : Window) : (s.setWin w x).now = s.now := rfl
@[simp] theorem State.setWin_devStart (s : State) (w : Nat) (x : Window) : (s.setWin w x).devStart = s.devStart := rfl
@[simp] theorem State.setWin_fuses (s : State) (w : Nat) (x : Window) : (s.setWin w x).fuses = s.fuses := rfl
@[simp] theorem State.setWin_pins (s : State) (w : Nat) (x : Window) : (s.setWin w x).pins = s.pins := rfl
@[simp] theorem State.setWin_boot (s : State) (w : Nat) (x : Window) : (s.setWin w x).boot = s.boot := rfl
@[simp] theorem State.setWin_saf (s : State) (w : Nat) (x : Window) : (s.setWin w x).saf = s.saf := rfl
@[simp] theorem State.setWin_latches (s : State) (w : Nat) (x : Window) : (s.setWin w x).latches = s.latches := rfl
@[simp] theorem State.setWin_intr (s : State) (w : Nat) (x : Window) : (s.setWin w x).intr = s.intr := rfl
@[simp] theorem State.setWin_rings (s : State) (w : Nat) (x : Window) : (s.setWin w x).rings = s.rings := rfl
@[simp] theorem State.setWin_store (s : State) (w : Nat) (x : Window) : (s.setWin w x).store = s.store := rfl
@[simp] theorem State.setWin_out (s : State) (w : Nat) (x : Window) : (s.setWin w x).out = s.out := rfl
@[simp] theorem State.setWin_xlt (s : State) (w : Nat) (x : Window) : (s.setWin w x).xlt = s.xlt := rfl
@[simp] theorem State.setWin_iso (s : State) (w : Nat) (x : Window) : (s.setWin w x).iso = s.iso := rfl
@[simp] theorem State.setWin_qos (s : State) (w : Nat) (x : Window) : (s.setWin w x).qos = s.qos := rfl
@[simp] theorem State.setWin_churn (s : State) (w : Nat) (x : Window) : (s.setWin w x).churn = s.churn := rfl
@[simp] theorem State.setWin_sync (s : State) (w : Nat) (x : Window) : (s.setWin w x).sync = s.sync := rfl
@[simp] theorem State.setWin_work (s : State) (w : Nat) (x : Window) : (s.setWin w x).work = s.work := rfl
@[simp] theorem State.setWin_fab (s : State) (w : Nat) (x : Window) : (s.setWin w x).fab = s.fab := rfl
@[simp] theorem State.setWin_lanes (s : State) (w : Nat) (x : Window) : (s.setWin w x).lanes = s.lanes := rfl
@[simp] theorem State.setWin_mem (s : State) (w : Nat) (x : Window) : (s.setWin w x).mem = s.mem := rfl
@[simp] theorem State.setWin_mir (s : State) (w : Nat) (x : Window) : (s.setWin w x).mir = s.mir := rfl
@[simp] theorem State.setWin_flt (s : State) (w : Nat) (x : Window) : (s.setWin w x).flt = s.flt := rfl
@[simp] theorem State.setWin_fw (s : State) (w : Nat) (x : Window) : (s.setWin w x).fw = s.fw := rfl
@[simp] theorem State.setWin_pwr (s : State) (w : Nat) (x : Window) : (s.setWin w x).pwr = s.pwr := rfl
@[simp] theorem State.setWin_free (s : State) (w : Nat) (x : Window) : (s.setWin w x).free = s.free := rfl
@[simp] theorem State.setWin_pending (s : State) (w : Nat) (x : Window) : (s.setWin w x).pending = s.pending := rfl

/-! ### setMeter -/

@[simp] theorem State.setMeter_now (s : State) (m : Nat) (x : Meter) : (s.setMeter m x).now = s.now := rfl
@[simp] theorem State.setMeter_devStart (s : State) (m : Nat) (x : Meter) : (s.setMeter m x).devStart = s.devStart := rfl
@[simp] theorem State.setMeter_fuses (s : State) (m : Nat) (x : Meter) : (s.setMeter m x).fuses = s.fuses := rfl
@[simp] theorem State.setMeter_pins (s : State) (m : Nat) (x : Meter) : (s.setMeter m x).pins = s.pins := rfl
@[simp] theorem State.setMeter_boot (s : State) (m : Nat) (x : Meter) : (s.setMeter m x).boot = s.boot := rfl
@[simp] theorem State.setMeter_saf (s : State) (m : Nat) (x : Meter) : (s.setMeter m x).saf = s.saf := rfl
@[simp] theorem State.setMeter_latches (s : State) (m : Nat) (x : Meter) : (s.setMeter m x).latches = s.latches := rfl
@[simp] theorem State.setMeter_intr (s : State) (m : Nat) (x : Meter) : (s.setMeter m x).intr = s.intr := rfl
@[simp] theorem State.setMeter_rings (s : State) (m : Nat) (x : Meter) : (s.setMeter m x).rings = s.rings := rfl
@[simp] theorem State.setMeter_store (s : State) (m : Nat) (x : Meter) : (s.setMeter m x).store = s.store := rfl
@[simp] theorem State.setMeter_out (s : State) (m : Nat) (x : Meter) : (s.setMeter m x).out = s.out := rfl
@[simp] theorem State.setMeter_xlt (s : State) (m : Nat) (x : Meter) : (s.setMeter m x).xlt = s.xlt := rfl
@[simp] theorem State.setMeter_iso (s : State) (m : Nat) (x : Meter) : (s.setMeter m x).iso = s.iso := rfl
@[simp] theorem State.setMeter_churn (s : State) (m : Nat) (x : Meter) : (s.setMeter m x).churn = s.churn := rfl
@[simp] theorem State.setMeter_sync (s : State) (m : Nat) (x : Meter) : (s.setMeter m x).sync = s.sync := rfl
@[simp] theorem State.setMeter_work (s : State) (m : Nat) (x : Meter) : (s.setMeter m x).work = s.work := rfl
@[simp] theorem State.setMeter_coh (s : State) (m : Nat) (x : Meter) : (s.setMeter m x).coh = s.coh := rfl
@[simp] theorem State.setMeter_fab (s : State) (m : Nat) (x : Meter) : (s.setMeter m x).fab = s.fab := rfl
@[simp] theorem State.setMeter_lanes (s : State) (m : Nat) (x : Meter) : (s.setMeter m x).lanes = s.lanes := rfl
@[simp] theorem State.setMeter_mem (s : State) (m : Nat) (x : Meter) : (s.setMeter m x).mem = s.mem := rfl
@[simp] theorem State.setMeter_mir (s : State) (m : Nat) (x : Meter) : (s.setMeter m x).mir = s.mir := rfl
@[simp] theorem State.setMeter_flt (s : State) (m : Nat) (x : Meter) : (s.setMeter m x).flt = s.flt := rfl
@[simp] theorem State.setMeter_fw (s : State) (m : Nat) (x : Meter) : (s.setMeter m x).fw = s.fw := rfl
@[simp] theorem State.setMeter_pwr (s : State) (m : Nat) (x : Meter) : (s.setMeter m x).pwr = s.pwr := rfl
@[simp] theorem State.setMeter_free (s : State) (m : Nat) (x : Meter) : (s.setMeter m x).free = s.free := rfl
@[simp] theorem State.setMeter_pending (s : State) (m : Nat) (x : Meter) : (s.setMeter m x).pending = s.pending := rfl

/-! ### setPoint -/

@[simp] theorem State.setPoint_now (s : State) (pt : Nat) (x : Point) : (s.setPoint pt x).now = s.now := rfl
@[simp] theorem State.setPoint_devStart (s : State) (pt : Nat) (x : Point) : (s.setPoint pt x).devStart = s.devStart := rfl
@[simp] theorem State.setPoint_fuses (s : State) (pt : Nat) (x : Point) : (s.setPoint pt x).fuses = s.fuses := rfl
@[simp] theorem State.setPoint_pins (s : State) (pt : Nat) (x : Point) : (s.setPoint pt x).pins = s.pins := rfl
@[simp] theorem State.setPoint_boot (s : State) (pt : Nat) (x : Point) : (s.setPoint pt x).boot = s.boot := rfl
@[simp] theorem State.setPoint_saf (s : State) (pt : Nat) (x : Point) : (s.setPoint pt x).saf = s.saf := rfl
@[simp] theorem State.setPoint_latches (s : State) (pt : Nat) (x : Point) : (s.setPoint pt x).latches = s.latches := rfl
@[simp] theorem State.setPoint_intr (s : State) (pt : Nat) (x : Point) : (s.setPoint pt x).intr = s.intr := rfl
@[simp] theorem State.setPoint_rings (s : State) (pt : Nat) (x : Point) : (s.setPoint pt x).rings = s.rings := rfl
@[simp] theorem State.setPoint_store (s : State) (pt : Nat) (x : Point) : (s.setPoint pt x).store = s.store := rfl
@[simp] theorem State.setPoint_out (s : State) (pt : Nat) (x : Point) : (s.setPoint pt x).out = s.out := rfl
@[simp] theorem State.setPoint_xlt (s : State) (pt : Nat) (x : Point) : (s.setPoint pt x).xlt = s.xlt := rfl
@[simp] theorem State.setPoint_iso (s : State) (pt : Nat) (x : Point) : (s.setPoint pt x).iso = s.iso := rfl
@[simp] theorem State.setPoint_churn (s : State) (pt : Nat) (x : Point) : (s.setPoint pt x).churn = s.churn := rfl
@[simp] theorem State.setPoint_sync (s : State) (pt : Nat) (x : Point) : (s.setPoint pt x).sync = s.sync := rfl
@[simp] theorem State.setPoint_work (s : State) (pt : Nat) (x : Point) : (s.setPoint pt x).work = s.work := rfl
@[simp] theorem State.setPoint_coh (s : State) (pt : Nat) (x : Point) : (s.setPoint pt x).coh = s.coh := rfl
@[simp] theorem State.setPoint_fab (s : State) (pt : Nat) (x : Point) : (s.setPoint pt x).fab = s.fab := rfl
@[simp] theorem State.setPoint_lanes (s : State) (pt : Nat) (x : Point) : (s.setPoint pt x).lanes = s.lanes := rfl
@[simp] theorem State.setPoint_mem (s : State) (pt : Nat) (x : Point) : (s.setPoint pt x).mem = s.mem := rfl
@[simp] theorem State.setPoint_mir (s : State) (pt : Nat) (x : Point) : (s.setPoint pt x).mir = s.mir := rfl
@[simp] theorem State.setPoint_flt (s : State) (pt : Nat) (x : Point) : (s.setPoint pt x).flt = s.flt := rfl
@[simp] theorem State.setPoint_fw (s : State) (pt : Nat) (x : Point) : (s.setPoint pt x).fw = s.fw := rfl
@[simp] theorem State.setPoint_pwr (s : State) (pt : Nat) (x : Point) : (s.setPoint pt x).pwr = s.pwr := rfl
@[simp] theorem State.setPoint_free (s : State) (pt : Nat) (x : Point) : (s.setPoint pt x).free = s.free := rfl
@[simp] theorem State.setPoint_pending (s : State) (pt : Nat) (x : Point) : (s.setPoint pt x).pending = s.pending := rfl

/-! ### setUnit -/

@[simp] theorem State.setUnit_now (s : State) (u : W32) (x : UnitSt) : (s.setUnit u x).now = s.now := rfl
@[simp] theorem State.setUnit_devStart (s : State) (u : W32) (x : UnitSt) : (s.setUnit u x).devStart = s.devStart := rfl
@[simp] theorem State.setUnit_fuses (s : State) (u : W32) (x : UnitSt) : (s.setUnit u x).fuses = s.fuses := rfl
@[simp] theorem State.setUnit_pins (s : State) (u : W32) (x : UnitSt) : (s.setUnit u x).pins = s.pins := rfl
@[simp] theorem State.setUnit_boot (s : State) (u : W32) (x : UnitSt) : (s.setUnit u x).boot = s.boot := rfl
@[simp] theorem State.setUnit_saf (s : State) (u : W32) (x : UnitSt) : (s.setUnit u x).saf = s.saf := rfl
@[simp] theorem State.setUnit_latches (s : State) (u : W32) (x : UnitSt) : (s.setUnit u x).latches = s.latches := rfl
@[simp] theorem State.setUnit_intr (s : State) (u : W32) (x : UnitSt) : (s.setUnit u x).intr = s.intr := rfl
@[simp] theorem State.setUnit_rings (s : State) (u : W32) (x : UnitSt) : (s.setUnit u x).rings = s.rings := rfl
@[simp] theorem State.setUnit_store (s : State) (u : W32) (x : UnitSt) : (s.setUnit u x).store = s.store := rfl
@[simp] theorem State.setUnit_out (s : State) (u : W32) (x : UnitSt) : (s.setUnit u x).out = s.out := rfl
@[simp] theorem State.setUnit_xlt (s : State) (u : W32) (x : UnitSt) : (s.setUnit u x).xlt = s.xlt := rfl
@[simp] theorem State.setUnit_iso (s : State) (u : W32) (x : UnitSt) : (s.setUnit u x).iso = s.iso := rfl
@[simp] theorem State.setUnit_qos (s : State) (u : W32) (x : UnitSt) : (s.setUnit u x).qos = s.qos := rfl
@[simp] theorem State.setUnit_churn (s : State) (u : W32) (x : UnitSt) : (s.setUnit u x).churn = s.churn := rfl
@[simp] theorem State.setUnit_sync (s : State) (u : W32) (x : UnitSt) : (s.setUnit u x).sync = s.sync := rfl
@[simp] theorem State.setUnit_work (s : State) (u : W32) (x : UnitSt) : (s.setUnit u x).work = s.work := rfl
@[simp] theorem State.setUnit_coh (s : State) (u : W32) (x : UnitSt) : (s.setUnit u x).coh = s.coh := rfl
@[simp] theorem State.setUnit_fab (s : State) (u : W32) (x : UnitSt) : (s.setUnit u x).fab = s.fab := rfl
@[simp] theorem State.setUnit_lanes (s : State) (u : W32) (x : UnitSt) : (s.setUnit u x).lanes = s.lanes := rfl
@[simp] theorem State.setUnit_mem (s : State) (u : W32) (x : UnitSt) : (s.setUnit u x).mem = s.mem := rfl
@[simp] theorem State.setUnit_mir (s : State) (u : W32) (x : UnitSt) : (s.setUnit u x).mir = s.mir := rfl
@[simp] theorem State.setUnit_fw (s : State) (u : W32) (x : UnitSt) : (s.setUnit u x).fw = s.fw := rfl
@[simp] theorem State.setUnit_pwr (s : State) (u : W32) (x : UnitSt) : (s.setUnit u x).pwr = s.pwr := rfl
@[simp] theorem State.setUnit_free (s : State) (u : W32) (x : UnitSt) : (s.setUnit u x).free = s.free := rfl
@[simp] theorem State.setUnit_pending (s : State) (u : W32) (x : UnitSt) : (s.setUnit u x).pending = s.pending := rfl

/-! ### setLanePort -/

@[simp] theorem State.setLanePort_now (s : State) (p : Nat) (x : PortLanes) : (s.setLanePort p x).now = s.now := rfl
@[simp] theorem State.setLanePort_devStart (s : State) (p : Nat) (x : PortLanes) : (s.setLanePort p x).devStart = s.devStart := rfl
@[simp] theorem State.setLanePort_fuses (s : State) (p : Nat) (x : PortLanes) : (s.setLanePort p x).fuses = s.fuses := rfl
@[simp] theorem State.setLanePort_pins (s : State) (p : Nat) (x : PortLanes) : (s.setLanePort p x).pins = s.pins := rfl
@[simp] theorem State.setLanePort_boot (s : State) (p : Nat) (x : PortLanes) : (s.setLanePort p x).boot = s.boot := rfl
@[simp] theorem State.setLanePort_saf (s : State) (p : Nat) (x : PortLanes) : (s.setLanePort p x).saf = s.saf := rfl
@[simp] theorem State.setLanePort_latches (s : State) (p : Nat) (x : PortLanes) : (s.setLanePort p x).latches = s.latches := rfl
@[simp] theorem State.setLanePort_intr (s : State) (p : Nat) (x : PortLanes) : (s.setLanePort p x).intr = s.intr := rfl
@[simp] theorem State.setLanePort_rings (s : State) (p : Nat) (x : PortLanes) : (s.setLanePort p x).rings = s.rings := rfl
@[simp] theorem State.setLanePort_store (s : State) (p : Nat) (x : PortLanes) : (s.setLanePort p x).store = s.store := rfl
@[simp] theorem State.setLanePort_out (s : State) (p : Nat) (x : PortLanes) : (s.setLanePort p x).out = s.out := rfl
@[simp] theorem State.setLanePort_xlt (s : State) (p : Nat) (x : PortLanes) : (s.setLanePort p x).xlt = s.xlt := rfl
@[simp] theorem State.setLanePort_iso (s : State) (p : Nat) (x : PortLanes) : (s.setLanePort p x).iso = s.iso := rfl
@[simp] theorem State.setLanePort_qos (s : State) (p : Nat) (x : PortLanes) : (s.setLanePort p x).qos = s.qos := rfl
@[simp] theorem State.setLanePort_churn (s : State) (p : Nat) (x : PortLanes) : (s.setLanePort p x).churn = s.churn := rfl
@[simp] theorem State.setLanePort_sync (s : State) (p : Nat) (x : PortLanes) : (s.setLanePort p x).sync = s.sync := rfl
@[simp] theorem State.setLanePort_work (s : State) (p : Nat) (x : PortLanes) : (s.setLanePort p x).work = s.work := rfl
@[simp] theorem State.setLanePort_coh (s : State) (p : Nat) (x : PortLanes) : (s.setLanePort p x).coh = s.coh := rfl
@[simp] theorem State.setLanePort_fab (s : State) (p : Nat) (x : PortLanes) : (s.setLanePort p x).fab = s.fab := rfl
@[simp] theorem State.setLanePort_mem (s : State) (p : Nat) (x : PortLanes) : (s.setLanePort p x).mem = s.mem := rfl
@[simp] theorem State.setLanePort_mir (s : State) (p : Nat) (x : PortLanes) : (s.setLanePort p x).mir = s.mir := rfl
@[simp] theorem State.setLanePort_flt (s : State) (p : Nat) (x : PortLanes) : (s.setLanePort p x).flt = s.flt := rfl
@[simp] theorem State.setLanePort_fw (s : State) (p : Nat) (x : PortLanes) : (s.setLanePort p x).fw = s.fw := rfl
@[simp] theorem State.setLanePort_pwr (s : State) (p : Nat) (x : PortLanes) : (s.setLanePort p x).pwr = s.pwr := rfl
@[simp] theorem State.setLanePort_free (s : State) (p : Nat) (x : PortLanes) : (s.setLanePort p x).free = s.free := rfl
@[simp] theorem State.setLanePort_pending (s : State) (p : Nat) (x : PortLanes) : (s.setLanePort p x).pending = s.pending := rfl

/-! ### setLink -/

@[simp] theorem State.setLink_now (s : State) (p : Nat) (x : Link) : (s.setLink p x).now = s.now := rfl
@[simp] theorem State.setLink_devStart (s : State) (p : Nat) (x : Link) : (s.setLink p x).devStart = s.devStart := rfl
@[simp] theorem State.setLink_fuses (s : State) (p : Nat) (x : Link) : (s.setLink p x).fuses = s.fuses := rfl
@[simp] theorem State.setLink_pins (s : State) (p : Nat) (x : Link) : (s.setLink p x).pins = s.pins := rfl
@[simp] theorem State.setLink_boot (s : State) (p : Nat) (x : Link) : (s.setLink p x).boot = s.boot := rfl
@[simp] theorem State.setLink_saf (s : State) (p : Nat) (x : Link) : (s.setLink p x).saf = s.saf := rfl
@[simp] theorem State.setLink_latches (s : State) (p : Nat) (x : Link) : (s.setLink p x).latches = s.latches := rfl
@[simp] theorem State.setLink_intr (s : State) (p : Nat) (x : Link) : (s.setLink p x).intr = s.intr := rfl
@[simp] theorem State.setLink_rings (s : State) (p : Nat) (x : Link) : (s.setLink p x).rings = s.rings := rfl
@[simp] theorem State.setLink_store (s : State) (p : Nat) (x : Link) : (s.setLink p x).store = s.store := rfl
@[simp] theorem State.setLink_out (s : State) (p : Nat) (x : Link) : (s.setLink p x).out = s.out := rfl
@[simp] theorem State.setLink_xlt (s : State) (p : Nat) (x : Link) : (s.setLink p x).xlt = s.xlt := rfl
@[simp] theorem State.setLink_iso (s : State) (p : Nat) (x : Link) : (s.setLink p x).iso = s.iso := rfl
@[simp] theorem State.setLink_qos (s : State) (p : Nat) (x : Link) : (s.setLink p x).qos = s.qos := rfl
@[simp] theorem State.setLink_churn (s : State) (p : Nat) (x : Link) : (s.setLink p x).churn = s.churn := rfl
@[simp] theorem State.setLink_sync (s : State) (p : Nat) (x : Link) : (s.setLink p x).sync = s.sync := rfl
@[simp] theorem State.setLink_work (s : State) (p : Nat) (x : Link) : (s.setLink p x).work = s.work := rfl
@[simp] theorem State.setLink_coh (s : State) (p : Nat) (x : Link) : (s.setLink p x).coh = s.coh := rfl
@[simp] theorem State.setLink_lanes (s : State) (p : Nat) (x : Link) : (s.setLink p x).lanes = s.lanes := rfl
@[simp] theorem State.setLink_mem (s : State) (p : Nat) (x : Link) : (s.setLink p x).mem = s.mem := rfl
@[simp] theorem State.setLink_mir (s : State) (p : Nat) (x : Link) : (s.setLink p x).mir = s.mir := rfl
@[simp] theorem State.setLink_flt (s : State) (p : Nat) (x : Link) : (s.setLink p x).flt = s.flt := rfl
@[simp] theorem State.setLink_fw (s : State) (p : Nat) (x : Link) : (s.setLink p x).fw = s.fw := rfl
@[simp] theorem State.setLink_pwr (s : State) (p : Nat) (x : Link) : (s.setLink p x).pwr = s.pwr := rfl
@[simp] theorem State.setLink_free (s : State) (p : Nat) (x : Link) : (s.setLink p x).free = s.free := rfl
@[simp] theorem State.setLink_pending (s : State) (p : Nat) (x : Link) : (s.setLink p x).pending = s.pending := rfl

/-! ### setChan -/

@[simp] theorem State.setChan_now (s : State) (c : Chan) (x : ChanSt) : (s.setChan c x).now = s.now := rfl
@[simp] theorem State.setChan_devStart (s : State) (c : Chan) (x : ChanSt) : (s.setChan c x).devStart = s.devStart := rfl
@[simp] theorem State.setChan_fuses (s : State) (c : Chan) (x : ChanSt) : (s.setChan c x).fuses = s.fuses := rfl
@[simp] theorem State.setChan_pins (s : State) (c : Chan) (x : ChanSt) : (s.setChan c x).pins = s.pins := rfl
@[simp] theorem State.setChan_boot (s : State) (c : Chan) (x : ChanSt) : (s.setChan c x).boot = s.boot := rfl
@[simp] theorem State.setChan_saf (s : State) (c : Chan) (x : ChanSt) : (s.setChan c x).saf = s.saf := rfl
@[simp] theorem State.setChan_latches (s : State) (c : Chan) (x : ChanSt) : (s.setChan c x).latches = s.latches := rfl
@[simp] theorem State.setChan_intr (s : State) (c : Chan) (x : ChanSt) : (s.setChan c x).intr = s.intr := rfl
@[simp] theorem State.setChan_rings (s : State) (c : Chan) (x : ChanSt) : (s.setChan c x).rings = s.rings := rfl
@[simp] theorem State.setChan_out (s : State) (c : Chan) (x : ChanSt) : (s.setChan c x).out = s.out := rfl
@[simp] theorem State.setChan_xlt (s : State) (c : Chan) (x : ChanSt) : (s.setChan c x).xlt = s.xlt := rfl
@[simp] theorem State.setChan_iso (s : State) (c : Chan) (x : ChanSt) : (s.setChan c x).iso = s.iso := rfl
@[simp] theorem State.setChan_qos (s : State) (c : Chan) (x : ChanSt) : (s.setChan c x).qos = s.qos := rfl
@[simp] theorem State.setChan_churn (s : State) (c : Chan) (x : ChanSt) : (s.setChan c x).churn = s.churn := rfl
@[simp] theorem State.setChan_sync (s : State) (c : Chan) (x : ChanSt) : (s.setChan c x).sync = s.sync := rfl
@[simp] theorem State.setChan_work (s : State) (c : Chan) (x : ChanSt) : (s.setChan c x).work = s.work := rfl
@[simp] theorem State.setChan_coh (s : State) (c : Chan) (x : ChanSt) : (s.setChan c x).coh = s.coh := rfl
@[simp] theorem State.setChan_fab (s : State) (c : Chan) (x : ChanSt) : (s.setChan c x).fab = s.fab := rfl
@[simp] theorem State.setChan_lanes (s : State) (c : Chan) (x : ChanSt) : (s.setChan c x).lanes = s.lanes := rfl
@[simp] theorem State.setChan_mem (s : State) (c : Chan) (x : ChanSt) : (s.setChan c x).mem = s.mem := rfl
@[simp] theorem State.setChan_mir (s : State) (c : Chan) (x : ChanSt) : (s.setChan c x).mir = s.mir := rfl
@[simp] theorem State.setChan_flt (s : State) (c : Chan) (x : ChanSt) : (s.setChan c x).flt = s.flt := rfl
@[simp] theorem State.setChan_fw (s : State) (c : Chan) (x : ChanSt) : (s.setChan c x).fw = s.fw := rfl
@[simp] theorem State.setChan_pwr (s : State) (c : Chan) (x : ChanSt) : (s.setChan c x).pwr = s.pwr := rfl
@[simp] theorem State.setChan_free (s : State) (c : Chan) (x : ChanSt) : (s.setChan c x).free = s.free := rfl
@[simp] theorem State.setChan_pending (s : State) (c : Chan) (x : ChanSt) : (s.setChan c x).pending = s.pending := rfl

/-! ### setCmd -/

@[simp] theorem State.setCmd_now (s : State) (k : Nat) (c : Cmd) : (s.setCmd k c).now = s.now := rfl
@[simp] theorem State.setCmd_devStart (s : State) (k : Nat) (c : Cmd) : (s.setCmd k c).devStart = s.devStart := rfl
@[simp] theorem State.setCmd_fuses (s : State) (k : Nat) (c : Cmd) : (s.setCmd k c).fuses = s.fuses := rfl
@[simp] theorem State.setCmd_pins (s : State) (k : Nat) (c : Cmd) : (s.setCmd k c).pins = s.pins := rfl
@[simp] theorem State.setCmd_boot (s : State) (k : Nat) (c : Cmd) : (s.setCmd k c).boot = s.boot := rfl
@[simp] theorem State.setCmd_saf (s : State) (k : Nat) (c : Cmd) : (s.setCmd k c).saf = s.saf := rfl
@[simp] theorem State.setCmd_latches (s : State) (k : Nat) (c : Cmd) : (s.setCmd k c).latches = s.latches := rfl
@[simp] theorem State.setCmd_intr (s : State) (k : Nat) (c : Cmd) : (s.setCmd k c).intr = s.intr := rfl
@[simp] theorem State.setCmd_rings (s : State) (k : Nat) (c : Cmd) : (s.setCmd k c).rings = s.rings := rfl
@[simp] theorem State.setCmd_out (s : State) (k : Nat) (c : Cmd) : (s.setCmd k c).out = s.out := rfl
@[simp] theorem State.setCmd_xlt (s : State) (k : Nat) (c : Cmd) : (s.setCmd k c).xlt = s.xlt := rfl
@[simp] theorem State.setCmd_iso (s : State) (k : Nat) (c : Cmd) : (s.setCmd k c).iso = s.iso := rfl
@[simp] theorem State.setCmd_qos (s : State) (k : Nat) (c : Cmd) : (s.setCmd k c).qos = s.qos := rfl
@[simp] theorem State.setCmd_churn (s : State) (k : Nat) (c : Cmd) : (s.setCmd k c).churn = s.churn := rfl
@[simp] theorem State.setCmd_sync (s : State) (k : Nat) (c : Cmd) : (s.setCmd k c).sync = s.sync := rfl
@[simp] theorem State.setCmd_work (s : State) (k : Nat) (c : Cmd) : (s.setCmd k c).work = s.work := rfl
@[simp] theorem State.setCmd_coh (s : State) (k : Nat) (c : Cmd) : (s.setCmd k c).coh = s.coh := rfl
@[simp] theorem State.setCmd_fab (s : State) (k : Nat) (c : Cmd) : (s.setCmd k c).fab = s.fab := rfl
@[simp] theorem State.setCmd_lanes (s : State) (k : Nat) (c : Cmd) : (s.setCmd k c).lanes = s.lanes := rfl
@[simp] theorem State.setCmd_mem (s : State) (k : Nat) (c : Cmd) : (s.setCmd k c).mem = s.mem := rfl
@[simp] theorem State.setCmd_mir (s : State) (k : Nat) (c : Cmd) : (s.setCmd k c).mir = s.mir := rfl
@[simp] theorem State.setCmd_flt (s : State) (k : Nat) (c : Cmd) : (s.setCmd k c).flt = s.flt := rfl
@[simp] theorem State.setCmd_fw (s : State) (k : Nat) (c : Cmd) : (s.setCmd k c).fw = s.fw := rfl
@[simp] theorem State.setCmd_pwr (s : State) (k : Nat) (c : Cmd) : (s.setCmd k c).pwr = s.pwr := rfl
@[simp] theorem State.setCmd_free (s : State) (k : Nat) (c : Cmd) : (s.setCmd k c).free = s.free := rfl
@[simp] theorem State.setCmd_pending (s : State) (k : Nat) (c : Cmd) : (s.setCmd k c).pending = s.pending := rfl

/-! ### delCmd -/

@[simp] theorem State.delCmd_now (s : State) (k : Nat) : (s.delCmd k).now = s.now := rfl
@[simp] theorem State.delCmd_devStart (s : State) (k : Nat) : (s.delCmd k).devStart = s.devStart := rfl
@[simp] theorem State.delCmd_fuses (s : State) (k : Nat) : (s.delCmd k).fuses = s.fuses := rfl
@[simp] theorem State.delCmd_pins (s : State) (k : Nat) : (s.delCmd k).pins = s.pins := rfl
@[simp] theorem State.delCmd_boot (s : State) (k : Nat) : (s.delCmd k).boot = s.boot := rfl
@[simp] theorem State.delCmd_saf (s : State) (k : Nat) : (s.delCmd k).saf = s.saf := rfl
@[simp] theorem State.delCmd_latches (s : State) (k : Nat) : (s.delCmd k).latches = s.latches := rfl
@[simp] theorem State.delCmd_intr (s : State) (k : Nat) : (s.delCmd k).intr = s.intr := rfl
@[simp] theorem State.delCmd_rings (s : State) (k : Nat) : (s.delCmd k).rings = s.rings := rfl
@[simp] theorem State.delCmd_out (s : State) (k : Nat) : (s.delCmd k).out = s.out := rfl
@[simp] theorem State.delCmd_xlt (s : State) (k : Nat) : (s.delCmd k).xlt = s.xlt := rfl
@[simp] theorem State.delCmd_iso (s : State) (k : Nat) : (s.delCmd k).iso = s.iso := rfl
@[simp] theorem State.delCmd_qos (s : State) (k : Nat) : (s.delCmd k).qos = s.qos := rfl
@[simp] theorem State.delCmd_churn (s : State) (k : Nat) : (s.delCmd k).churn = s.churn := rfl
@[simp] theorem State.delCmd_sync (s : State) (k : Nat) : (s.delCmd k).sync = s.sync := rfl
@[simp] theorem State.delCmd_work (s : State) (k : Nat) : (s.delCmd k).work = s.work := rfl
@[simp] theorem State.delCmd_coh (s : State) (k : Nat) : (s.delCmd k).coh = s.coh := rfl
@[simp] theorem State.delCmd_fab (s : State) (k : Nat) : (s.delCmd k).fab = s.fab := rfl
@[simp] theorem State.delCmd_lanes (s : State) (k : Nat) : (s.delCmd k).lanes = s.lanes := rfl
@[simp] theorem State.delCmd_mem (s : State) (k : Nat) : (s.delCmd k).mem = s.mem := rfl
@[simp] theorem State.delCmd_mir (s : State) (k : Nat) : (s.delCmd k).mir = s.mir := rfl
@[simp] theorem State.delCmd_flt (s : State) (k : Nat) : (s.delCmd k).flt = s.flt := rfl
@[simp] theorem State.delCmd_fw (s : State) (k : Nat) : (s.delCmd k).fw = s.fw := rfl
@[simp] theorem State.delCmd_pwr (s : State) (k : Nat) : (s.delCmd k).pwr = s.pwr := rfl
@[simp] theorem State.delCmd_free (s : State) (k : Nat) : (s.delCmd k).free = s.free := rfl
@[simp] theorem State.delCmd_pending (s : State) (k : Nat) : (s.delCmd k).pending = s.pending := rfl

/-! ### send -/

@[simp] theorem State.send_now (s : State) (o : Out) : (s.send o).now = s.now := rfl
@[simp] theorem State.send_devStart (s : State) (o : Out) : (s.send o).devStart = s.devStart := rfl
@[simp] theorem State.send_fuses (s : State) (o : Out) : (s.send o).fuses = s.fuses := rfl
@[simp] theorem State.send_pins (s : State) (o : Out) : (s.send o).pins = s.pins := rfl
@[simp] theorem State.send_boot (s : State) (o : Out) : (s.send o).boot = s.boot := rfl
@[simp] theorem State.send_saf (s : State) (o : Out) : (s.send o).saf = s.saf := rfl
@[simp] theorem State.send_latches (s : State) (o : Out) : (s.send o).latches = s.latches := rfl
@[simp] theorem State.send_intr (s : State) (o : Out) : (s.send o).intr = s.intr := rfl
@[simp] theorem State.send_rings (s : State) (o : Out) : (s.send o).rings = s.rings := rfl
@[simp] theorem State.send_store (s : State) (o : Out) : (s.send o).store = s.store := rfl
@[simp] theorem State.send_xlt (s : State) (o : Out) : (s.send o).xlt = s.xlt := rfl
@[simp] theorem State.send_iso (s : State) (o : Out) : (s.send o).iso = s.iso := rfl
@[simp] theorem State.send_qos (s : State) (o : Out) : (s.send o).qos = s.qos := rfl
@[simp] theorem State.send_churn (s : State) (o : Out) : (s.send o).churn = s.churn := rfl
@[simp] theorem State.send_sync (s : State) (o : Out) : (s.send o).sync = s.sync := rfl
@[simp] theorem State.send_work (s : State) (o : Out) : (s.send o).work = s.work := rfl
@[simp] theorem State.send_coh (s : State) (o : Out) : (s.send o).coh = s.coh := rfl
@[simp] theorem State.send_fab (s : State) (o : Out) : (s.send o).fab = s.fab := rfl
@[simp] theorem State.send_lanes (s : State) (o : Out) : (s.send o).lanes = s.lanes := rfl
@[simp] theorem State.send_mem (s : State) (o : Out) : (s.send o).mem = s.mem := rfl
@[simp] theorem State.send_mir (s : State) (o : Out) : (s.send o).mir = s.mir := rfl
@[simp] theorem State.send_flt (s : State) (o : Out) : (s.send o).flt = s.flt := rfl
@[simp] theorem State.send_fw (s : State) (o : Out) : (s.send o).fw = s.fw := rfl
@[simp] theorem State.send_pwr (s : State) (o : Out) : (s.send o).pwr = s.pwr := rfl
@[simp] theorem State.send_free (s : State) (o : Out) : (s.send o).free = s.free := rfl
@[simp] theorem State.send_pending (s : State) (o : Out) : (s.send o).pending = s.pending := rfl

/-! ### bump -/

@[simp] theorem State.bump_now (s : State) : s.bump.now = s.now := rfl
@[simp] theorem State.bump_devStart (s : State) : s.bump.devStart = s.devStart := rfl
@[simp] theorem State.bump_fuses (s : State) : s.bump.fuses = s.fuses := rfl
@[simp] theorem State.bump_pins (s : State) : s.bump.pins = s.pins := rfl
@[simp] theorem State.bump_boot (s : State) : s.bump.boot = s.boot := rfl
@[simp] theorem State.bump_saf (s : State) : s.bump.saf = s.saf := rfl
@[simp] theorem State.bump_latches (s : State) : s.bump.latches = s.latches := rfl
@[simp] theorem State.bump_intr (s : State) : s.bump.intr = s.intr := rfl
@[simp] theorem State.bump_rings (s : State) : s.bump.rings = s.rings := rfl
@[simp] theorem State.bump_store (s : State) : s.bump.store = s.store := rfl
@[simp] theorem State.bump_out (s : State) : s.bump.out = s.out := rfl
@[simp] theorem State.bump_xlt (s : State) : s.bump.xlt = s.xlt := rfl
@[simp] theorem State.bump_iso (s : State) : s.bump.iso = s.iso := rfl
@[simp] theorem State.bump_qos (s : State) : s.bump.qos = s.qos := rfl
@[simp] theorem State.bump_churn (s : State) : s.bump.churn = s.churn := rfl
@[simp] theorem State.bump_sync (s : State) : s.bump.sync = s.sync := rfl
@[simp] theorem State.bump_work (s : State) : s.bump.work = s.work := rfl
@[simp] theorem State.bump_coh (s : State) : s.bump.coh = s.coh := rfl
@[simp] theorem State.bump_fab (s : State) : s.bump.fab = s.fab := rfl
@[simp] theorem State.bump_lanes (s : State) : s.bump.lanes = s.lanes := rfl
@[simp] theorem State.bump_mem (s : State) : s.bump.mem = s.mem := rfl
@[simp] theorem State.bump_mir (s : State) : s.bump.mir = s.mir := rfl
@[simp] theorem State.bump_flt (s : State) : s.bump.flt = s.flt := rfl
@[simp] theorem State.bump_fw (s : State) : s.bump.fw = s.fw := rfl
@[simp] theorem State.bump_pwr (s : State) : s.bump.pwr = s.pwr := rfl
@[simp] theorem State.bump_pending (s : State) : s.bump.pending = s.pending := rfl

/-! ### hostWrite -/

@[simp] theorem State.hostWrite_now (s : State) (a : Nat) (bs : List Byte) : (s.hostWrite a bs).now = s.now := rfl
@[simp] theorem State.hostWrite_devStart (s : State) (a : Nat) (bs : List Byte) : (s.hostWrite a bs).devStart = s.devStart := rfl
@[simp] theorem State.hostWrite_fuses (s : State) (a : Nat) (bs : List Byte) : (s.hostWrite a bs).fuses = s.fuses := rfl
@[simp] theorem State.hostWrite_pins (s : State) (a : Nat) (bs : List Byte) : (s.hostWrite a bs).pins = s.pins := rfl
@[simp] theorem State.hostWrite_boot (s : State) (a : Nat) (bs : List Byte) : (s.hostWrite a bs).boot = s.boot := rfl
@[simp] theorem State.hostWrite_saf (s : State) (a : Nat) (bs : List Byte) : (s.hostWrite a bs).saf = s.saf := rfl
@[simp] theorem State.hostWrite_latches (s : State) (a : Nat) (bs : List Byte) : (s.hostWrite a bs).latches = s.latches := rfl
@[simp] theorem State.hostWrite_intr (s : State) (a : Nat) (bs : List Byte) : (s.hostWrite a bs).intr = s.intr := rfl
@[simp] theorem State.hostWrite_rings (s : State) (a : Nat) (bs : List Byte) : (s.hostWrite a bs).rings = s.rings := rfl
@[simp] theorem State.hostWrite_store (s : State) (a : Nat) (bs : List Byte) : (s.hostWrite a bs).store = s.store := rfl
@[simp] theorem State.hostWrite_out (s : State) (a : Nat) (bs : List Byte) : (s.hostWrite a bs).out = s.out := rfl
@[simp] theorem State.hostWrite_xlt (s : State) (a : Nat) (bs : List Byte) : (s.hostWrite a bs).xlt = s.xlt := rfl
@[simp] theorem State.hostWrite_iso (s : State) (a : Nat) (bs : List Byte) : (s.hostWrite a bs).iso = s.iso := rfl
@[simp] theorem State.hostWrite_qos (s : State) (a : Nat) (bs : List Byte) : (s.hostWrite a bs).qos = s.qos := rfl
@[simp] theorem State.hostWrite_churn (s : State) (a : Nat) (bs : List Byte) : (s.hostWrite a bs).churn = s.churn := rfl
@[simp] theorem State.hostWrite_sync (s : State) (a : Nat) (bs : List Byte) : (s.hostWrite a bs).sync = s.sync := rfl
@[simp] theorem State.hostWrite_work (s : State) (a : Nat) (bs : List Byte) : (s.hostWrite a bs).work = s.work := rfl
@[simp] theorem State.hostWrite_coh (s : State) (a : Nat) (bs : List Byte) : (s.hostWrite a bs).coh = s.coh := rfl
@[simp] theorem State.hostWrite_fab (s : State) (a : Nat) (bs : List Byte) : (s.hostWrite a bs).fab = s.fab := rfl
@[simp] theorem State.hostWrite_lanes (s : State) (a : Nat) (bs : List Byte) : (s.hostWrite a bs).lanes = s.lanes := rfl
@[simp] theorem State.hostWrite_mir (s : State) (a : Nat) (bs : List Byte) : (s.hostWrite a bs).mir = s.mir := rfl
@[simp] theorem State.hostWrite_flt (s : State) (a : Nat) (bs : List Byte) : (s.hostWrite a bs).flt = s.flt := rfl
@[simp] theorem State.hostWrite_fw (s : State) (a : Nat) (bs : List Byte) : (s.hostWrite a bs).fw = s.fw := rfl
@[simp] theorem State.hostWrite_pwr (s : State) (a : Nat) (bs : List Byte) : (s.hostWrite a bs).pwr = s.pwr := rfl
@[simp] theorem State.hostWrite_free (s : State) (a : Nat) (bs : List Byte) : (s.hostWrite a bs).free = s.free := rfl
@[simp] theorem State.hostWrite_pending (s : State) (a : Nat) (bs : List Byte) : (s.hostWrite a bs).pending = s.pending := rfl

/-! ### intEval -/

@[simp] theorem intEval_now (s : State) : (intEval s).now = s.now := rfl
@[simp] theorem intEval_devStart (s : State) : (intEval s).devStart = s.devStart := rfl
@[simp] theorem intEval_fuses (s : State) : (intEval s).fuses = s.fuses := rfl
@[simp] theorem intEval_boot (s : State) : (intEval s).boot = s.boot := rfl
@[simp] theorem intEval_saf (s : State) : (intEval s).saf = s.saf := rfl
@[simp] theorem intEval_latches (s : State) : (intEval s).latches = s.latches := rfl
@[simp] theorem intEval_rings (s : State) : (intEval s).rings = s.rings := rfl
@[simp] theorem intEval_store (s : State) : (intEval s).store = s.store := rfl
@[simp] theorem intEval_xlt (s : State) : (intEval s).xlt = s.xlt := rfl
@[simp] theorem intEval_iso (s : State) : (intEval s).iso = s.iso := rfl
@[simp] theorem intEval_qos (s : State) : (intEval s).qos = s.qos := rfl
@[simp] theorem intEval_churn (s : State) : (intEval s).churn = s.churn := rfl
@[simp] theorem intEval_sync (s : State) : (intEval s).sync = s.sync := rfl
@[simp] theorem intEval_work (s : State) : (intEval s).work = s.work := rfl
@[simp] theorem intEval_coh (s : State) : (intEval s).coh = s.coh := rfl
@[simp] theorem intEval_fab (s : State) : (intEval s).fab = s.fab := rfl
@[simp] theorem intEval_lanes (s : State) : (intEval s).lanes = s.lanes := rfl
@[simp] theorem intEval_mem (s : State) : (intEval s).mem = s.mem := rfl
@[simp] theorem intEval_mir (s : State) : (intEval s).mir = s.mir := rfl
@[simp] theorem intEval_flt (s : State) : (intEval s).flt = s.flt := rfl
@[simp] theorem intEval_fw (s : State) : (intEval s).fw = s.fw := rfl
@[simp] theorem intEval_pwr (s : State) : (intEval s).pwr = s.pwr := rfl
@[simp] theorem intEval_free (s : State) : (intEval s).free = s.free := rfl
@[simp] theorem intEval_pending (s : State) : (intEval s).pending = s.pending := rfl

/-! ### Parts of a field that an update leaves alone -/

@[simp] theorem State.setTile_clus (s : State) (t : Nat) (x : Tile) : (s.setTile t x).churn.clus = s.churn.clus := rfl
@[simp] theorem State.setTile_progs (s : State) (t : Nat) (x : Tile) : (s.setTile t x).churn.progs = s.churn.progs := rfl
@[simp] theorem State.setClu_tiles (s : State) (c : Nat) (x : Clu) : (s.setClu c x).churn.tiles = s.churn.tiles := rfl
@[simp] theorem State.setClu_progs (s : State) (c : Nat) (x : Clu) : (s.setClu c x).churn.progs = s.churn.progs := rfl
@[simp] theorem State.setPart_bytes (s : State) (p : Nat) (x : Part) : (s.setPart p x).mem.bytes = s.mem.bytes := rfl
@[simp] theorem State.setPart_err (s : State) (p : Nat) (x : Part) : (s.setPart p x).mem.err = s.mem.err := rfl
@[simp] theorem State.setPart_host (s : State) (p : Nat) (x : Part) : (s.setPart p x).mem.host = s.mem.host := rfl
@[simp] theorem State.setCmd_chans (s : State) (k : Nat) (c : Cmd) : (s.setCmd k c).store.chans = s.store.chans := rfl
@[simp] theorem State.setCmd_refusals (s : State) (k : Nat) (c : Cmd) : (s.setCmd k c).store.refusals = s.store.refusals := rfl
@[simp] theorem State.setChan_cmds (s : State) (c : Chan) (x : ChanSt) : (s.setChan c x).store.cmds = s.store.cmds := rfl
@[simp] theorem State.hostWrite_bytes (s : State) (a : Nat) (bs : List Byte) : (s.hostWrite a bs).mem.bytes = s.mem.bytes := rfl

/-! ### Instances: what is written is read, and no other instance changes -/

@[simp] theorem State.ring_setRing (s : State) (n : Nat) (x : Ring) : (s.setRing n x).ring n = x := by simp [State.ring, State.setRing]
theorem State.ring_setRing_other (s : State) (n m : Nat) (x : Ring) (h : m ≠ n) : (s.setRing n x).ring m = s.ring m := by
  simp [State.ring, State.setRing, tabGet_tabSet_other _ _ _ _ _ h]
@[simp] theorem State.part_setPart (s : State) (p : Nat) (x : Part) : (s.setPart p x).part p = x := by simp [State.part, State.setPart]
theorem State.part_setPart_other (s : State) (p q : Nat) (x : Part) (h : q ≠ p) : (s.setPart p x).part q = s.part q := by
  simp [State.part, State.setPart, tabGet_tabSet_other _ _ _ _ _ h]
@[simp] theorem State.tile_setTile (s : State) (t : Nat) (x : Tile) : (s.setTile t x).tile t = x := by simp [State.tile, State.setTile]
theorem State.tile_setTile_other (s : State) (t u : Nat) (x : Tile) (h : u ≠ t) : (s.setTile t x).tile u = s.tile u := by
  simp [State.tile, State.setTile, tabGet_tabSet_other _ _ _ _ _ h]
@[simp] theorem State.obj_setObj (s : State) (i : Nat) (x : SyncObj) : (s.setObj i x).obj i = x := by simp [State.obj, State.setObj]
theorem State.obj_setObj_other (s : State) (i j : Nat) (x : SyncObj) (h : j ≠ i) : (s.setObj i x).obj j = s.obj j := by
  simp [State.obj, State.setObj, tabGet_tabSet_other _ _ _ _ _ h]
@[simp] theorem State.win_setWin (s : State) (w : Nat) (x : Window) : (s.setWin w x).win w = x := by simp [State.win, State.setWin]
theorem State.win_setWin_other (s : State) (w v : Nat) (x : Window) (h : v ≠ w) : (s.setWin w x).win v = s.win v := by
  simp [State.win, State.setWin, tabGet_tabSet_other _ _ _ _ _ h]
@[simp] theorem State.meter_setMeter (s : State) (m : Nat) (x : Meter) : (s.setMeter m x).meter m = x := by
  simp [State.meter, State.setMeter]
@[simp] theorem State.unit_setUnit (s : State) (u : W32) (x : UnitSt) : (s.setUnit u x).unit u = x := by simp [State.unit, State.setUnit]
theorem State.unit_setUnit_other (s : State) (u v : W32) (x : UnitSt) (h : v ≠ u) : (s.setUnit u x).unit v = s.unit v := by
  have h' : v.toNat ≠ u.toNat := fun e => h (BitVec.eq_of_toNat_eq e)
  simp [State.unit, State.setUnit, tabGet_tabSet_other _ _ _ _ _ h']
@[simp] theorem State.lanePort_setLanePort (s : State) (p : Nat) (x : PortLanes) : (s.setLanePort p x).lanePort p = x := by
  simp [State.lanePort, State.setLanePort]
@[simp] theorem State.link_setLink (s : State) (p : Nat) (x : Link) : (s.setLink p x).link p = x := by simp [State.link, State.setLink]
theorem State.link_setLink_other (s : State) (p q : Nat) (x : Link) (h : q ≠ p) : (s.setLink p x).link q = s.link q := by
  unfold State.link State.setLink tabSet
  split
  · exact tabGet_tabDel_other _ _ _ _ h
  · exact tabGet_tabIns_other _ _ _ _ _ h
@[simp] theorem State.chan_setChan (s : State) (c : Chan) (x : ChanSt) : (s.setChan c x).chan c = x := by simp [State.chan, State.setChan]
@[simp] theorem State.cmd_setCmd (s : State) (k : Nat) (c : Cmd) : (s.setCmd k c).cmd k = some c := by simp [State.cmd, State.setCmd]
theorem State.cmd_setCmd_other (s : State) (k j : Nat) (c : Cmd) (h : j ≠ k) : (s.setCmd k c).cmd j = s.cmd j := by
  simp [State.cmd, State.setCmd, tabFind_tabIns_other _ _ _ _ h]
@[simp] theorem State.cmd_delCmd (s : State) (k : Nat) : (s.delCmd k).cmd k = none := by simp [State.cmd, State.delCmd]
theorem State.cmd_delCmd_other (s : State) (k j : Nat) (h : j ≠ k) : (s.delCmd k).cmd j = s.cmd j := by
  simp [State.cmd, State.delCmd, tabFind_tabDel_other _ _ _ h]

end Sys2Proof.Machine
end

