-- ==== Sys2Proof/Laws/Entry.lean ====
section
/-! SUPPORT. What the arrival of a command packet that passes its checks comes to (R52, R53, R58, R62, R65). -/
namespace Sys2Proof.Machine

/-- What acceptance does with a command that nothing holds: a granular one stands ready, another that none precedes acts, and a rate is
told first. -/
theorem acceptCmd_unheld (s : State) (sp : OpSpec) (x : Cmd) (h : unheld s x = true) :
    acceptCmd s sp x =
      (if (sp.total (taken s x).2 (taken s x).1).isSome || !goesFirst s x
        then sendAccepted (readyState s x true) (taken s x).1
        else sp.act (toldState s sp x) (storeSlot s x)) := by
  have h' : waitsOf (taken s x).2 (taken s x).1.raw = .met ∧ fenced (taken s x).2 (taken s x).1 = false
      ∧ tokenOk (taken s x).2 (taken s x).1 = true ∧ heldOn (taken s x).2 (taken s x).1 = false := by
    simpa [unheld, and_assoc] using h
  obtain ⟨h1, h2, h3, h4⟩ := h'
  have e : acceptCmd s sp x = (
    if (waitsOf (taken s x).2 (taken s x).1.raw != .met || fenced (taken s x).2 (taken s x).1 || !tokenOk (taken s x).2 (taken s x).1) then
      settle (if ((sp.charge (taken s x).1).isSome || opcodeOf (taken s x).1.raw == 0x0100)
        then (storeCmd (taken s x).2 { (taken s x).1 with told := !((sp.charge (taken s x).1).isSome || opcodeOf (taken s x).1.raw == 0x0100) }).2
        else sendAccepted (storeCmd (taken s x).2 { (taken s x).1 with told := !((sp.charge (taken s x).1).isSome || opcodeOf (taken s x).1.raw == 0x0100) }).2 (taken s x).1)
    else if heldOn (taken s x).2 (taken s x).1 then
      (if ((sp.charge (taken s x).1).isSome || opcodeOf (taken s x).1.raw == 0x0100)
        then (storeCmd (taken s x).2 { (taken s x).1 with st := .heldUnit, startedAt := (taken s x).2.now, told := !((sp.charge (taken s x).1).isSome || opcodeOf (taken s x).1.raw == 0x0100) }).2
        else sendAccepted (storeCmd (taken s x).2 { (taken s x).1 with st := .heldUnit, startedAt := (taken s x).2.now, told := !((sp.charge (taken s x).1).isSome || opcodeOf (taken s x).1.raw == 0x0100) }).2 (taken s x).1)
    else
      (let stands := (sp.total (taken s x).2 (taken s x).1).isSome || earlierReady (taken s x).2 (tabGap (taken s x).2.store.cmds 0) (taken s x).1
          || ((taken s x).2.pwr.hold && (taken s x).1.loads != [])
       let tell := stands || hasRate s sp x
       let u := if tell then sendAccepted (readyState s x tell) (taken s x).1 else readyState s x tell
       if stands then u else sp.act u (storeSlot s x))) := by
    rfl
  rw [e]
  rw [if_neg (by simp [h1, h2, h3]), if_neg (by simp [h4])]
  dsimp only [goesFirst, toldState]
  rcases Bool.eq_false_or_eq_true (sp.total (taken s x).2 (taken s x).1).isSome with a | a
    <;> rcases Bool.eq_false_or_eq_true (earlierReady (taken s x).2 (tabGap (taken s x).2.store.cmds 0) (taken s x).1) with b | b
    <;> rcases Bool.eq_false_or_eq_true ((taken s x).2.pwr.hold && (taken s x).1.loads != []) with c | c
    <;> rcases Bool.eq_false_or_eq_true (hasRate s sp x) with d | d <;> simp [a, b, c, d]

/-- The arrival of a packet that passes its checks and is not metered at entry. -/
theorem receive_passes (s : State) (sp : OpSpec) (c : CmdIn) (x : Cmd) (s1 : State)
    (h : passes s sp c x s1) (hc : sp.charge x = none) : receive s (some sp) c = acceptCmd s1 sp x := by
  obtain ⟨ht, ⟨hr, hpo⟩, he⟩ := h
  simp [takesCommands] at ht
  obtain ⟨⟨hs, hf⟩, hp⟩ := ht
  unfold receive
  simp [hs, hf, hp, he, hc, hr, hpo]

/-- The same of a granular command that nothing holds: it stands ready, and ACCEPTED is sent. -/
theorem receive_granular (s : State) (sp : OpSpec) (c : CmdIn) (x : Cmd) (s1 : State)
    (h : passes s sp c x s1) (hc : sp.charge x = none) (hu : unheld s1 x = true)
    (hg : (sp.total (taken s1 x).2 (taken s1 x).1).isSome = true) :
    receive s (some sp) c = sendAccepted (readyState s1 x true) (taken s1 x).1 := by
  rw [receive_passes s sp c x s1 h hc, acceptCmd_unheld s1 sp x hu, hg, Bool.true_or, if_pos rfl]

/-- What the arrival of a packet comes to that is not metered, not granular and not held: it acts at once. -/
theorem receive_told (s : State) (sp : OpSpec) (c : CmdIn) (x : Cmd) (s1 : State)
    (h : passes s sp c x s1) (hc : sp.charge x = none) (hu : unheld s1 x = true) (hf : goesFirst s1 x = true)
    (hg : sp.total (taken s1 x).2 (taken s1 x).1 = none) :
    receive s (some sp) c = sp.act (toldState s1 sp x) (storeSlot s1 x) := by
  rw [receive_passes s sp c x s1 h hc, acceptCmd_unheld s1 sp x hu]
  simp [hg, hf]

/-- The command stands in its slot, as it is ready. -/
@[simp] theorem readyState_cmd (s : State) (x : Cmd) (b : Bool) : (readyState s x b).cmd (storeSlot s x) = some (readyCmd s x b) := by
  simp [readyState, State.cmd]

/-- A reply changes no command of the store. -/
@[simp] theorem sendPkt_cmds (s : State) (p : Pkt) : (s.sendPkt p).store = s.store := by
  unfold State.sendPkt
  split <;> simp
@[simp] theorem putUnit_store (s : State) (h kind a r : Nat) (bs : List Byte) : (putUnit s h kind a r bs).store = s.store := by
  unfold putUnit
  split <;> simp
@[simp] theorem ringReply_cmds (s : State) (n : Nat) (bs : List Byte) (b : Bool) : (ringReply s n bs b).store = s.store := by
  unfold ringReply
  dsimp only
  repeat' split
  all_goals simp_all [State.send]
@[simp] theorem issueReply_cmds (s : State) (rt : ReplyTo) (status load : Nat) (sat final : Bool) (cr : Credit)
    (progress result : Nat) (data : List Byte) :
    (issueReply s rt status load sat final cr progress result data).store.cmds = s.store.cmds := by
  unfold issueReply
  dsimp only
  repeat' split
  all_goals simp [State.setChan]
@[simp] theorem sendAccepted_cmds (s : State) (c : Cmd) : (sendAccepted s c).store.cmds = s.store.cmds := by
  unfold sendAccepted
  dsimp only
  split <;> simp
@[simp] theorem toldState_cmd (s : State) (sp : OpSpec) (x : Cmd) :
    (toldState s sp x).cmd (storeSlot s x) = some (readyCmd s x (hasRate s sp x)) := by
  have e : ∀ b, (readyState s x b).store.cmds = tabIns (taken s x).2.store.cmds (storeSlot s x) (readyCmd s x b) := fun _ => rfl
  unfold toldState State.cmd
  split <;> simp_all

/-- The row fixes the opcode of its packet. -/
theorem opcodeOf_withOpcode (c : CmdIn) (op : Nat) (h : op < 65536) : opcodeOf (withOpcode c op).raw = op := by
  have e : ((c.raw &&& ~~~(0xFFFF : W512)) ||| BitVec.ofNat 512 op).setWidth 16 = BitVec.ofNat 16 op := by
    ext i hi
    have h1 : i < 512 := by omega
    have h2 : (0xFFFF : W512).getLsbD i = true := by
      rw [show (0xFFFF : W512) = BitVec.ofNat 512 (2 ^ 16 - 1) from rfl, BitVec.getLsbD_ofNat, Nat.testBit_two_pow_sub_one]
      simp [h1, hi]
    simp only [BitVec.getElem_setWidth, BitVec.getLsbD_or, BitVec.getLsbD_and, BitVec.getLsbD_not, h2]
    simp [h1, hi, ← BitVec.getLsbD_eq_getElem, BitVec.getLsbD_ofNat]
  have e2 := congrArg BitVec.toNat e
  simp only [BitVec.toNat_setWidth, BitVec.toNat_ofNat] at e2
  have e4 : ∀ w : W512, opcodeOf w = w.toNat % 2 ^ 16 := by
    intro w
    unfold opcodeOf cmdB
    simp only [Nat.reducePow, Nat.div_one]
  have e5 : (withOpcode c op).raw = (c.raw &&& ~~~(0xFFFF : W512)) ||| BitVec.ofNat 512 op := rfl
  rw [e4, e5, e2]
  exact Nat.mod_eq_of_lt h

/-- What entry passes is the packet that arrived. -/
theorem entryChecks_pass (s : State) (sp : OpSpec) (c : CmdIn) (x : Cmd) (s1 : State)
    (h : entryChecks s (some sp) c = (.pass x, s1)) :
    x.raw = c.raw ∧ x.chan = c.chan ∧ x.txn = c.txn ∧ x.data = c.data ∧ x.mirSeq = 0 := by
  have admits_pass : ∀ (t : State) (y : Cmd), entryAdmit t sp y = .pass x →
      x.raw = y.raw ∧ x.chan = y.chan ∧ x.txn = y.txn ∧ x.data = y.data ∧ x.mirSeq = y.mirSeq := by
    intro t y hy
    unfold entryAdmit at hy
    dsimp only at hy
    repeat' split at hy
    all_goals first | contradiction | (cases hy; simp)
  have key : ∀ (t u : State) (y : Cmd), entryRest t sp c y = (.pass x, u) →
      x.raw = y.raw ∧ x.chan = y.chan ∧ x.txn = y.txn ∧ x.data = y.data ∧ x.mirSeq = y.mirSeq := by
    intro t u y hy
    unfold entryRest at hy
    dsimp only at hy
    repeat' split at hy
    all_goals (injection hy with hy1 hy2; first | contradiction | exact admits_pass _ _ hy1)
  unfold entryChecks at h
  dsimp only at h
  repeat' split at h
  all_goals first | contradiction | skip
  all_goals first | (obtain ⟨a, b, d, e, f⟩ := key _ _ _ h; exact ⟨a, b, d, e, f⟩) | (injection h with h1 h2; contradiction)

@[simp] theorem taken_raw (s : State) (x : Cmd) : (taken s x).1.raw = x.raw := by
  unfold taken
  generalize (if memOp (opcodeOf x.raw) = true then ((0, 0), s) else assignToken s x.raw 1) = r
  dsimp only
  split <;> rfl
@[simp] theorem taken_chan (s : State) (x : Cmd) : (taken s x).1.chan = x.chan := by
  unfold taken
  generalize (if memOp (opcodeOf x.raw) = true then ((0, 0), s) else assignToken s x.raw 1) = r
  dsimp only
  split <;> rfl
@[simp] theorem readyCmd_raw (s : State) (x : Cmd) (b : Bool) : (readyCmd s x b).raw = x.raw := taken_raw s x
@[simp] theorem readyCmd_chan (s : State) (x : Cmd) (b : Bool) : (readyCmd s x b).chan = x.chan := taken_chan s x

/-- A row whose packet acts at once: enough that the act has the effect. -/
theorem actsAs_of (i : Instr) (sp : OpSpec) (c : CmdIn) (op : Nat) (H : State → Nat → Cmd → Prop) (E : State → Nat → Cmd → State)
    (ho : op < 65536) (hi : ∀ s, exec i s = done (receive s (some sp) (withOpcode c op)))
    (hc : ∀ x, sp.charge x = none) (hg : ∀ t x, sp.total t x = none)
    (ha : ∀ (t : State) (k : Nat) (y : Cmd), t.cmd k = some y → opcodeOf y.raw = op → y.chan = c.chan → H t k y → sp.act t k = E t k y) :
    actsAs i sp (withOpcode c op) H E := by
  intro s x s1 h hu hf hh
  obtain ⟨hr, hch, -⟩ := entryChecks_pass s sp (withOpcode c op) x s1 h.2.2
  rw [hi, receive_told s sp (withOpcode c op) x s1 h (hc _) hu hf (hg _ _),
    ha _ _ _ (toldState_cmd s1 sp x) (by rw [readyCmd_raw, hr, opcodeOf_withOpcode c op ho]) (by rw [readyCmd_chan, hch]; rfl) hh]
  rfl

/-- A granular row. -/
theorem standsReady_of (i : Instr) (sp : OpSpec) (c : CmdIn) (after : State → State)
    (hi : ∀ s, exec i s = done (after (receive s (some sp) c))) (hc : ∀ x, sp.charge x = none) : standsReady i sp c after := by
  intro s x s1 h hu hg
  rw [hi, receive_granular s sp c x s1 h (hc _) hu hg]
  rfl

end Sys2Proof.Machine
end

