-- ==== Sys2Proof/Laws/Hwmem.lean ====
section
/-! SUPPORT. What the arrival of a hardware memory opcode comes to at its memory stop (R57, R58, R138, R141). -/
namespace Sys2Proof.Machine

/-- A hardware memory opcode that passes reaches its memory stop (R53, R58, R138). -/
theorem mem_reach (i : Instr) (s : State) (sp : OpSpec) (c : CmdIn) (pt k : Nat) (y : Cmd) (u : State) 
    (hi : exec i s = done (receive s (some sp) c)) (ht : ∀ t x, sp.total t x = none) (hz : ∀ t x, sp.size t x = none) (hact : sp.act = memAct)
    (h : reachesStop s sp c pt k y u) : ∃ (x : Cmd) (s2 : State), y.raw = c.raw ∧ y.prio = (readyCmd s2 {x with color := 1} false).prio ∧ u.cmd k = some y ∧ y.color = 1 ∧ y.host = x.host ∧ 
     exec i s = done (memAct (readyState s2 {x with color := 1} false) k) ∧ (readyState s2 {x with color := 1} false).cmd k = some (readyCmd s2 {x with color := 1} false) ∧ stopPoint (readyState s2 { x with color := 1 } false) x.host (cmdB y.raw 16 8) = some pt ∧ y = { readyCmd s2 { x with color := 1 } false with points := [112 + 8 * pt + tcOfPrio y.prio] } ∧
    u = (readyState s2 { x with color := 1 } false).setCmd k y ∧ (readyCmd s2 { x with color := 1 } false).color = 1 ∧ (readyCmd s2 { x with color := 1 } false).host = x.host := by
  obtain ⟨x, s1, s2, b, hp, hc, hg, hch, hu, hfi, rfl, hst, rfl, rfl⟩ := h
  obtain ⟨hr, -⟩ := entryChecks_pass s sp c x s1 hp.2.2
  have hcol : (readyCmd s2 { x with color := 1 } false).color = 1 ∧ (readyCmd s2 { x with color := 1 } false).host = x.host ∧ (readyCmd s2 { x with color := 1 } false).prio = x.prio := by
    unfold readyCmd taken
    generalize (if memOp (opcodeOf ({ x with color := 1 } : Cmd).raw) = true then ((0, 0), s2) else assignToken s2 ({ x with color := 1 } : Cmd).raw 1) = r
    dsimp only
    split <;> simp
  obtain ⟨c1, c2, c3⟩ := hcol
  refine ⟨x, s2, by simp [hr], rfl, by simp, c1, c2, ?_, readyState_cmd _ _ _, by simpa using hst, by simp [c3], rfl, c1, c2⟩
  rw [hi]
  congr 1
  obtain ⟨htk, ⟨hrn, hpo⟩, he⟩ := hp
  simp [takesCommands] at htk
  obtain ⟨⟨hs, hf⟩, hpp⟩ := htk
  unfold receive
  simp only [hs, hpp, he, hc, hrn, hpo]
  have hf' : (s.mir.state == 5) = false := by simpa using hf
  simp only [hf', hg, hch, Bool.not_true, Bool.or_self, Bool.false_and, Option.isSome_none, Bool.false_eq_true, if_false, show (1:Nat) ≠ 3 from by decide]
  refine (acceptCmd_unheld s2 sp _ hu).trans ?_
  simp only [ht, hact, hfi, toldState, hasRate, hz, Option.isSome_none, Bool.not_true, Bool.or_self, Bool.false_eq_true, if_false]

/-- A green opcode at an idle stop is served at once (log 11). -/
theorem memAct_empty (t : State) (k pt : Nat) (z : Cmd) (hz : t.cmd k = some z) (hc : z.color = 1) (hs : stopPoint t z.host (cmdB z.raw 16 8) = some pt)
    (he : (t.point pt).items = []) : memAct t k = memService (t.setCmd k { z with points := [112 + 8 * pt + tcOfPrio z.prio] }) k := by
  unfold memAct
  simp only [hz, hs, hc]
  have : ((t.setCmd k { z with points := [112 + 8 * pt + tcOfPrio z.prio] }).point pt).items.isEmpty = true := by
    simp [State.setCmd, State.point] at *
    exact he
  simp_all

/-- Where it reaches an idle stop, it is served there. -/
theorem mem_served (i : Instr) (op : Nat) (hop : op < 65536) (s : State) (sp : OpSpec) (c : CmdIn) (pt k : Nat) (y : Cmd) (u : State)
    (hi : exec i s = done (receive s (some sp) (withOpcode c op))) (ht : ∀ t x, sp.total t x = none) (hz : ∀ t x, sp.size t x = none) (hact : sp.act = memAct)
    (hit : (u.point pt).items = []) (h : reachesStop s sp (withOpcode c op) pt k y u) :
    exec i s = done (memService u k) ∧ u.cmd k = some y ∧ opcodeOf y.raw = op := by
  obtain ⟨x, s2, a1, a2, a3, a4, a5, a6, a7, a8, a9, a10, a11, a12⟩ := mem_reach i s _ _ _ _ _ _ hi ht hz hact h
  have ho : opcodeOf y.raw = op := by rw [a1, opcodeOf_withOpcode _ _ hop]
  have hit2 : ((readyState s2 { x with color := 1 } false).point pt).items = [] := by rw [a10] at hit; simpa [State.setCmd, State.point] using hit
  have hraw : (readyCmd s2 { x with color := 1 } false).raw = y.raw := by rw [a9]
  have := memAct_empty _ k pt _ a7 a11 (by rw [a12, hraw]; exact a8) hit2
  have e : ({ readyCmd s2 { x with color := 1 } false with points := [112 + 8 * pt + tcOfPrio (readyCmd s2 { x with color := 1 } false).prio] } : Cmd) = y := by rw [← a2]; exact a9.symm
  refine ⟨?_, a3, ho⟩
  rw [a6, this, e, ← a10]


/-- Behind other items it enters the queue of its class (R141). -/
theorem memAct_queues (t : State) (k pt : Nat) (z : Cmd) (hz : t.cmd k = some z) (hc : z.color = 1)
    (hs : stopPoint t z.host (cmdB z.raw 16 8) = some pt) (he : (t.point pt).items ≠ []) :
    memAct t k = enqueueItem ((t.setCmd k { z with points := [112 + 8 * pt + tcOfPrio z.prio] }).setCmd k
      { z with points := [112 + 8 * pt + tcOfPrio z.prio], st := .queued }) pt
      { tc := tcOfPrio z.prio, color := 1, bytes := (if opcodeOf z.raw ≤ 0x0102 then roundUp (cmdB z.raw 24 4) 64 else 64), f := 0, since := t.now
        work := .cmd k, tag := BitVec.ofNat 32 (tagOf z.raw), src := BitVec.ofNat 32 (srcOf z.raw), elig := 0 } := by
  unfold memAct
  have h4 : (z.color = 4) = False := by simp [hc]
  have h2 : (z.color != 2) = true := by simp [hc]
  have hm : z.color % 4 = 1 := by rw [hc]
  simp only [hz, hs, h4, h2, hm, if_false]
  have : ((t.setCmd k { z with points := [112 + 8 * pt + tcOfPrio z.prio] }).point pt).items.isEmpty = false := by
    simp [State.setCmd, State.point] at *
    exact he
  simp only [this, Nat.zero_le, decide_true, Bool.and_false, Bool.false_eq_true, if_false]
  rfl

/-- Where it reaches a stop that has items, it is queued there. -/
theorem mem_queued (i : Instr) (op : Nat) (hop : op < 65536) (s : State) (sp : OpSpec) (c : CmdIn) (pt k : Nat) (y : Cmd) (u : State)
    (hi : exec i s = done (receive s (some sp) (withOpcode c op))) (ht : ∀ t x, sp.total t x = none) (hz : ∀ t x, sp.size t x = none)
    (hact : sp.act = memAct) (hit : (u.point pt).items ≠ []) (h : reachesStop s sp (withOpcode c op) pt k y u) :
    exec i s = done (enqueueItem (u.setCmd k { y with st := .queued }) pt
      { tc := tcOfPrio y.prio, color := 1, bytes := (if op ≤ 0x0102 then roundUp (cmdB y.raw 24 4) 64 else 64), f := 0, since := u.now
        work := .cmd k, tag := BitVec.ofNat 32 (tagOf y.raw), src := BitVec.ofNat 32 (srcOf y.raw), elig := 0 }) := by
  obtain ⟨x, s2, a1, a2, a3, a4, a5, a6, a7, a8, a9, a10, a11, a12⟩ := mem_reach i s _ _ _ _ _ _ hi ht hz hact h
  have ho : opcodeOf y.raw = op := by rw [a1, opcodeOf_withOpcode _ _ hop]
  have hit2 : ((readyState s2 { x with color := 1 } false).point pt).items ≠ [] := by rw [a10] at hit; simpa [State.setCmd, State.point] using hit
  have hraw : (readyCmd s2 { x with color := 1 } false).raw = y.raw := by rw [a9]
  have := memAct_queues _ k pt _ a7 a11 (by rw [a12, hraw]; exact a8) hit2
  have e : ({ readyCmd s2 { x with color := 1 } false with points := [112 + 8 * pt + tcOfPrio (readyCmd s2 { x with color := 1 } false).prio] } : Cmd) = y := by
    rw [← a2]; exact a9.symm
  have e2 : ({ readyCmd s2 { x with color := 1 } false with points := [112 + 8 * pt + tcOfPrio (readyCmd s2 { x with color := 1 } false).prio], st := .queued } : Cmd)
      = { y with st := .queued } := by
    rw [← e]
  rw [a6, this, e, e2, ← a10, hraw, ho, ← a2, a10]
  rfl

end Sys2Proof.Machine
end

