-- ==== Sys2Proof/Laws/Lines.lean ====
section
/-! SUPPORT. The updates of counter blocks, reduction slots and lines, field by field; and that writing a line, its error or its poison keeps
the tables of memory canonical. -/
namespace Sys2Proof.Machine

/-! ### State.setCnt -/

@[simp] theorem State.setCnt_now (s : State) (k : Nat) (c : MemCnt) : (s.setCnt k c).now = s.now := rfl
@[simp] theorem State.setCnt_devStart (s : State) (k : Nat) (c : MemCnt) : (s.setCnt k c).devStart = s.devStart := rfl
@[simp] theorem State.setCnt_fuses (s : State) (k : Nat) (c : MemCnt) : (s.setCnt k c).fuses = s.fuses := rfl
@[simp] theorem State.setCnt_pins (s : State) (k : Nat) (c : MemCnt) : (s.setCnt k c).pins = s.pins := rfl
@[simp] theorem State.setCnt_boot (s : State) (k : Nat) (c : MemCnt) : (s.setCnt k c).boot = s.boot := rfl
@[simp] theorem State.setCnt_saf (s : State) (k : Nat) (c : MemCnt) : (s.setCnt k c).saf = s.saf := rfl
@[simp] theorem State.setCnt_latches (s : State) (k : Nat) (c : MemCnt) : (s.setCnt k c).latches = s.latches := rfl
@[simp] theorem State.setCnt_intr (s : State) (k : Nat) (c : MemCnt) : (s.setCnt k c).intr = s.intr := rfl
@[simp] theorem State.setCnt_rings (s : State) (k : Nat) (c : MemCnt) : (s.setCnt k c).rings = s.rings := rfl
@[simp] theorem State.setCnt_store (s : State) (k : Nat) (c : MemCnt) : (s.setCnt k c).store = s.store := rfl
@[simp] theorem State.setCnt_out (s : State) (k : Nat) (c : MemCnt) : (s.setCnt k c).out = s.out := rfl
@[simp] theorem State.setCnt_xlt (s : State) (k : Nat) (c : MemCnt) : (s.setCnt k c).xlt = s.xlt := rfl
@[simp] theorem State.setCnt_iso (s : State) (k : Nat) (c : MemCnt) : (s.setCnt k c).iso = s.iso := rfl
@[simp] theorem State.setCnt_qos (s : State) (k : Nat) (c : MemCnt) : (s.setCnt k c).qos = s.qos := rfl
@[simp] theorem State.setCnt_churn (s : State) (k : Nat) (c : MemCnt) : (s.setCnt k c).churn = s.churn := rfl
@[simp] theorem State.setCnt_sync (s : State) (k : Nat) (c : MemCnt) : (s.setCnt k c).sync = s.sync := rfl
@[simp] theorem State.setCnt_work (s : State) (k : Nat) (c : MemCnt) : (s.setCnt k c).work = s.work := rfl
@[simp] theorem State.setCnt_coh (s : State) (k : Nat) (c : MemCnt) : (s.setCnt k c).coh = s.coh := rfl
@[simp] theorem State.setCnt_fab (s : State) (k : Nat) (c : MemCnt) : (s.setCnt k c).fab = s.fab := rfl
@[simp] theorem State.setCnt_lanes (s : State) (k : Nat) (c : MemCnt) : (s.setCnt k c).lanes = s.lanes := rfl
@[simp] theorem State.setCnt_mir (s : State) (k : Nat) (c : MemCnt) : (s.setCnt k c).mir = s.mir := rfl
@[simp] theorem State.setCnt_flt (s : State) (k : Nat) (c : MemCnt) : (s.setCnt k c).flt = s.flt := rfl
@[simp] theorem State.setCnt_fw (s : State) (k : Nat) (c : MemCnt) : (s.setCnt k c).fw = s.fw := rfl
@[simp] theorem State.setCnt_pwr (s : State) (k : Nat) (c : MemCnt) : (s.setCnt k c).pwr = s.pwr := rfl
@[simp] theorem State.setCnt_free (s : State) (k : Nat) (c : MemCnt) : (s.setCnt k c).free = s.free := rfl
@[simp] theorem State.setCnt_pending (s : State) (k : Nat) (c : MemCnt) : (s.setCnt k c).pending = s.pending := rfl

@[simp] theorem State.cnt_setCnt_same (s : State) (k : Nat) (c : MemCnt) : (s.setCnt k c).cnt k = c := tabGet_tabSet_same _ _ k c
theorem State.cnt_setCnt_other (s : State) (k j : Nat) (c : MemCnt) (h : j ≠ k) : (s.setCnt k c).cnt j = s.cnt j :=
  tabGet_tabSet_other _ _ k j c h

/-! ### State.setSlot -/

@[simp] theorem State.setSlot_now (s : State) (i : Nat) (x : Slot) : (s.setSlot i x).now = s.now := rfl
@[simp] theorem State.setSlot_devStart (s : State) (i : Nat) (x : Slot) : (s.setSlot i x).devStart = s.devStart := rfl
@[simp] theorem State.setSlot_fuses (s : State) (i : Nat) (x : Slot) : (s.setSlot i x).fuses = s.fuses := rfl
@[simp] theorem State.setSlot_pins (s : State) (i : Nat) (x : Slot) : (s.setSlot i x).pins = s.pins := rfl
@[simp] theorem State.setSlot_boot (s : State) (i : Nat) (x : Slot) : (s.setSlot i x).boot = s.boot := rfl
@[simp] theorem State.setSlot_saf (s : State) (i : Nat) (x : Slot) : (s.setSlot i x).saf = s.saf := rfl
@[simp] theorem State.setSlot_latches (s : State) (i : Nat) (x : Slot) : (s.setSlot i x).latches = s.latches := rfl
@[simp] theorem State.setSlot_intr (s : State) (i : Nat) (x : Slot) : (s.setSlot i x).intr = s.intr := rfl
@[simp] theorem State.setSlot_rings (s : State) (i : Nat) (x : Slot) : (s.setSlot i x).rings = s.rings := rfl
@[simp] theorem State.setSlot_store (s : State) (i : Nat) (x : Slot) : (s.setSlot i x).store = s.store := rfl
@[simp] theorem State.setSlot_out (s : State) (i : Nat) (x : Slot) : (s.setSlot i x).out = s.out := rfl
@[simp] theorem State.setSlot_xlt (s : State) (i : Nat) (x : Slot) : (s.setSlot i x).xlt = s.xlt := rfl
@[simp] theorem State.setSlot_iso (s : State) (i : Nat) (x : Slot) : (s.setSlot i x).iso = s.iso := rfl
@[simp] theorem State.setSlot_qos (s : State) (i : Nat) (x : Slot) : (s.setSlot i x).qos = s.qos := rfl
@[simp] theorem State.setSlot_churn (s : State) (i : Nat) (x : Slot) : (s.setSlot i x).churn = s.churn := rfl
@[simp] theorem State.setSlot_sync (s : State) (i : Nat) (x : Slot) : (s.setSlot i x).sync = s.sync := rfl
@[simp] theorem State.setSlot_coh (s : State) (i : Nat) (x : Slot) : (s.setSlot i x).coh = s.coh := rfl
@[simp] theorem State.setSlot_fab (s : State) (i : Nat) (x : Slot) : (s.setSlot i x).fab = s.fab := rfl
@[simp] theorem State.setSlot_lanes (s : State) (i : Nat) (x : Slot) : (s.setSlot i x).lanes = s.lanes := rfl
@[simp] theorem State.setSlot_mem (s : State) (i : Nat) (x : Slot) : (s.setSlot i x).mem = s.mem := rfl
@[simp] theorem State.setSlot_mir (s : State) (i : Nat) (x : Slot) : (s.setSlot i x).mir = s.mir := rfl
@[simp] theorem State.setSlot_flt (s : State) (i : Nat) (x : Slot) : (s.setSlot i x).flt = s.flt := rfl
@[simp] theorem State.setSlot_fw (s : State) (i : Nat) (x : Slot) : (s.setSlot i x).fw = s.fw := rfl
@[simp] theorem State.setSlot_pwr (s : State) (i : Nat) (x : Slot) : (s.setSlot i x).pwr = s.pwr := rfl
@[simp] theorem State.setSlot_free (s : State) (i : Nat) (x : Slot) : (s.setSlot i x).free = s.free := rfl
@[simp] theorem State.setSlot_pending (s : State) (i : Nat) (x : Slot) : (s.setSlot i x).pending = s.pending := rfl

@[simp] theorem State.slot_setSlot_same (s : State) (i : Nat) (x : Slot) : (s.setSlot i x).slot i = some x := tabFind_tabIns_same _ i x
theorem State.slot_setSlot_other (s : State) (i j : Nat) (x : Slot) (h : j ≠ i) : (s.setSlot i x).slot j = s.slot j :=
  tabFind_tabIns_other _ i j x h

/-! ### Lines of memory -/

@[simp] theorem setErr_now (s : State) (a e : Nat) : (setErr s a e).now = s.now := rfl
@[simp] theorem setErr_devStart (s : State) (a e : Nat) : (setErr s a e).devStart = s.devStart := rfl
@[simp] theorem setErr_fuses (s : State) (a e : Nat) : (setErr s a e).fuses = s.fuses := rfl
@[simp] theorem setErr_pins (s : State) (a e : Nat) : (setErr s a e).pins = s.pins := rfl
@[simp] theorem setErr_boot (s : State) (a e : Nat) : (setErr s a e).boot = s.boot := rfl
@[simp] theorem setErr_saf (s : State) (a e : Nat) : (setErr s a e).saf = s.saf := rfl
@[simp] theorem setErr_latches (s : State) (a e : Nat) : (setErr s a e).latches = s.latches := rfl
@[simp] theorem setErr_intr (s : State) (a e : Nat) : (setErr s a e).intr = s.intr := rfl
@[simp] theorem setErr_rings (s : State) (a e : Nat) : (setErr s a e).rings = s.rings := rfl
@[simp] theorem setErr_store (s : State) (a e : Nat) : (setErr s a e).store = s.store := rfl
@[simp] theorem setErr_out (s : State) (a e : Nat) : (setErr s a e).out = s.out := rfl
@[simp] theorem setErr_xlt (s : State) (a e : Nat) : (setErr s a e).xlt = s.xlt := rfl
@[simp] theorem setErr_iso (s : State) (a e : Nat) : (setErr s a e).iso = s.iso := rfl
@[simp] theorem setErr_qos (s : State) (a e : Nat) : (setErr s a e).qos = s.qos := rfl
@[simp] theorem setErr_churn (s : State) (a e : Nat) : (setErr s a e).churn = s.churn := rfl
@[simp] theorem setErr_sync (s : State) (a e : Nat) : (setErr s a e).sync = s.sync := rfl
@[simp] theorem setErr_work (s : State) (a e : Nat) : (setErr s a e).work = s.work := rfl
@[simp] theorem setErr_coh (s : State) (a e : Nat) : (setErr s a e).coh = s.coh := rfl
@[simp] theorem setErr_fab (s : State) (a e : Nat) : (setErr s a e).fab = s.fab := rfl
@[simp] theorem setErr_lanes (s : State) (a e : Nat) : (setErr s a e).lanes = s.lanes := rfl
@[simp] theorem setErr_mir (s : State) (a e : Nat) : (setErr s a e).mir = s.mir := rfl
@[simp] theorem setErr_flt (s : State) (a e : Nat) : (setErr s a e).flt = s.flt := rfl
@[simp] theorem setErr_fw (s : State) (a e : Nat) : (setErr s a e).fw = s.fw := rfl
@[simp] theorem setErr_pwr (s : State) (a e : Nat) : (setErr s a e).pwr = s.pwr := rfl
@[simp] theorem setErr_free (s : State) (a e : Nat) : (setErr s a e).free = s.free := rfl
@[simp] theorem setErr_pending (s : State) (a e : Nat) : (setErr s a e).pending = s.pending := rfl
@[simp] theorem putBytes_now (s : State) (a : Nat) (bs : List Byte) : (putBytes s a bs).now = s.now := rfl
@[simp] theorem putBytes_devStart (s : State) (a : Nat) (bs : List Byte) : (putBytes s a bs).devStart = s.devStart := rfl
@[simp] theorem putBytes_fuses (s : State) (a : Nat) (bs : List Byte) : (putBytes s a bs).fuses = s.fuses := rfl
@[simp] theorem putBytes_pins (s : State) (a : Nat) (bs : List Byte) : (putBytes s a bs).pins = s.pins := rfl
@[simp] theorem putBytes_boot (s : State) (a : Nat) (bs : List Byte) : (putBytes s a bs).boot = s.boot := rfl
@[simp] theorem putBytes_saf (s : State) (a : Nat) (bs : List Byte) : (putBytes s a bs).saf = s.saf := rfl
@[simp] theorem putBytes_latches (s : State) (a : Nat) (bs : List Byte) : (putBytes s a bs).latches = s.latches := rfl
@[simp] theorem putBytes_intr (s : State) (a : Nat) (bs : List Byte) : (putBytes s a bs).intr = s.intr := rfl
@[simp] theorem putBytes_rings (s : State) (a : Nat) (bs : List Byte) : (putBytes s a bs).rings = s.rings := rfl
@[simp] theorem putBytes_store (s : State) (a : Nat) (bs : List Byte) : (putBytes s a bs).store = s.store := rfl
@[simp] theorem putBytes_out (s : State) (a : Nat) (bs : List Byte) : (putBytes s a bs).out = s.out := rfl
@[simp] theorem putBytes_xlt (s : State) (a : Nat) (bs : List Byte) : (putBytes s a bs).xlt = s.xlt := rfl
@[simp] theorem putBytes_iso (s : State) (a : Nat) (bs : List Byte) : (putBytes s a bs).iso = s.iso := rfl
@[simp] theorem putBytes_qos (s : State) (a : Nat) (bs : List Byte) : (putBytes s a bs).qos = s.qos := rfl
@[simp] theorem putBytes_churn (s : State) (a : Nat) (bs : List Byte) : (putBytes s a bs).churn = s.churn := rfl
@[simp] theorem putBytes_sync (s : State) (a : Nat) (bs : List Byte) : (putBytes s a bs).sync = s.sync := rfl
@[simp] theorem putBytes_work (s : State) (a : Nat) (bs : List Byte) : (putBytes s a bs).work = s.work := rfl
@[simp] theorem putBytes_coh (s : State) (a : Nat) (bs : List Byte) : (putBytes s a bs).coh = s.coh := rfl
@[simp] theorem putBytes_fab (s : State) (a : Nat) (bs : List Byte) : (putBytes s a bs).fab = s.fab := rfl
@[simp] theorem putBytes_lanes (s : State) (a : Nat) (bs : List Byte) : (putBytes s a bs).lanes = s.lanes := rfl
@[simp] theorem putBytes_mir (s : State) (a : Nat) (bs : List Byte) : (putBytes s a bs).mir = s.mir := rfl
@[simp] theorem putBytes_flt (s : State) (a : Nat) (bs : List Byte) : (putBytes s a bs).flt = s.flt := rfl
@[simp] theorem putBytes_fw (s : State) (a : Nat) (bs : List Byte) : (putBytes s a bs).fw = s.fw := rfl
@[simp] theorem putBytes_pwr (s : State) (a : Nat) (bs : List Byte) : (putBytes s a bs).pwr = s.pwr := rfl
@[simp] theorem putBytes_free (s : State) (a : Nat) (bs : List Byte) : (putBytes s a bs).free = s.free := rfl
@[simp] theorem putBytes_pending (s : State) (a : Nat) (bs : List Byte) : (putBytes s a bs).pending = s.pending := rfl
@[simp] theorem setErr_bytes (s : State) (a e : Nat) : (setErr s a e).mem.bytes = s.mem.bytes := rfl
@[simp] theorem putBytes_err (s : State) (a : Nat) (bs : List Byte) : (putBytes s a bs).mem.err = s.mem.err := rfl

/-- Writing bytes of a line keeps the canonical form of memory. -/
theorem putBytes_wf (s : State) (a : Nat) (bs : List Byte) (h : Memory.wf s.mem.bytes = true) : Memory.wf (putBytes s a bs).mem.bytes = true :=
  memPutL_wf _ _ _ h
/-- Poisoning a line keeps it. -/
theorem poisonLine_wf (s : State) (a : Nat) (h : Memory.wf s.mem.bytes = true) : Memory.wf (poisonLine s a).mem.bytes = true := by
  rw [poisonLine, setErr_bytes]
  exact putBytes_wf (unbuffer s a) _ _ h
/-- Writing the error of a line keeps the table of errors canonical. -/
theorem setErr_wf (s : State) (a e : Nat) (h : tabWf 0 s.mem.err = true) : tabWf 0 (setErr s a e).mem.err = true :=
  tabWf_tabSet _ _ _ _ h
/-- Clearing a span of memory keeps it. -/
theorem zeroSpan_wf (s : State) (a n : Nat) (h : Memory.wf s.mem.bytes = true) : Memory.wf (zeroSpan s a n).mem.bytes = true :=
  tabWf_filter _ _ _ h

end Sys2Proof.Machine
end

