-- ==== Sys2Proof/Laws/Ops.lean ====
section
/-! SUPPORT. What the shared operations can do: the outcomes of a row, the interrupt line after it, and the issue of an instruction. -/
namespace Sys2Proof.Machine

/-- A row about an instance that exists answers a next state with the cause tree evaluated. -/
theorem onInst_next (ok : Bool) (s : State) (h : ok = true) : onInst ok s = .next (intEval s) := by simp [onInst, done, h]
/-- A row about an instance that does not exist stops with the fault of R12. -/
theorem onInst_fault (ok : Bool) (s : State) (h : ok = false) : onInst ok s = .fault .noInstance := by simp [onInst, h]
/-- The next state of a row is its state with the cause tree evaluated; there is no other next state. -/
theorem onInst_cases (ok : Bool) (s t : State) (h : onInst ok s = .next t) : ok = true ∧ t = intEval s := by
  cases ok <;> simp [onInst, done] at h
  exact ⟨rfl, h.symm⟩
theorem done_cases (s t : State) (h : done s = .next t) : t = intEval s := by
  simp [done] at h
  exact h.symm

@[simp] theorem intEval_intN (s : State) : (intEval s).pins.intN = (intMasked s || s.flt.failed) := rfl
@[simp] theorem intEval_wasZero (s : State) : (intEval s).intr.wasZero = !intMasked s := rfl
@[simp] theorem intMasked_intEval (s : State) : intMasked (intEval s) = intMasked s := rfl

/-- After every row the interrupt line stands as R481 says. -/
theorem intDriven_intEval (s : State) : intDriven (intEval s) := ⟨rfl, rfl⟩
theorem intDriven_onInst (ok : Bool) (s t : State) (h : onInst ok s = .next t) : intDriven t := by
  obtain ⟨-, rfl⟩ := onInst_cases ok s t h
  exact intDriven_intEval s
theorem intDriven_done (s t : State) (h : done s = .next t) : intDriven t := by
  rw [done_cases s t h]
  exact intDriven_intEval s

/-- An instruction that the tile issues has its effect. -/
theorem issue_next (n op : Nat) (i : TI) (f : State → State) (s : State) (hn : n < 10240) (hi : issues s n op i = true) :
    issue n op i f s = .next (intEval (f s)) := by simp [issue, onInst, done, hn, hi]
/-- One that the tile does not fetch has none. -/
theorem issue_idle (n op : Nat) (i : TI) (f : State → State) (s : State) (hn : n < 10240) (hi : fetches s n op i = false) :
    issue n op i f s = .next (intEval s) := by simp [issue, issues, onInst, done, hn, hi]
/-- One whose word has a single-bit error has its effect once the word is mended. -/
theorem issue_mends (n op : Nat) (i : TI) (f : State → State) (s : State) (hn : n < 10240) (hi : fetches s n op i = true)
    (he : flips (s.tile n).fetchErr = 1) : issue n op i f s = .next (intEval (f (mendFetch s n))) := by
  have h0 : (s.tile n).fetchErr ≠ 0#72 := by
    intro h
    rw [h] at he
    exact absurd he (by decide)
  simp [issue, issues, onInst, done, hn, hi, he, h0]
/-- One whose word has a double-bit error traps IFETCH_UE. -/
theorem issue_traps (n op : Nat) (i : TI) (f : State → State) (s : State) (hn : n < 10240) (hi : fetches s n op i = true)
    (h0 : (s.tile n).fetchErr ≠ 0) (h1 : flips (s.tile n).fetchErr ≠ 1) :
    issue n op i f s = .next (intEval (settle (trapTile s n 3 0 0))) := by
  have h2 : (s.tile n).fetchErr ≠ 0#72 := h0
  simp [issue, issues, onInst, done, hn, hi, h2, h1]
/-- An instruction of registers changes its tile, and steps on. -/
theorem issueReg_next (n op : Nat) (i : TI) (g : Tile → Tile) (s : State) (hn : n < 10240) (hi : issues s n op i = true) :
    issueReg n op i g s = .next (intEval (s.setTile n (g (s.tile n)).next)) := issue_next n op i _ s hn hi
/-- A row that issues an instruction with effect `f` does `f`: enough that its meaning is the issue of it. -/
theorem tileDoes_of (mk : Nat → TI → Instr) (op : Nat) (f : State → Nat → TI → State)
    (h : ∀ s n i, exec (mk n i) s = issue n op i (fun s => f s n i) s) : tileDoes mk op f := by
  intro s n i hn
  rw [h]
  exact ⟨fun hi => issue_next n op i _ s hn hi, fun hf he => issue_mends n op i _ s hn hf he, fun hf h0 h1 => issue_traps n op i _ s hn hf h0 h1⟩

end Sys2Proof.Machine
end

