-- ==== Sys2Proof/Tests/Slice0.lean ====
section
/-! SUPPORT. Tests of the model: for every statement of Obligations.lean that has hypotheses, theorems `wit_…` show states and operands that meet each of its
clauses, at the boundaries where a clause has a range; `test_…` refuse an ill-formed command for each check of `Instr.wf`, hold instruction words to the
encoding tables of the spec, and work the spec's own examples, which each docstring names. Expected results come from the spec, not from the model. -/
namespace Sys2Proof.Tests
open Sys2Proof Sys2Proof.Machine
-- one theorem after another: the evaluations of these tests side by side would take more threads than a check allows
set_option Elab.async false

/-! ## The states of the tests -/

/-- A trained partition: one rank of 65,536 rows in each channel, and a whole stack. -/
def part : Part :=
  { state := 0, chans := List.replicate 4 { state := 2, ranks := 1, rows := 65536 }, stack := { hours := 1, state := 2, ranks := 3, rows := 32768 } }
/-- Little-endian fields, each at its byte offset. -/
def fields (l : List (Nat × Nat)) : Nat := l.foldl (fun x e => x + e.2 * 256 ^ e.1) 0
/-- A command of ring 0: FMT 1.0, tag `tag`, the fields given. -/
def cmd (l : List (Nat × Nat)) (tag : Nat := 7) : CmdIn :=
  { chan := .ring 0, port := 14, txn := 0, raw := BitVec.ofNat 512 (fields ((2, 0x10) :: (4, tag) :: l)), data := [] }
/-- The same with a descriptor of `n` bytes at host address 0x1000. -/
def descCmd (n : Nat) (l : List (Nat × Nat) := []) : CmdIn := cmd ((3, 4) :: (16, 0x1000) :: (24, n) :: l)

/-- A part in READY that is CLAIMED: host identity 0 is the administrator and the owner of sync object 0; ring 0 is its ring; range 0 is the first 16 GiB
of its addresses, in the cream of partition 0, and range 1 the 16 GiB that follow, in its skim. -/
def claimed : State :=
  let r0 : RangeE := { iaStart := 0, lenG := 2 ^ 22, ceil := 7, ppa := 2 ^ 44 }
  let r1 : RangeE := { iaStart := 2 ^ 34, lenG := 2 ^ 22, ceil := 7, ppa := 0 }
  let grants := tabIns (tabIns [] (8 * bucket0 0 0) ({ host := 0, rid := 0, rights := 7 } : Grant)) (8 * bucket0 0 1) { host := 0, rid := 1, rights := 7 }
  { State.reset with
    now := 10 ^ 9
    boot := { State.reset.boot with stage := 7, served := true }
    iso := { State.reset.iso with tenant := 1, keys := true, hostsA := [(0, { admin := true })], hostsS := [(0, { admin := true })], grantsA := grants, grantsS := grants }
    rings := [(0, { en := true, sqLog2 := 10, rqLog2 := 10, outMax := 512 })]
    xlt := { State.reset.xlt with dirA := [(0, r0), (1, r1)], dirS := [(0, r0), (1, r1)] }
    sync := { State.reset.sync with objs := [(0, { valid := true, oWait := true, oSig := true })] }
    mem := { State.reset.mem with parts := [(0, part), (1, part)] } }
/-- The same with a descriptor in host memory. -/
def withDesc (s : State) (l : List (Nat × Nat)) (n : Nat) : State := s.hostWrite 0x1000 (leBytes n (fields l))

/-- `arrives`, as it computes. -/
def arriving (s : State) (c : CmdIn) : Bool := chanRuns s c.chan && (portCause s c.chan c.port).isNone
theorem arriving_arrives {s : State} {c : CmdIn} (h : arriving s c = true) : arrives s c := by
  simpa [arriving, arrives, Option.isNone_iff_eq_none] using h
/-- Does the command pass its entry checks with nothing to hold it, so that `H` holds where it stands ready? -/
def meets (s : State) (op : Nat) (sp : OpSpec) (c : CmdIn) (H : State → Nat → Cmd → Bool := fun _ _ _ => true) : Bool :=
  takesCommands s && arriving s (withOpcode c op) && match entryChecks s (some sp) (withOpcode c op) with
    | (.pass x, s1) => unheld s1 x && goesFirst s1 x && H (toldState s1 sp x) (storeSlot s1 x) (readyCmd s1 x (hasRate s1 sp x))
    | _ => false
/-- Does a granular command pass so? -/
def meetsG (s : State) (op : Nat) (sp : OpSpec) (c : CmdIn) : Bool :=
  takesCommands s && arriving s (withOpcode c op) && match entryChecks s (some sp) (withOpcode c op) with
    | (.pass x, s1) => unheld s1 x && (sp.total (taken s1 x).2 (taken s1 x).1).isSome
    | _ => false
/-- What `meets` says. -/
theorem meets_passes (s : State) (op : Nat) (sp : OpSpec) (c : CmdIn) (H : State → Nat → Cmd → Bool) (h : meets s op sp c H = true) :
    ∃ x s1, passes s sp (withOpcode c op) x s1 ∧ unheld s1 x = true ∧ goesFirst s1 x = true ∧
      H (toldState s1 sp x) (storeSlot s1 x) (readyCmd s1 x (hasRate s1 sp x)) = true := by
  unfold meets at h
  generalize he : entryChecks s (some sp) (withOpcode c op) = e at h
  obtain ⟨a, s1⟩ := e
  cases a <;> simp at h
  exact ⟨_, _, ⟨h.1.1, arriving_arrives h.1.2, he⟩, h.2.1.1, h.2.1.2, h.2.2⟩
theorem meetsG_passes (s : State) (op : Nat) (sp : OpSpec) (c : CmdIn) (h : meetsG s op sp c = true) :
    ∃ x s1, passes s sp (withOpcode c op) x s1 ∧ unheld s1 x = true ∧ (sp.total (taken s1 x).2 (taken s1 x).1).isSome = true := by
  unfold meetsG at h
  generalize he : entryChecks s (some sp) (withOpcode c op) = e at h
  obtain ⟨a, s1⟩ := e
  cases a <;> simp at h
  exact ⟨_, _, ⟨h.1.1, arriving_arrives h.1.2, he⟩, h.2⟩

/-! ## Witnesses of the statements about command packets -/

/-- A ring's command with 3 in its tag field waits in slot 0. -/
def oneHeld : State := { claimed with store := { claimed.store with cmds := [(0, { chan := .ring 0, raw := (cmd [(0, 0x100)] 3).raw, st := .held })], seq := 1 } }
/-- An attention pool, a galley, a program, a reduction slot and a window of host 0, which is DOWN. -/
def pool : Pool := { host := 0, layers := 1, hkv := 1, d := 64, kfmt := 3, vfmt := 3, pages := 16, dinv := 0x3F800000, pageBase := 0, digBase := 2 ^ 32, sclBase := 2 ^ 33 }
def galley : Galley := { host := 0, chunks := 2, slots := 4, rIng := 0, gal := 0, store := 2 ^ 24, proof := 2 ^ 26, head := 2 ^ 27, state := 2, used := 1 }
def prog : Prog := { host := 0, image := [], codeN := 1, scrKib := 0, initLen := 0, syncN := 0, maxCyc := 1000000, restart := false, tiles := [0] }
def slot : Slot :=
  { host := 0, n := 2, ntiles := 1, l := 1024, fmt := 3, scm := 2, ofmt := 3, sr := false, ufNum := 16, outRes := false, cres := false, seed := 0, mul := 0x3F800000
    arrive := 0, limitMs := 10, dep := 0, out := 2 ^ 22, res := 0, cresBase := 0, tiles := [0] }
def window : Window := { host := 0, base := 0, ext := [(2 ^ 44, 4096)], len := 4096, dirRa := 2 ^ 20, dirExt := [(2 ^ 44 + 2 ^ 20, 256)], agents := [0], state := 3, cause := 1 }
def busy : State := { claimed with
  work := { claimed.work with pools := [(1, pool)], gals := [(1, galley)], slots := [(0, slot)] }
  churn := { claimed.churn with progs := [(1, prog)] }
  coh := { claimed.coh with wins := [(0, window)] } }

theorem wit_device_and_pool_commands :
    meets claimed 0x0F00 specCapQuery (cmd [(16, 5)]) = true ∧
    meets claimed 0x0F01 specCancel (cmd [(16, 3)]) (fun t k y =>
      (t.store.cmds.find? fun e => e.1 != k && e.2.chan == y.chan && tagOf e.2.raw == y.par 16 4) = none) = true ∧
    meets claimed 0x0100 specNop (cmd []) = true ∧ meets claimed 0x030F specNmoRelease (cmd []) = true ∧
    meets oneHeld 0x0F01 specCancel (cmd [(16, 3)]) (fun t k y =>
      match t.store.cmds.find? fun e => e.1 != k && e.2.chan == y.chan && tagOf e.2.raw == y.par 16 4 with
      | some (j, z) => j ≠ k ∧ t.cmd j = some z ∧ z.st = .held ∧ z.started = false ∧ z.progress = 0 ∧ opcodeOf z.raw ≠ 0x0311
      | none => false) = true ∧
    meets (withDesc claimed [(0, 1), (2, 1), (4, 64), (6, 3), (7, 3), (8, 16), (12, 0x3F800000), (24, 2 ^ 32), (32, 2 ^ 33)] 64) 0x0400 specAttPoolOpen
      (descCmd 64) (fun t _ _ => tabGap t.work.pools 1 ≤ 255) = true ∧
    meets busy 0x0401 specAttPoolClose (cmd [(16, 1)]) (fun t _ y => (t.pool (y.par 16 1)).any fun p => p.closing = none) = true := by decide +kernel

theorem wit_sync_commands :
    meets claimed 0x0600 specSyncConfig (cmd []) = true ∧ meets claimed 0x0602 specSyncSet (cmd [(18, 3)]) = true ∧
    meets claimed 0x0603 specSyncAdd (cmd [(24, 2 ^ 64 - 1)]) = true ∧ meets claimed 0x0601 specSyncRelease (cmd []) = true ∧
    meets claimed 0x0604 specSyncRead (cmd []) = true := by decide +kernel

theorem wit_range_commands :
    meets claimed 0x0105 specRangeCreate (cmd [(16, 2 ^ 40), (24, 1), (28, 1)]) (fun t _ y =>
      (t.xlt.dirS.any fun e => !disjointSpans (y.par 16 8) (4096 * y.par 24 4) e.2.iaStart (4096 * e.2.lenG)) = false
        ∧ t.online (y.par 29 1) = true ∧ 4096 * y.par 24 4 ≤ mappable t (y.par 28 1 == 1) (y.par 29 1)
        ∧ (y.par 28 1 = 1 ∨ (t.part (y.par 29 1)).parked = false)
        ∧ tabGap (t.xlt.dirS.foldl (fun m e => tabIns m e.1 e.2) t.xlt.dirA) 0 < 2 ^ 20
        ∧ (freeExtent t (y.par 28 1 == 1) (y.par 29 1) (4096 * y.par 24 4)).any (fun o =>
          let u := withRange (drainDma t) (newRid t) (newRange y o)
          !dmaLeft u (ofChanged u))) = true ∧
    meets claimed 0x0106 specRangeDestroy (cmd [(16, 1)]) (fun t _ y =>
      (tabFind t.xlt.dirS (y.par 16 4)).any (fun e => !protectedRange t (y.par 16 4) e) ∧ rangeShut t y (y.par 16 4) = false
        ∧ (let u := withoutRange (drainDma t) (y.par 16 4); dmaLeft u (ofChanged u)) = false) = true ∧
    meets claimed 0x0203 specXltCommit (cmd []) (fun t _ _ => !dmaLeft (drainDma t) (ofChanged (drainDma t))) = true ∧
    meets claimed 0x0107 specRangeQuery (cmd [(16, 2 ^ 34 - 1)]) (fun t _ y => match anyRight t y.host (y.par 16 8) with
      | (.ok _ rid, _, u) => (u.range rid).isSome
      | _ => false) = true := by decide +kernel

theorem wit_translation_commands :
    let f : XFault := { id := 5, key := 9, ga := 0, host := 0, owner := 0, kind := 0, access := 0, expiry := 10 ^ 9 + 1 }
    meets claimed 0x0200 specXltS1Root (cmd [(24, 16), (32, 2 ^ 20)]) (fun t _ y => !dmaLeft (drainDma t) (ofHost (drainDma t) (y.par 28 2))) = true ∧
    meets claimed 0x0201 specXltInvalidate (cmd [(24, 1)]) (fun t _ y => !dmaLeft (drainDma t) (ofHost (drainDma t) (y.par 28 2))) = true ∧
    meets { claimed with xlt := { claimed.xlt with pending := [f] } } 0x0202 specXltFaultResume (cmd [(16, 5)])
      (fun t _ y => t.xlt.pending.find? (fun f => f.id.toNat == y.par 16 4) = some f ∧ t.now < f.expiry) = true ∧
    meets { claimed with xlt := { claimed.xlt with pending := [{ f with expiry := 10 ^ 9 }] } } 0x0202 specXltFaultResume (cmd [(16, 5)])
      (fun t _ y => (t.xlt.pending.find? fun f => f.id.toNat == y.par 16 4).any (fun f => decide (f.expiry ≤ t.now)) ∧ pairHeld t = false) = true ∧
    meets claimed 0x0108 specAdvise (cmd [(24, 2)]) (fun t _ y => match lookup t y.host (y.par 16 8) rWrite with
      | (.ok _ rid, u) => (u.range rid).isSome ∧ rangeShut u y rid = false ∧ y.par 24 1 = 2
      | _ => false) = true ∧
    meets claimed 0x0109 specPrefetch (cmd [(24, 4096), (32, 2 ^ 20)]) (fun t k y => match lookup t y.host (y.par 16 8) rWrite with
      | (.ok ppa rid, u) => (u.range rid).any fun e => prefGate y = false
          ∧ (startOp u k { y with total := prefLen y / 4096, aux := [rid, 0, ppa - e.ppa] }).isSome
      | _ => false) = true := by decide +kernel

/-- A part where the standby of a pair is in step, and one that may form a pair. -/
def inStep : State := { claimed with boot := { claimed.boot with strapsValid := true, pairRole := 1 }, mir := { claimed.mir with state := 1, inStep := true, partner := 5 } }
def formable : State := { claimed with
  boot := { claimed.boot with strapsValid := true, pairRole := 1 }
  fab := { claimed.fab with links := [(12, { linkReset 12 with state := 3, partner := 5 })] } }

theorem wit_qos_commands :
    meets claimed 0x0800 specQosMeterSet (cmd [(20, 1), (24, 16777215), (28, 4), (32, 1048576)]) = true ∧
    meets { claimed with qos := { claimed.qos with meters := [(1, { unmetered := false })] } } 0x0801 specQosMeterQuery (cmd [(16, 1)])
      (fun t _ y => (t.meter (y.par 16 2)).unmetered = false) = true ∧
    meets claimed 0x0802 specQosChannelSet (cmd [(17, 2), (20, 1023)]) = true ∧
    meets claimed 0x0803 specQosTcWeights (cmd [(16, 1), (17, 2), (18, 3), (19, 4), (20, 64)]) = true := by decide +kernel

theorem wit_program_commands :
    meets busy 0x0382 specProgUnload (cmd [(16, 1)]) (fun t _ y => (t.prog (y.par 16 2)).any fun p => p.unload = none) = true ∧
    meets busy 0x0383 specProgQuery (cmd [(16, 1)]) (fun t _ y => (t.prog (y.par 16 2)).isSome) = true := by decide +kernel

theorem wit_slot_commands :
    meets (withDesc claimed [(0, 2), (2, 1), (4, 1024), (8, 3), (9, 2), (10, 3), (12, 16), (14, 1), (20, 0x3F800000), (26, 10), (40, 2 ^ 20)] 128) 0x0310 specRedSlotOpen
      (descCmd 128) (fun t _ y => (placeTiles t (slotOf y).ntiles (y.par 14 1) 0 0).isSome ∧ tabGap t.work.slots 0 ≤ 255 ∧ regionsOk t (slotOf y) = true
        ∧ powerFits t (slotPower (slotOf y)) = true) = true ∧
    meets busy 0x0312 specRedSlotClose (cmd []) (fun t _ y => (t.slot (y.par 16 1)).any fun x => x.closing = none) = true ∧
    meets busy 0x0313 specRedSlotQuery (cmd []) (fun t _ y => (t.slot (y.par 16 1)).isSome) = true := by decide +kernel

theorem wit_galley_commands :
    meets busy 0x0502 specGalBegin (cmd [(16, 1), (20, 2)]) (fun t _ y => (t.galley (y.par 16 1)).any fun g => g.state ≠ 3) = true ∧
    meets busy 0x0505 specGalQuery (cmd [(16, 1)]) (fun t _ y => (t.galley (y.par 16 1)).isSome) = true ∧
    meets busy 0x0501 specGalClose (cmd [(16, 1)]) (fun t _ y => (t.galley (y.par 16 1)).any fun g => g.closing = none) = true := by decide +kernel

/-- Host identity 0 is that of rank 0. -/
def ranked (s : State) : State := { s with fab := { s.fab with ranksA := [(0, { hi := 0, host := 0, portA := 0, cktEn := false, cktId := 0, routeA := 0, hopsA := 0, routeB := 0, hopsB := 0 })] } }
theorem wit_window_commands :
    meets (withDesc (ranked claimed) [(8, 4096), (16, 2 ^ 20), (24, 1)] 320) 0x0700 specWinOpen (descCmd 320) (fun t _ y =>
      (freeWindow t).isSome && winPlaceOk t y && (match checkRa t y.host (y.par 0 8) (rRead ||| rWrite), checkRa t y.host (y.par 16 8) (rRead ||| rWrite) with
        | .ok p r1, .ok d r2 => !unsettledRange t r1 && !unsettledRange t r2 && tierUp t (ppaCream p) (ppaPart p) && tierUp t true (ppaPart d)
        | _, _ => false)) = true ∧
    meets busy 0x0701 specWinClose (cmd []) (fun t _ y => (t.win (y.par 16 1)).state = 3) = true ∧
    meets { busy with coh := { busy.coh with wins := [(0, { window with state := 1 })] } } 0x0701 specWinClose (cmd []) (fun t _ y => (t.win (y.par 16 1)).state = 1) = true ∧
    meets (ranked busy) 0x0702 specWinReopen (cmd []) (fun t _ y =>
      (t.win (y.par 16 1)).state = 3 ∧ (((t.win (y.par 16 1)).ext ++ (t.win (y.par 16 1)).dirExt).all fun e => tierUp t (ppaCream e.1) (ppaPart e.1)) = true) = true ∧
    meets busy 0x0703 specWinQuery (cmd []) = true := by decide +kernel

theorem wit_firmware_and_energy_commands :
    meets claimed 0x0F02 specFwStage (cmd [(28, 4096)]) (fun t _ y => t.hostFails (y.par 16 8) (y.par 28 4) = false) = true ∧
    meets claimed 0x0F03 specFwCommit (cmd []) = true ∧ meets claimed 0x0F04 specFwStatus (cmd []) = true ∧
    ([1, 3].all fun st => meets { claimed with fw := { claimed.fw with slotState := [st, 2] } } 0x0F05 specFwActivate (cmd [])
      (fun t _ y => fwBusy t = false ∧ t.fw.slotState.getD (y.par 16 1) 0 = st)) = true ∧
    meets claimed 0x0F06 specFwConfirm (cmd []) = true ∧
    meets claimed 0x0F10 specPwrBudgetSet (cmd [(16, 950), (20, 9500)]) = true ∧ meets claimed 0x0F11 specPwrQuery (cmd []) = true := by decide +kernel

theorem wit_pair_commands :
    meets claimed 0x0900 specPairQuery (cmd []) = true ∧ meets inStep 0x0902 specPairSwitch (cmd []) = true ∧ meets inStep 0x0903 specPairBreak (cmd []) = true := by
  decide +kernel
/-- PAIR_FORM passes exactly where what the part learns of its partner agrees, which is a free value (log 5). -/
theorem wit_pair_form (b : Bool) :
    let known : State → Cmd → Bool := fun s c => pairStrap s && zeroB c.raw 24 24 && s.iso.tenant == 1 && mirrorPartner s == some (BitVec.ofNat 64 (c.par 16 8)) && b
    meets formable 0x0901 { specPairForm with valid := known } (cmd [(16, 5)]) = b := by
  revert b; decide +kernel

theorem wit_granular_commands :
    meetsG claimed 0x0300 specFill (cmd [(16, 64), (24, 64), (32, 8)]) = true ∧
    meetsG claimed 0x0301 specCopy (cmd [(16, 2 ^ 34), (24, 0), (32, 4160)]) = true ∧
    meetsG claimed 0x0302 specCompare (cmd [(16, 2 ^ 34), (24, 0), (32, 64), (40, 1), (42, 24)]) = true ∧
    meetsG (withDesc claimed [(8, 64), (19, 1), (20, 1), (24, 2 ^ 20), (32, 2 ^ 20)] 64) 0x0303 specReduce (descCmd 64) = true ∧
    meetsG busy 0x0311 specRedContribute (cmd [(18, 1), (24, 2 ^ 30)]) = true ∧
    meetsG busy 0x0381 specProgRun (cmd [(16, 1)]) = true ∧
    meetsG busy 0x0503 specGalLockup (cmd [(16, 1)]) = true ∧
    meetsG { busy with work := { busy.work with gals := [(1, { galley with ckpt := 1, usedC := 1 })] } } 0x0504 specGalExport (cmd [(16, 1), (24, 1), (32, 2 ^ 30)]) = true ∧
    meetsG { inStep with mir := { inStep.mir with inStep := false } } 0x0904 specPairResync (cmd []) = true := by decide +kernel
/-- The library operations of attention pass exactly where the tiles that they need, which are a free value (log 15), fit. -/
theorem wit_library_commands (b : Bool) :
    let fits : State → Cmd → Option Nat := fun _ _ => if b then none else some stENERGY
    meetsG (withDesc busy [(0, 1), (6, 1), (12, 1), (24, 2 ^ 29), (32, 2 ^ 30), (40, 2 ^ 31)] 64) 0x0402 { specAttAppend with fits := fits } (descCmd 64) = b ∧
    meetsG (withDesc busy [(0, 1), (6, 1), (8, 1), (9, 1), (12, 1), (20, 1), (28, 0x3F800000), (32, 2 ^ 29), (40, 2 ^ 30), (48, 2 ^ 31), (56, 2 ^ 28)] 128)
      0x0403 { specAttScore with fits := fits } (descCmd 128) = b ∧
    meetsG (withDesc busy [(0, 1), (6, 1), (12, 1), (16, 64), (24, 2 ^ 29)] 64) 0x0404 { specAttRedigest with fits := fits } (descCmd 64) = b := by
  revert b; decide +kernel

/-- Does the hardware opcode reach its memory stop, with `H` of the stop, its slot, itself and the state? -/
def reaches (s : State) (op : Nat) (sp : OpSpec) (c : CmdIn) (H : Nat → Nat → Cmd → State → Bool) : Bool :=
  takesCommands s && arriving s (withOpcode c op) && match entryChecks s (some sp) (withOpcode c op) with
    | (.pass x, s1) => match sp.charge x with
      | some b =>
        let (col, s2) := chargeItem s1 x.host b
        let y := { x with color := 1 }
        (ingestOf s1 x).isNone && col == 1 && unheld s2 y && goesFirst s2 y && match stopPoint (readyState s2 y false) x.host (cmdB x.raw 16 8) with
          | some pt =>
            let z := { readyCmd s2 y false with points := [112 + 8 * pt + tcOfPrio x.prio] }
            H pt (storeSlot s2 y) z ((readyState s2 y false).setCmd (storeSlot s2 y) z)
          | none => false
      | none => false
    | _ => false
theorem reaches_stop (s : State) (op : Nat) (sp : OpSpec) (c : CmdIn) (H : Nat → Nat → Cmd → State → Bool) (h : reaches s op sp c H = true) :
    ∃ pt k y u, reachesStop s sp (withOpcode c op) pt k y u ∧ H pt k y u = true := by
  unfold reaches at h
  generalize he : entryChecks s (some sp) (withOpcode c op) = e at h
  obtain ⟨a, s1⟩ := e
  cases a with
  | pass x =>
    simp only at h
    cases hb : sp.charge x with
    | none => simp [hb] at h
    | some b =>
      cases hs : stopPoint (readyState (chargeItem s1 x.host b).2 { x with color := 1 } false) x.host (cmdB x.raw 16 8) with
      | none => simp [hb, hs] at h
      | some pt =>
        simp only [hb, hs, Bool.and_eq_true, beq_iff_eq, Option.isNone_iff_eq_none] at h
        obtain ⟨⟨h0, ha⟩, ⟨⟨⟨h1, h2⟩, h3⟩, h5⟩, h4⟩ := h
        exact ⟨pt, _, _, _, ⟨x, s1, (chargeItem s1 x.host b).2, b, ⟨h0, arriving_arrives ha, he⟩, hb, h1, Prod.ext h2 rfl, h3, h5, rfl, hs, rfl, rfl⟩, h4⟩
  | _ => simp at h

/-- The same part with an item that waits at every memory stop of partition 0. -/
def queued : State := { claimed with qos := { claimed.qos with points := (List.range 10).map fun i =>
  (i, { items := [{ tc := 2, color := 1, bytes := 64, f := 0, since := 0, work := .cmd 9, tag := 0, src := 0, elig := 0 }] }) } }
theorem wit_memory_opcodes :
    let fresh := fun (pt : Nat) (y : Cmd) (u : State) => (u.point pt).items.isEmpty && u.mir.state != 1 && y.mirSeq == 0
    let waits := fun (pt _ : Nat) (_ : Cmd) (u : State) => !(u.point pt).items.isEmpty
    reaches claimed 0x0101 specMemRead (cmd [(24, 64), (32, 2 ^ 20)]) (fun pt _ y u => fresh pt y u &&
      match (readGran { u with mir := { u.mir with saw := false } } y.host (cmdB y.raw 16 8) (cmdB y.raw 24 4)).1 with
      | .ok _ => true
      | _ => false) = true ∧
    reaches claimed 0x0102 specMemWrite (cmd [(24, 64), (32, 2 ^ 20)]) (fun pt _ y u => fresh pt y u && match writeData u y (cmdB y.raw 24 4) with
      | (some bs, w) => match (writeGran { w with mir := { w.mir with cur := none, saw := false } } y.host (cmdB y.raw 16 8) bs).1 with
        | .ok _ => true
        | _ => false
      | _ => false) = true ∧
    reaches claimed 0x0103 specMemAtomic (cmd [(25, 8), (32, 1)]) (fun pt _ y u => fresh pt y u &&
      match (atomicRa { u with mir := { u.mir with cur := none, saw := false } } y.host (cmdB y.raw 16 8) (cmdB y.raw 25 1)
        (fun o => atomicOp (cmdB y.raw 25 1) (cmdB y.raw 24 1) o (cmdB y.raw 32 (cmdB y.raw 25 1)))).1 with
      | .ok _ => true
      | _ => false) = true ∧
    reaches claimed 0x0104 specMemCas (cmd [(25, 8), (40, 1)]) (fun pt _ y u => fresh pt y u &&
      match (atomicRa { u with mir := { u.mir with cur := none, saw := false } } y.host (cmdB y.raw 16 8) (cmdB y.raw 25 1)
        (fun o => if o = cmdB y.raw 32 (cmdB y.raw 25 1) then cmdB y.raw 40 (cmdB y.raw 25 1) else o)).1 with
      | .ok _ => true
      | _ => false) = true ∧
    reaches queued 0x0101 specMemRead (cmd [(24, 64), (32, 2 ^ 20)]) waits = true ∧ reaches queued 0x0102 specMemWrite (cmd [(24, 64), (32, 2 ^ 20)]) waits = true ∧
    reaches queued 0x0103 specMemAtomic (cmd [(25, 8), (32, 1)]) waits = true ∧ reaches queued 0x0104 specMemCas (cmd [(25, 8), (40, 1)]) waits = true := by decide +kernel

/-! ## Witnesses of the statements about rows, timers and events -/

theorem wit_step : (∃ s : State, s.pending = []) := ⟨State.reset, rfl⟩
theorem wit_int : intDriven State.reset ∧ step State.reset = .next { State.reset with now := 1 } := ⟨⟨by decide, by decide⟩, rfl⟩
theorem wit_goes_on : (Instr.energyBucket).wf = true ∧ (Instr.rflCtrlUp 13).wf = true ∧ (Instr.resynchronisationData (2 ^ 44 + 1) (List.replicate 4096 0)).wf = true ∧
    ((lineCuts (2 ^ 44 + 1) 4096).all fun o => backed claimed (2 ^ 44 + 1 + o)) = true := by decide +kernel

theorem wit_entry_refusals :
    takesCommands claimed = true ∧ claimed.fw.standby = false ∧ claimed.mir.state ≠ 1 ∧ cmdB (cmd [(2, 0x10)]).raw 2 1 / 16 ≠ 1 ∧
    cmdB (cmd []).raw 2 1 / 16 = 1 ∧ tagInUse oneHeld (.ring 0) (tagOf (cmd [] 3).raw) = true ∧ takesCommands oneHeld = true ∧ oneHeld.mir.state ≠ 1 ∧
    arriving claimed (cmd []) = true ∧ arriving oneHeld (cmd [] 3) = true ∧ portCause claimed (.rank 1) 0 = some 7 ∧ chanRuns claimed (.rank 1) = true ∧
    (let s : State := { claimed with iso := { claimed.iso with hostsA := [(0, { admin := true, path := 2 })], tdisp := [(0, 1)] } }
     takesCommands s = true ∧ chanRuns s (.ring 0) = false) := by decide +kernel
theorem wit_unserved : serving State.reset = false := by decide
/-- A command that waits for object 0 to reach a count that it does not have. -/
theorem wit_unmet_wait : (match entryChecks { claimed with sync := { claimed.sync with objs := [(0, { valid := true, oWait := true, thr := 1 })] } } (some specSyncRead)
      (withOpcode (cmd [(12, 1)]) 0x0604) with
    | (.pass x, s1) => (specSyncRead.charge x).isNone && opcodeOf (taken s1 x).1.raw != 0x0100 && waitsOf (taken s1 x).2 (taken s1 x).1.raw == .unmet
    | _ => false) = true := by decide +kernel

theorem wit_qos_rows :
    let item (w : QWork) : QItem := { tc := 2, color := 1, bytes := 64, f := 0, since := 0, work := w, tag := 0, src := 0, elig := 0 }
    let at_ (x : QItem) : State := { oneHeld with
      qos := { oneHeld.qos with points := [(0, { items := [x] })], histEn := true, snapBusy := true }
      store := { oneHeld.store with cmds := tabMap (fun _ c => { c with st := .queued }) oneHeld.store.cmds } }
    let s := at_ (item (.cmd 0))
    let served (x : QItem) : Bool := stopNext (at_ x) (stopNow (at_ x) 0) == some x
    served (item (.cmd 0)) = true ∧ (s.cmd 0).any (fun c => c.st == .queued) = true ∧ served (item (.burst 1 [])) = true ∧
    served (item (.coh 1 { rank := 0, win := 0, agent := 0, line := 0, txn := 1, token := 0, data := 0, poison := false })) = true ∧
    stopNext claimed (stopNow claimed 79) = none ∧ barWrite s 0x60 = true ∧
    s.qos.histEn = true ∧ s.qos.ticks < s.now / 1000 ∧ s.qos.snapBusy = true ∧ ({ s with now := 999 } : State).now / 1000 ≤ s.qos.ticks ∧
    (0x800002F7 : W32).toNat % 1024 = 759 ∧ bitOf (0x800002F7 : W32).toNat 31 = true ∧ bitOf (2 : W32).toNat 1 = true := by decide +kernel

theorem wit_ring_rows :
    ringsUp claimed = true ∧ (claimed.ring 1023).en = false ∧ (0x186 * 2 ^ 4 : Nat) ≥ 0 ∧
    (let v : W32 := BitVec.ofNat 32 (6 * 2 + 16 * 2 ^ 6)
     6 ≤ v.toNat / 2 % 32 ∧ v.toNat / 2 % 32 ≤ 16 ∧ 7 ≤ v.toNat / 2 ^ 6 % 32 ∧ v.toNat / 2 ^ 6 % 32 ≤ 16) ∧
    (claimed.ring 1023).fetchErr = false ∧ (claimed.ring 1023).writeErr = false ∧ (claimed.ring 0).en = true ∧ (claimed.ring 0).disabling = false ∧
    (claimed.ring 0).errs = false ∧ (0x0A : W32).toNat / 2 % 32 < 6 ∧
    (let s := claimed.setRing 0 { claimed.ring 0 with disabling := true }
     (s.ring 0).en = true ∧ (s.ring 0).disabling = true ∧ outstanding s (.ring 0) = 0) ∧
    (let s := claimed.setRing 0 { claimed.ring 0 with sqTail := 1, bells := [(1, 5)] }
     mayFetch claimed 0 = false ∧ mayFetch s 0 = true ∧ s.hostFails 0 64 = false ∧ (s.host 0).all (fun h => h.path != 3) = true ∧
     ({ s with mem := { s.mem with hostBad := [(0, 64)] } } : State).hostFails 0 64 = true) := by decide +kernel

theorem wit_store_timers :
    let c : Cmd := { chan := .ring 0, raw := (cmd [(12, 64)]).raw, st := .held, accepted := 10 ^ 9 - 100000 }
    let s : State := { claimed with store := { claimed.store with cmds := [(0, c), (1, { c with st := .queued, color := 2, visible := 10 ^ 9 - 16000 }), (2, { c with accepted := 10 ^ 9, visible := 10 ^ 9 })]
                                                                  refusals := [{ chan := .ring 0, raw := 0, txn := 0, due := 10 ^ 9, host := 0, cause := 1, access := 0, addr := 0, prio := 0, clamped := false, seq := 0, ord := 0 }] } }
    s.cmd 0 = some c ∧ waitLimit c.raw ≠ 0 ∧ pairHeld s = false ∧ unitDown s (unitOf 5 2) = false ∧ c.accepted + 100000 * waitLimit c.raw ≤ s.now ∧
    (s.cmd 1).any (fun c => c.st == .queued && c.color == 2 && decide (c.visible + 16000 ≤ s.now)) = true ∧
    (s.cmd 2).any (fun c => decide (s.now < c.accepted + 100000 * waitLimit c.raw) && decide (s.now < c.visible + 16000)) = true ∧
    (s.store.refusals[0]?).any (fun r => decide (r.due ≤ s.now) && r.key.isNone && r.seq == 0) = true ∧
    (({ s with now := 0 } : State).store.refusals[0]?).any (fun r => decide (0 < r.due)) = true ∧
    (({ s with store := { s.store with refusals := [{ chan := .ring 0, raw := 0, txn := 0, due := 10 ^ 9, host := 0, cause := 1, access := 0, addr := 0, prio := 0, clamped := false, key := some 2 }] } } : State).store.refusals[0]?).any
      (fun r => decide (r.due ≤ s.now) && r.key == some 2) = true ∧
    (({ c with st := .queued, color := 4, visible := 10 ^ 9 - 16000 } : Cmd).visible + 16000 ≤ s.now) := by decide +kernel

/-- Contribution 1 to slot 0, of kind 1, whose row is in place. -/
def contribution (st : CmdSt) (g : Nat := 0) : Cmd :=
  { chan := .ring 0, raw := (withOpcode (cmd [(18, 1), (24, 2 ^ 20), (32, 1)]) 0x0311).raw, st := st, loads := [(0, 1)], progress := g, total := 1 }
def reducing (f : Slot → Slot) (c : Cmd := contribution .ready) : State :=
  { busy with work := { busy.work with slots := [(0, f { slot with res := 2 ^ 23 })] }, store := { busy.store with cmds := [(0, c)], seq := 1 } }
/-- A FILL and a COPY of 64 bytes, at their first granule. -/
def granular (op : Nat) (l : List (Nat × Nat)) (st : CmdSt) (parts : List Nat := [0]) (at_ : Nat := 0) : State :=
  let c : Cmd := { chan := .ring 0, raw := (withOpcode (cmd l) op).raw, st := st, total := 1, size := 64, rAdm := 1, idle := 1, loads := parts.map fun p => (p, 1), startedAt := at_ }
  { claimed with store := { claimed.store with cmds := [(0, c)], seq := 1 } }
theorem wit_operations :
    let fill := [(16, 64), (24, 64), (32, 8)]
    let r := granular 0x0300 fill .ready
    let lib := granular 0x0404 [(16, 1)] .ready
    let poor : State := { lib with pwr := { lib.pwr with eB := 0, window := 1 } }
    let o : State := r.setPart 0 { part with state := 7 }
    let waits := granular 0x0604 [] .ready
    let g := granular 0x0300 fill .running
    let early := granular 0x0300 fill .running [0] (10 ^ 9 + 1)
    let y := granular 0x0301 [(16, 64), (24, 0), (32, 64)] .running
    (r.cmd 0).any (fun c => !halted r && c.st == .ready && !ownRows (opcodeOf c.raw) && !heldOn r c && !pairWaits r c && !r.pwr.hold && !libStarts (opcodeOf c.raw)
      && !needsOffline r c && ((specOf (opcodeOf c.raw)).any fun sp => (sp.total r c).isSome)) = true ∧
    (o.cmd 0).any (fun c => !halted o && !ownRows (opcodeOf c.raw) && needsOffline o c && ((specOf (opcodeOf c.raw)).any fun sp => (sp.total o c).isSome)) = true ∧
    (reducing id).slot 0 ≠ none ∧ ((reducing id).cmd 0).any (fun c => opcodeOf c.raw == 0x0311 && c.st == .ready && !ownRows 0x0311 && !needsOffline (reducing id) c) = true ∧
    (poor.cmd 0).any (fun c => libStarts (opcodeOf c.raw) && !c.started && !needsOffline poor c) = true ∧
    (waits.cmd 0).any (fun c => !c.started && !ownRows (opcodeOf c.raw) && !libStarts (opcodeOf c.raw) && !heldOn waits c && !pairWaits waits c
      && ((specOf (opcodeOf c.raw)).any fun sp => (sp.total waits c).isNone)) = true ∧
    (g.cmd 0).any (fun c => !halted g && ((specOf (opcodeOf c.raw)).any fun sp => sp.step.isSome) && c.mirSeq == 0 && granTurn g 0 c &&
      match (writeAll (accessing g) c.host (fillDst c + granOff (fillDst c) c.progress)
        ((List.range (granLen (fillDst c) (fillLen c) c.progress)).map fun i => fillByte c (granOff (fillDst c) c.progress + i))).1 with
      | .ok _ => true
      | _ => false) = true ∧
    (y.cmd 0).any (fun c => granTurn y 0 c && match readAll (accessing y) c.host (c.par 24 8 + granOff (c.par 16 8) c.progress) (granLen (c.par 16 8) (c.par 32 8) c.progress) with
      | (.ok bs, u) => (match (writeAll u c.host (c.par 16 8 + granOff (c.par 16 8) c.progress) bs).1 with
        | .ok _ => true
        | _ => false)
      | _ => false) = true ∧ (early.cmd 0).any (fun c => c.st == .running && !granTurn early 0 c) = true := by decide +kernel

/-- A run of program 1 on tile 0, whose next word is operation `op` with fields `i`. -/
def field0 : TI := { d := 0, a := 0, b := 0, c := 0, fmt := 0, imm := 0 }
def running (op : Nat) (i : TI := field0) (f : Tile → Tile := id) : State :=
  { busy with
    churn := { busy.churn with tiles := [(0, f { st := .running, run := some 0, slots := [(1, 0, 1, 0, 56)], imem := [(0, encodeTI op i)] })] }
    store := { busy.store with cmds := [(0, { chan := .ring 0, raw := (withOpcode (cmd [(16, 1)]) 0x0381).raw, st := .running, started := true })], seq := 1 } }
theorem wit_tiles : ∀ op ∈ [0x00, 0x01, 0x02, 0x03, 0x04, 0x05, 0x06, 0x07, 0x08, 0x10, 0x11, 0x12, 0x13, 0x14, 0x15, 0x16, 0x17, 0x18, 0x19, 0x1A, 0x1B, 0x1C,
    0x20, 0x21, 0x22, 0x23, 0x24, 0x25, 0x30, 0x31, 0x32, 0x40, 0x41, 0x42, 0x43, 0x44, 0x45, 0x50, 0x51, 0x52, 0x53, 0x54, 0x55, 0x56, 0x57,
    0x60, 0x61, 0x62, 0x63, 0x64, 0x65, 0x66, 0x67, 0x68, 0x70, 0x71, 0x78, 0x79, 0x7A], issues (running op) 0 op field0 = true := by decide +kernel
/-- A word with a single-bit and one with a double-bit error. -/
theorem wit_fetch_errors :
    let s (x : BitVec 72) := running 0x10 field0 fun t => { t with imemErr := [(0, x)] }
    fetches (s 1) 0 0x10 field0 = true ∧ flips (((s 1).tile 0).fetchErr) = 1 ∧ fetches (s 3) 0 0x10 field0 = true ∧ ((s 3).tile 0).fetchErr ≠ 0 ∧
    flips (((s 3).tile 0).fetchErr) ≠ 1 ∧ fetches (running 0x11) 0 0x10 field0 = false ∧ fetches (running 0x11) 0 0x40 field0 = false ∧
    scratchSingles ((s 1).tile 0) 0 64 = [] := by decide +kernel
theorem wit_scratch :
    let t := (running 0x20).tile 0
    scratchAddr t field0 64 = some 0 ∧ scratchBad t (t.scrAt + 0) 64 = false ∧ scratchAddr t { field0 with imm := 57336 } 8 = some 57336 ∧
    scratchAddr t { field0 with imm := 57344 } 64 = none ∧ issues (running 0x20 { field0 with imm := 57344 }) 0 0x20 { field0 with imm := 57344 } = true ∧
    scratchBad { t with scratchPoison := [7] } 0 64 = true := by decide +kernel
theorem wit_streams :
    let q : Xfer := { load := true, ra := 0, sa := 0, stride := 0, rows := 1, lines := 1 }
    let e : Engine := { queue := [{ q with row := 1 }] }
    (xferOf ((running 0x30).tile 0) field0 true).isSome ∧ (xferOf ((running 0x31).tile 0) field0 false).isSome ∧ (((running 0x30).tile 0).eng false).queue.length < 8 ∧
    8 ≤ (((running 0x30 field0 fun t => { t with e0 := { queue := List.replicate 8 q } }).tile 0).eng false).queue.length ∧
    xferOf ((running 0x30 { field0 with a := 1 } fun t => { t with s := [(1, 1)] }).tile 0) { field0 with a := 1 } true = none ∧ (runOf (running 0x79) 0).isSome ∧
    (let s := running 0 field0 fun t => { t with e0 := e }
     ((s.tile 0).eng false).wait = 0 ∧ ((s.tile 0).eng false).halted = false) ∧
    mayBurst (running 0 field0 fun t => { t with e0 := { queue := [q] } }) 0 false = true ∧ (running 0).prog 1 = some prog ∧
    ((running 0).tile 0).st.active = true ∧ prog.maxCyc < workCycles (running 0 field0 fun t => { t with work := 1000 * 1000001 }) 0 ∧ workCycles (running 0 field0 fun t => { t with startAt := 10 ^ 9 }) 0 ≤ prog.maxCyc := by
  decide +kernel
theorem wit_tile_waits :
    let raw : W512 := BitVec.ofNat 512 (fields [(2, 0x10), (16, 1), (3, 4)])
    let c : Cmd := { chan := .ring 0, raw := raw, desc := leBytes 128 (fields [(0, 1), (4, 100)]), st := .running }
    c.runWaitUs ≠ 0 := by decide +kernel

/-! ## Witnesses of the statements about runs, windows and tenancy -/

/-- A run of program 1 that is ready in slot 0. -/
def runReady (f : Cmd → Cmd := id) : State :=
  { busy with store := { busy.store with cmds := [(0, f { chan := .ring 0, raw := (withOpcode (cmd [(16, 1)]) 0x0381).raw, st := .ready })], seq := 1 } }
theorem wit_runs_start :
    let s := runReady
    let poor : State := { s with pwr := { s.pwr with eB := 0, window := 1 } }
    (s.cmd 0).any (fun c => opcodeOf c.raw == 0x0381 && c.st == .ready && s.prog c.runHandle == some prog && prog.state != 3 && !s.pwr.hold && ctlServes s prog.tiles
      && !earlierRun s 0 c prog.tiles && !(prog.tiles.any (tileTaken s))
      && (c.started || energyFits s (prog.tiles.length * tilePower 0 * (prog.maxCyc / 600) / 1000000000))) = true ∧
    ((runReady fun c => { c with started := true }).cmd 0).any (fun c => c.started) = true ∧
    (let t := s.setTile 0 { s.tile 0 with run := some 1 }
     (t.cmd 0).any (fun c => !t.pwr.hold && ctlServes t prog.tiles && !earlierRun t 0 c prog.tiles && prog.tiles.any (tileTaken t)) = true) ∧
    (poor.cmd 0).any (fun c => !c.started && !earlierRun poor 0 c prog.tiles && !(energyFits poor (prog.tiles.length * tilePower 0 * (prog.maxCyc / 600) / 1000000000))) = true ∧
    ({ s with churn := { s.churn with progs := [(1, { prog with state := 3 })] } } : State).prog 1 = some { prog with state := 3 } ∧
    ({ s with pwr := { s.pwr with hold := true } } : State).pwr.hold = true := by decide +kernel

def xfault : XFault := { id := 1, key := 0, ga := 0, host := 0, owner := 0, kind := 0, access := 1, expiry := 10 ^ 9 }
theorem wit_object_and_fault_events :
    let s : State := { claimed with xlt := { claimed.xlt with pending := [xfault] }, sync := { claimed.sync with inFlight := [(16383, .signal 1)] } }
    s.sync.inFlight.filter (·.1 == 16383) ≠ [] ∧ claimed.sync.inFlight.filter (·.1 == 0) = [] ∧
    s.xlt.pending.find? (fun g => g.id == xfault.id && !g.written) = some xfault ∧
    s.xlt.pending.find? (fun g => g.id == xfault.id && decide (g.expiry ≤ s.now) && !pairHeld s) = some xfault ∧ ({ s with now := 0 } : State).now < xfault.expiry := by
  decide +kernel

/-- A request of agent 0, the rank 0, for line `line` of window 0. -/
def coh (line : Nat) : CohMsg := { rank := 0, win := 0, agent := 0, line := line, txn := 1, token := 0, data := 0, poison := false }
/-- Window 0 is open, with the transactions given. -/
def opened (trans : Tab Trans := []) : State := { busy with coh := { busy.coh with wins := [(0, { window with state := 1, cause := 0, trans := trans })] } }
theorem wit_coherent_requests :
    let w := (opened).win 0
    let l : Trans := { agent := 0, code := 1, txn := 1, snoops := [] }
    let red : State := { opened with qos := { opened.qos with meters := [(0, { unmetered := false, cir := 0, pir := 0, cbs := 0, pbs := 0, tc := 0, tp := 0, last := 10 ^ 9 })] } }
    w.state = 1 ∧ agentListed w (coh 63) = true ∧ (coh 63).line < w.len / 64 ∧ pairHeld (opened) = false ∧ (coh 63).token = 0 ∧
    (let x := chargeItem (opened) (agentHost (opened) w 0) 64
     let a := winLine w 63
     x.1 = 1 ∧ (x.2.point (10 * ppaPart a + stopOf x.2 a)).items = [] ∧ gated x.2 a = false) ∧
    (let q : State := { opened with qos := queued.qos }
     let x := chargeItem q (agentHost q (q.win 0) 0) 64
     let a := winLine (q.win 0) 63
     x.1 ≠ 3 ∧ (x.2.point (10 * ppaPart a + stopOf x.2 a)).items ≠ []) ∧ (tabFind w.trans 63).isSome = false ∧ (tabFind ((opened [(63, l)]).win 0).trans 63).isSome = true ∧
    (chargeItem red (agentHost red (red.win 0) 0) 64).1 = 3 ∧ (busy.win 0).state ≠ 1 ∧ agentListed w { coh 0 with rank := 1 } = false ∧
    w.len / 64 ≤ (coh 64).line := by decide +kernel
theorem wit_directory :
    let e : Nat → List Nat → DirE := fun st p => { st := st, ptrs := p }
    (e 0 []).st = 0 ∧ (e 1 [63]).st = 1 ∧ (e 1 [63]).ptrs.contains 63 = true ∧ (e 3 []).st = 3 ∧
    (e 1 [1, 2, 3]).ptrs.contains 63 = false ∧ (e 1 [1, 2, 3]).ptrs.length < 4 ∧ 4 ≤ (e 1 [1, 2, 3, 4]).ptrs.length := by decide
/-- Window 0 with the entry of line 0 written: agent 0 owns it. -/
def owned : State := dirWrite (opened) ((opened).win 0) 0 { st := 2, ptrs := [0] }
theorem wit_coherent_answers :
    let t := chargeReserved owned (agentHost owned (owned.win 0) 0) 64
    let x : Trans := { agent := 1, code := 2, txn := 1, snoops := [{ agent := 0, inv := true, at_ := 0 }] }
    let o := opened [(0, x)]
    let d : State := { owned with coh := { owned.coh with wins := [(0, { owned.win 0 with tokens := [{ value := 1, agent := 0, line := 0, expiry := 10 ^ 9 }] })] } }
    (owned.win 0).state = 1 ∧ agentListed (owned.win 0) (coh 0) = true ∧ pairHeld owned = false ∧ snooped (owned.win 0) 0 0 = false ∧
    (dirRead t (owned.win 0) 0).1.any (fun e => e.st == 2 && e.ptrs == [0]) = true ∧
    ((cohWrite (dirRead t (owned.win 0) 0).2 (owned.win 0) (coh 0)).win 0).state = 1 ∧
    snooped (o.win 0) 0 0 = true ∧ (o.win 0).discards.contains (0, 0) = false ∧ (owned.win 0).discards.contains (0, 0) = false ∧
    tabFind (o.win 0).trans 0 = some x ∧ (x.snoops.any fun y => y.agent == 0 && decide (y.at_ + 1000 * (o.win 0).snoopUs ≤ o.now)) = true ∧
    (x.snoops.any fun y => y.agent == 0 && decide (y.at_ + 1000 * (o.win 0).snoopUs ≤ 99999)) = false ∧
    (d.win 0).tokens = [{ value := 1, agent := 0, line := 0, expiry := 10 ^ 9 }] ∧ (d.win 0).waits = [] ∧ tokQueued d 0 1 = false ∧ 10 ^ 9 ≤ d.now ∧ ({ d with now := 0 } : State).now < 10 ^ 9 := by
  decide +kernel

/-- A part before its claim, whose fuses hold the hash of an empty operator key; and a ticket of that key. -/
def unclaimed : State := { claimed with iso := { State.reset.iso with tenant := 0, pendingP := 0 }, fuses := { claimed.fuses with opKeyHash := Config.sha384 [] } }
def ticket : Ticket := { opKey := [], adminKey := [1], tenantId := 0, deviceId := 0, claimCounter := 0, ownerHash := [], sig := [] }
/-- The signature check is uninterpreted (log 6): where it accepts the ticket, the part does. -/
theorem wit_claim (h : Config.sigOk [] (ticketBytes ticket) [] = true) : secServes unclaimed = true ∧ unclaimed.flt.recovery = false ∧ unclaimed.iso.tenant = 0 ∧
    ticketOk unclaimed ticket = true := ⟨by decide +kernel, by decide, by decide, by simp [ticketOk, ticket, unclaimed, claimed] at *; exact ⟨⟨h, by decide⟩, by decide⟩⟩
theorem wit_claim_bad : ticketOk unclaimed { ticket with deviceId := 1 } = false := by simp [ticketOk, ticket, unclaimed, claimed, State.reset]
/-- A CLAIMED part with session 31 of its administrator. -/
def admin : State := { claimed with iso := { claimed.iso with sessions := [(31, { established := true, mutualKey := some [] })] } }
theorem wit_release_and_scrub :
    let s : State := { claimed with iso := { claimed.iso with tenant := 3, pendingP := 0x82 } }
    secServes admin = true ∧ admin.flt.recovery = false ∧ admin.iso.tenant ≠ 0 ∧ secAuth admin (some 31) = true ∧ secAuth admin none = false ∧ secAuth admin (some 0) = false ∧
    s.iso.tenant = 3 ∧ bitOf s.iso.pendingP.toNat 1 = true ∧ s.online 1 = true ∧ s.iso.pendingP &&& ~~~(BitVec.ofNat 8 (2 ^ 1)) ≠ 0 ∧
    ((0x80 : Byte) &&& ~~~(BitVec.ofNat 8 (2 ^ 7)) = 0) ∧ bitOf (0x80 : Byte).toNat 7 = true := by decide +kernel
theorem wit_release_ticket (h : Config.sigOk [] (ticketBytes ticket) [] = true) :
    ∃ s : State, s.iso.tenant = 1 ∧ ticketOk s ticket = true ∧ ticket.adminKey = s.iso.adminKey ∧ ticket.tenantId = s.iso.tenantId :=
  ⟨{ unclaimed with iso := { unclaimed.iso with tenant := 1, adminKey := [1] } }, rfl, (wit_claim h).2.2.2, rfl, rfl⟩

/-- The same with binding set 1 loaded and, at address 0, the header of an image of 4 MiB. -/
def bound : State :=
  { admin with
    iso := { admin.iso with bindSets := [(1, { key := [], members := [], cpuHost := false })] }
    mem := { admin.mem with bytes := memPutL [] (2 ^ 44) (leBytes 128 (fields [(0, 1), (4, 1), (8, 2 ^ 22)])) } }
theorem wit_administrator :
    adminTakes admin (some 31) = true ∧ secAuth admin none = false ∧ admin.mir.state = 0 ∧ (weightUnwrap admin .plain 0 0 0).1 = some rBAD_IMAGE ∧ (weightUnwrap bound .plain 0 (2 ^ 34) 0).1 = none ∧
    (weightUnwrap bound .plain 0 (2 ^ 34) 0).2.mir.state = 0 ∧ commitWaits admin (some 31) = false ∧
    adminTakes bound (some 31) = true ∧
    tabFind admin.iso.hostsS 0 = some { admin := true } ∧ tabFind admin.iso.bound 0 = none ∧ (grantSlot admin.iso.grantsS 0 0).isSome = true ∧
    grantSlot admin.iso.grantsS 65535 (2 ^ 20 - 1) = none ∧
    ((grantSlots 65535 (2 ^ 20 - 1)).find? fun i => (tabFind admin.iso.grantsS i).isNone).isSome = true := by decide +kernel
def unwrap : Unwrap := { rid := 1, dstPpa := 0, setId := 0, length := 2 ^ 22, next := 0, src := 0, host := 0, header := [] }
theorem wit_chunks :
    let u : Unwrap := { unwrap with length := 64, dstPpa := 2 ^ 44 + 2 ^ 30 }
    secServes claimed = true ∧ destBusy claimed u = false ∧ tierUp claimed (ppaCream (u.dstPpa + u.next * 2 ^ 22)) (ppaPart (u.dstPpa + u.next * 2 ^ 22)) = true ∧
    tierUp (claimed.setPart 0 { part with state := 7 }) (ppaCream u.dstPpa) (ppaPart u.dstPpa) = false ∧
    (match (readGran claimed u.host (chunkAt u) (chunkLen u + 16)).1 with | .ok _ => true | _ => false) = true ∧ u.length ≤ u.next * 2 ^ 22 + chunkLen u ∧
    (let v : Unwrap := { unwrap with length := 2 ^ 22 + 1 }
     v.next * 2 ^ 22 + chunkLen v < v.length) ∧ claimed.mir.state = 0 := by decide +kernel

/-- Session 1, without and with its FINISH; the connection on each path is past the algorithms. -/
def session (e : Bool) : State :=
  { claimed with iso := { claimed.iso with sessions := [(1, { established := e })], spdm := [(0, 3)], tdisp := [(1, 1), (16, 2)] } }
theorem wit_sessions :
    secServes (session false) = true ∧ tabFind (session false).iso.sessions 1 = some {} ∧ tabFind (session true).iso.sessions 1 = some { established := true } ∧
    3 ≤ tabGet 0 (session false).iso.spdm 0 ∧ tabGap (session false).iso.sessions 0 < 32 ∧ tabGet 0 (session true).iso.tdisp 0 = 0 ∧
    tabGet 0 (session true).iso.tdisp 1 = 1 ∧ tabGet 0 (session true).iso.tdisp 16 ≠ 0 ∧ ((session true).iso.streams.filter (· != 0)).length < 16 := by decide +kernel
/-- The proof of FINISH is checked outside the manual (log 6): it is good or it is not. -/
theorem wit_finish (key proof : List Byte) (n : Nat) : Config.finishOk key proof n = true ∨ Config.finishOk key proof n = false := by
  cases Config.finishOk key proof n <;> simp
/-- The host of a session is one, or none, as the part is set up (log 41). -/
theorem wit_session_host (x : Session) : (∃ h, Config.sessionHost x.serial x.mutualKey = some h) ∨ Config.sessionHost x.serial x.mutualKey = none := by
  cases Config.sessionHost x.serial x.mutualKey <;> simp

/-! ## Witnesses of the statements about power, boot and links -/

theorem wit_pins :
    let r := State.reset
    let low (b : Bool) : State := { r with now := 2 * 10 ^ 9, pins := { r.pins with resetN := false, pwrgdHighAt := if b then 0 else 2 * 10 ^ 9 }, boot := { r.boot with inReset := true } }
    let trip (t : Nat) : State := { r with now := 10 ^ 8 + t, pins := { r.pins with pwrgd := false, pwrgdLowAt := 1 }, saf := { r.saf with tripped := true } }
    r.pins.vddSaf = true ∧ r.pins.resetN = true ∧ r.pins.pwrgd = true ∧ pcieUp r = true ∧ releaseOk (low true) = true ∧ releaseOk (low false) = false ∧
    (low true).pins.resetLowAt + 1000000000 ≤ (low true).now ∧ (trip 1).pins.pwrgdLowAt + 100000000 ≤ (trip 1).now ∧
    (trip 0).now < (trip 0).pins.pwrgdLowAt + 100000000 ∧ ({ r with pins := { r.pins with vddSaf := false } } : State).pins.vddSaf = false := by decide +kernel

/-- The part in a boot stage, `n` ns after it began. -/
def booting (stage n : Nat) : State := { State.reset with now := n, boot := { State.reset.boot with stage := stage } }
theorem wit_boot :
    let b := booting 1 1000000
    (booting 0 0).boot.inReset = false ∧ (booting 0 0).saf.tripped = false ∧ (booting 0 0).flt.failed = false ∧
    ({ b with boot := { b.boot with strapsValid := true } } : State).boot.strapsValid = true ∧ (slotChoose (booting 2 0) fun _ => true).1 = some 0 ∧
    (slotChoose (booting 2 0) fun _ => false).1 = none ∧ (booting 2 0).boot.bootSel = 0 ∧ (booting 5 0).boot.stage = 5 ∧
    (booting 2 500000001).boot.stageAt + 500000000 < (booting 2 500000001).now ∧ (booting 2 500000000).now ≤ (booting 2 500000000).boot.stageAt + 500000000 ∧
    b.boot.stageAt + 1000000 ≤ b.now ∧ ({ b with boot := { b.boot with samples := [5, 5] } } : State).boot.samples = [5, 5] := by decide +kernel

/-- A part whose port 13 has the link given. -/
def linked (l : Link) : State := claimed.setLink 13 l
def active : Link := { state := 3, e := 5 }
def txFlit : TxFlit := { seq := 0, vc := 0, sop := true, eop := true, rank := 0, bytes := [1], pkt := none }
/-- A flit with the type in its header, its payload and its CRC under `seed`. -/
def flit (seed ty : Nat) (pay : List Byte := []) : List Byte :=
  let b := leBytes 8 ty ++ pay ++ List.replicate (240 - pay.length) 0
  b ++ leBytes 8 (crc64 seed b)
theorem wit_flits_arrive :
    let s := linked active
    let good : Nat → List Byte → Bool := fun seed f => f.length == 256 && leAt f 248 8 == crc64 seed (f.take 248)
    let h : Nat → Bool × State := fun ty => takeHeader s 13 ty
    (s.link 13).state = 3 ∧ (s.link 13).discard = false ∧ (s.link 13).replayPos = none ∧
    ([0, 1, 5, 6].all fun ty => good 5 (flit 5 ty) && leAt (flit 5 ty) 0 8 % 16 == ty && (h ty).1) = true ∧
    ([2, 3, 4].all fun ty => good 0x10000 (flit 0x10000 ty) && leAt (flit 0x10000 ty) 0 8 % 16 == ty && (h ty).1) = true ∧
    (((h 2).2.link 13).e + 65536 - leAt (((flit 0x10000 2).drop 8).take 240) 0 2) % 65536 ≤ 1024 ∧
    good 5 (flit 6 0) = false ∧ good 0x10000 (flit 6 0) = false ∧ leAt (flit 6 0) 0 8 % 16 = 0 ∧
    ([0, 1, 2, 3, 5, 6].all fun ty => headerOk active (leAt (flit 5 ty) 0 8)) = true ∧ headerOk { active with replayBuf := [txFlit], txSeq := 1 } (1 + 2 ^ 20 * 1) = true ∧
    ackCount { active with replayBuf := [txFlit], txSeq := 1 } (1 + 2 ^ 20 * 1) = 1 ∧ ((linked { active with state := 2 }).link 13).state = 2 ∧
    ((linked { active with replayPos := some 4 }).link 13).replayPos = some 4 ∧ good 4 (flit 4 0) = true ∧
    ((linked { active with discard := true }).link 13).discard = true := by decide +kernel

theorem wit_flits_transmit :
    (noteStarved { active with nakDue := true } 0).nakDue = true ∧ (noteStarved { active with markDue := some 1 } 0).markDue = some 1 ∧
    (noteStarved active 0).nakDue = false ∧ (noteStarved active 0).markDue = none ∧ (noteStarved { active with run := 46, replaying := [txFlit] } 0).run < 47 ∧
    (noteStarved { active with run := 46, replaying := [txFlit] } 0).replaying = [txFlit] ∧
    (let l := noteStarved { active with waiting := [txFlit], credits := [1, 0, 0, 0, 0, 0], replayBuf := List.replicate 3 txFlit } 0
     l.replayBuf.length < 1024 ∧ l.replaying = [] ∧ readyFlit l = some 0 ∧ l.waiting[0]? = some txFlit) ∧
    47 ≤ (noteStarved { active with run := 47 } 0).run ∧ readyFlit (noteStarved active 0) = none := by decide +kernel

theorem wit_link_timers :
    let held := linked { active with replayBuf := [txFlit], timerAt := claimed.now - 2000, starved := [none, none, none, none, none, some (claimed.now - 100000)] }
    let init := linked { active with state := 2, initAt := claimed.now - 1000 }
    let off := linked { active with state := 5, holdAt := 0 }
    let seen := off.setLanePort 13 { lanes := (List.range 2).map fun n => (n, { signal := true }) }
    let left : State := { held with now := held.now - 1 }
    let re := (linked { active with state := 4, retrainAt := claimed.now - 5000000 }).setLanePort 13 { retrain := true }
    (held.link 13).timerAt + 100 * (held.link 13).replayTimer ≤ held.now ∧ (held.link 13).replayBuf ≠ [] ∧ ((linked active).link 13).replayBuf = [] ∧
    (held.link 13).starved.getD 5 none = some (held.now - 100000) ∧ (held.now - 100000) + 1000 * (held.link 13).creditToUs ≤ held.now ∧
    (init.link 13).state = 2 ∧ (init.link 13).initAt + 1000 ≤ init.now ∧ ({ init with now := 0 } : State).now < (init.link 13).initAt + 1000 ∧
    (off.link 13).state = 5 ∧ (off.link 13).holdAt + 1000000000 ≤ off.now ∧ (lanesWhere (off.lanePort 13) (·.signal)).length < 2 ∧ barWrite off 0x20 = true ∧
    (seen.lanePort 13).tstate = 0 ∧ 2 ≤ (lanesWhere (seen.lanePort 13) (·.signal)).length ∧ ({ off with now := 999999999 } : State).now < (off.link 13).holdAt + 1000000000 ∧
    left.now < (held.link 13).timerAt + 100 * (held.link 13).replayTimer ∧ left.now < (held.now - 100000) + 1000 * (held.link 13).creditToUs ∧
    (held.link 13).replayCnt + 1 < (held.link 13).replayLimit ∧ ({ re with now := re.now - 1 } : State).now < (re.link 13).retrainAt + 5000000 ∧
    (re.link 13).state = 4 ∧ (re.lanePort 13).retrain = true ∧ (re.link 13).retrainAt + 5000000 ≤ re.now ∧ (claimed.link 0).state = 0 ∧
    ((linked { active with state := 1 }).link 13).state = 1 := by decide +kernel

def drain : Drain := { ranks := [1], since := claimed.now - 200000, back := false }
theorem wit_routing :
    let s : State := { admin with fab := { admin.fab with drain := some drain, retryBack := [(1, 0)] }, work := { admin.work with rrds := [(5, (0, 1, claimed.now - 1000000))] } }
    let d : State := { s with work := { s.work with rrds := [] } }
    adminTakes admin (some 31) = true ∧ admin.fab.drain = none ∧ s.fab.drain = some drain ∧ drained s drain = false ∧ drained d drain = true ∧
    drain.since + 1000 * s.fab.drainUs ≤ s.now ∧ tabFind s.fab.retryBack 1 = some 0 ∧ 0 + 1000000000 ≤ s.now ∧
    tabFind s.work.rrds 5 = some (0, 1, s.now - 1000000) ∧ (s.now - 1000000) + 1000 * s.fab.rrdToUs ≤ s.now ∧
    ({ s with now := 0 } : State).now < (claimed.now - 1000000) + 1000 * s.fab.rrdToUs ∧ (List.replicate 4096 (0 : Byte)).length = 4096 := by decide +kernel

/-- Port 13 in the training state given, with all nine lanes seen and locked. -/
def training (st : Nat) (f : PortLanes → PortLanes := id) : State :=
  claimed.setLanePort 13 (f { tstate := st, lanes := (List.range 9).map fun n => (n, { signal := true, locked := true, logical := n }) })
/-- A training message of type `ty` for lane `n`, with its CRC. -/
def trainMsg (n ty x : Nat) : BitVec 128 :=
  let b := ty + 2 ^ 4 * n + 2 ^ 8 * x
  BitVec.ofNat 128 (b + 2 ^ 112 * crc16 112 b)
theorem wit_training :
    let t := claimed.now - 1000000
    let d := training 1 fun x => { x with firstAt := some t }
    let k := training 2
    let u := k.setLane 13 8 { k.lane 13 8 with locked := true }
    let c := training 5 fun x => { x with since := t }
    let e := training 3 fun x => { x with since := claimed.now - 2000000 }
    (training 8).lanePort 13 = { (training 0).lanePort 13 with tstate := 8 } ∧ (d.lanePort 13).firstAt = some t ∧ t + 1000000 ≤ d.now ∧
    2 ≤ (lanesWhere (d.lanePort 13) (·.signal)).length ∧ ({ d with now := t } : State).now < t + 1000000 ∧
    ((mustLock (u.lanePort 13)).all fun n => (u.lane 13 n).locked) = true ∧
    ([1, 2, 3].all fun ty => trainOk 8 ty (trainMsg 8 ty 1)) = true ∧ trainOk 8 4 (trainMsg 8 4 1) = true ∧ bitOf (trainMsg 8 4 1).toNat 8 = true ∧
    trainOk 8 5 (trainMsg 8 5 1) = true ∧ bitOf (trainMsg 8 5 1).toNat 8 = true ∧ ((training 7).lanePort 13).tstate = 7 ∧ trainOk 8 1 (trainMsg 8 1 1 + 1) = false ∧
    (c.lanePort 13).resOk = none ∧ (c.lanePort 13).since + 1000000 ≤ c.now ∧ ({ c with now := t } : State).now < (c.lanePort 13).since + 1000000 ∧
    (e.lanePort 13).retrain = false ∧ (e.lanePort 13).since + 2000000 ≤ e.now ∧ ({ e with now := 0 } : State).now < (e.lanePort 13).since + 2000000 := by decide +kernel

/-- The symbols of register mark 7 on logical lane 8. -/
def mark7 : List (BitVec 10) :=
  [0x3C5, 0x0FA, 0x3C5, 0x0FA, 0x3C5, 0x0FA, 0x3C5, 0x0FA, BitVec.ofNat 10 (8 + 2 ^ 4 * 0b101011), 7, 0, 0, 0, 0, 0, 0]
theorem wit_lanes :
    let s := training 8
    let loop := training 9 fun x => { x with lbState := 1, lanes := [(0, { chk := true, pat := 1, logical := 15 })] }
    let serve := training 9 fun x => { x with lbState := 2 }
    (s.lane 13 8).logical ≠ 0 ∧ (s.lane 13 8).logical ≠ 15 ∧ markOf 8 (s.lane 13 8) mark7 = some 7 ∧ (s.lane 13 8).failed = false ∧
    (let x := s.setLane 13 8 { s.lane 13 8 with logical := 15 }
     (x.lane 13 8).logical = 15 ∧ (x.lane 13 8).failed = false ∧ (x.lanePort 13).tstate = 8) ∧
    (loop.lane 13 0).chk = true ∧ (loop.lane 13 0).pat ≠ 0 ∧ (loop.lanePort 13).tstate = 9 ∧ (loop.lanePort 13).lbState = 1 ∧ barWrite loop 0x30 = true ∧
    ((training 0).lanePort 13).tstate = 0 ∧ (serve.lanePort 13).lbState = 2 ∧ (0xD : W32).toNat % 4 = 1 ∧ (0xE : W32).toNat % 4 = 2 ∧ (0xF : W32).toNat % 4 = 3 ∧
    (0xC : W32).toNat % 4 = 0 := by decide +kernel

/-- Partition 1's first subchannel of channel 4, with the queue and the channel block given. -/
def sub : MemUnit := .sub 4 0
def chan (x : ChanQ) (f : MemBlk → MemBlk := id) : State := (claimed.setChq (muQ sub) x).setBlk false 4 (f (claimed.blk false 4))
def chReq : ChReq := { line := 2 ^ 41 / 64, write := false, at_ := 0, ppa := 2 ^ 41 }
theorem wit_channels :
    let s := chan { reqs := [chReq], rows := [(31, (5, 0))] }
    let e := chan {}
    muOk sub = true ∧ muRuns e sub = true ∧ muRuns s sub = true ∧ muRuns (e.setPart 1 { part with state := 7 }) sub = false ∧ (e.chq (muQ sub)).reqs = [] ∧ noMakeUp e sub (e.chq (muQ sub)) = false ∧
    pickReq s (s.chq (muQ sub)) = some 0 ∧ (s.chq (muQ sub)).reqs[0]? = some chReq ∧
    tabFind (s.chq (muQ sub)).rows 31 = some (5, 0) ∧ idleOver s sub 0 = true ∧ idleOver s sub s.now = false ∧ 0 < (muBlk s sub).ranks ∧
    ((s.chq (muQ sub)).reqs.any fun r => muStack sub || (coordOf s r.ppa).rank == 0) = true ∧ tabGet 0 (s.chq (muQ sub)).postponed 0 < 8 ∧
    8 ≤ tabGet 0 ((chan { postponed := [(0, 8)] }).chq (muQ sub)).postponed 0 := by decide +kernel
/-- R384: the port of galley ingest enters panic at 48 lines, keeps it at 33 and leaves it at 32. -/
theorem test_panic :
    let held (n : Nat) : State := (List.range n).foldl (fun s _ => rtPush s 0 true (2 ^ 41)) claimed
    let on (s : State) : Bool := bitOf (blkStatus s false 4) 7
    let left (n : Nat) : State := (List.range n).foldl (fun s _ => channelIssue s sub) (held 48)
    on (held 47) = false ∧ on (held 48) = true ∧ on (left 15) = true ∧ on (left 16) = false := by decide +kernel
theorem wit_scrub_and_remap :
    let s := chan { scrubAt := 1 }
    let t := (readLine s (ppaOf (muStack sub) (muPart sub) (64 * scrubLineAt sub 0)) true).2
    let lo : W32 := 0x00001000
    let b := (claimed.setRemap sub 15 { lo := lo, busy := true })
    let bad := setErr b ((remapPpa b sub (b.remap sub 15)).getD 0) (2 ^ 640 - 1)
    let far := claimed.setRemap sub 15 { lo := 0x7FFFF000, rank := 7, busy := true }
    (muBlk s sub).scrubEn = true ∧ (s.chq (scrubQ sub)).scrubAt ≠ 0 ∧ (s.chq (scrubQ sub)).scrubL * scrubT (muBlk s sub) ≤ (s.now - 1) * scrubCount s sub ∧
    (t.chq (scrubQ sub)).scrubL + 1 < scrubCount s sub ∧ (muBlk (chan {} fun b => { b with scrubEn := false }) sub).scrubEn = false ∧
    (b.remap sub 15).busy = true ∧ (claimed.remap sub 15).busy = false ∧ (claimed.remap sub 15).valid = false ∧ bitOf (0x80000000 : W32).toNat 31 = true ∧
    ((claimed.setRemap sub 15 { valid := true }).remap sub 15).valid = true ∧ (remapPpa b sub (b.remap sub 15)).isSome = true ∧
    (readLine b ((remapPpa b sub (b.remap sub 15)).getD 0) true).1.isSome = true ∧ (readLine bad ((remapPpa b sub (b.remap sub 15)).getD 0) true).1 = none ∧
    remapPpa bad sub (bad.remap sub 15) = remapPpa b sub (b.remap sub 15) ∧ remapPpa far sub (far.remap sub 15) = none := by decide +kernel

theorem wit_parking :
    let parked := claimed.setPart 1 { part with parkReq := true, fillSkim := true }
    let busyCh := claimed.setChq 8 { reqs := [chReq] }
    let unkept : State := { claimed with xlt := { claimed.xlt with dirA := [(0, { iaStart := 0, lenG := 1, ceil := 7, ppa := 2 ^ 41 })] } }
    barWrite claimed 17 = true ∧ (claimed.part 1).park = false ∧ bitOf (1 : W32).toNat 0 = true ∧ claimed.online 1 = true ∧
    ((claimed.part 1).chans.any (·.state == 1)) = false ∧ mapsUnkept claimed 1 = false ∧ mapsUnkept unkept 1 = true ∧ (parked.part 1).parkReq = true ∧
    ((List.range 8).all fun i => (parked.chq (8 + i)).reqs == []) = true ∧ ((List.range 8).all fun i => (busyCh.chq (8 + i)).reqs == []) = false ∧
    (parked.part 1).parked = false ∧ (parked.part 1).fillSkim = true ∧ claimed.online 7 = false := by decide +kernel
/-- A partition whose channels train, and the results of its training. -/
def trained : TrainResult := { popOk := true, spdOk := true, skimPass := true, ranks := 1, rows := 65536, rateMax := 3, x8 := false, mrdimm := false, sids := 3, crmRows := creamRows claimed, crmPass := true }
theorem wit_trainings :
    let tr : MemBlk := { state := 1 }
    let s := claimed.setPart 1 { part with state := 4, chans := List.replicate 4 tr }
    let p (stage : Nat) : State := { s with boot := { s.boot with stage := stage } }
    blkOk false 4 = true ∧ blkOk true 7 = true ∧ (claimed.blk false 4).state ≠ 1 ∧ (s.blk false 4).state = 1 ∧ (s.blk false 4).trnBusy = false ∧
    bitOf (0x80000001 : W32).toNat 31 = true ∧ (0x80000001 : W32).toNat % 65536 ≠ 0 ∧ barWrite s 17 = true ∧
    ((s.setBlk false 4 { tr with trnBusy := true }).blk false 4).trnBusy = true ∧ ((p 4).part 1).state = 4 ∧ (p 4).boot.stage = 4 ∧ (p 4).flt.recovery = false ∧
    6 ≤ (p 6).boot.stage ∧ skimCause trained = 0 ∧ creamCause (trainResult (p 4) 1 trained) trained = 0 ∧ creamCause (trainResult (p 6) 1 trained) trained = 0 ∧
    skimCause { trained with spdOk := false } ≠ 0 ∧ (claimed.part 0).state ≠ 4 := by decide +kernel

/-! ## Witnesses of the statements about faults, the pair, firmware and registers -/

def unitSt (u : W32) (x : UnitSt) : State := claimed.setUnit u x
theorem wit_fault_reports :
    let late := unitOf 4 39
    let beat : State := { claimed with flt := { claimed.flt with heartbeats := [(late.toNat, claimed.now - 999999)] } }
    let k := islandKhz claimed 139
    let moved : State := { claimed with flt := { claimed.flt with stopUntil := [(139, 10 ^ 9)], wasKhz := [(139, k)] } }
    unitOk (unitOf 3 10239) = true ∧ unitOk (unitOf 3 10240) = false ∧ ((unitSt (unitOf 0xC 0) { stuck := true }).unit (unitOf 0xC 0)).stuck = true ∧
    (claimed.unit (unitOf 0xC 0)).stuck = false ∧ wdWatches 1 (unitOf 3 0) = true ∧ wdWatches 7 late = true ∧ heartLate claimed late = true ∧ heartLate beat late = false ∧
    unitClass late = 4 ∧ 19 * k ≤ 2000 * (k / 100) ∧ 2000 * (k / 100) ≤ 21 * k ∧ 21 * k < 2000 * (k / 100 * 106 / 100) ∧ 2000 * (k / 100 * 94 / 100) < 19 * k ∧
    tabGet 0 claimed.flt.stopUntil 139 = 0 ∧ tabGet 0 moved.flt.stopUntil 139 = moved.now ∧ 4000 ≤ tabGet 0 moved.flt.stopUntil 139 ∧
    19 * (k * 6000) ≤ 20000000 * (k * 6 / 1000) ∧ 20000000 * (k * 6 / 1000) ≤ 21 * (k * 6000 + max k k * 4000) ∧ aliveHeld claimed = false ∧ aliveHeld State.reset = true := by decide +kernel

/-- Partition 1 in a reset: its quiescence began, or its hold, `n` ns ago. -/
def resetting (f : Part → Part) : State := claimed.setPart 1 (f { part with state := 3, holdAt := 0, quiesceAt := claimed.now - 1000000 })
theorem wit_reset_phases :
    let r := resetting id
    let q := resetting fun x => { x with confirmed := [0, 1, 2, 3] }
    let h := resetting fun x => { x with holdAt := claimed.now - 999999 }
    let v : State := { claimed with flt := { claimed.flt with recovery := true, recHoldAt := claimed.now - 10000000 } }
    let b := claimed.setPart 1 { part with state := 5 }
    ((claimed.setPart 1 { part with state := 2 }).part 1).state = 2 ∧ (claimed.part 1).state ≠ 2 ∧ (r.part 1).state = 3 ∧ (r.part 1).holdAt = 0 ∧
    (r.part 1).confirmed.contains 4 = false ∧ (r.part 1).confirmed.length ≠ 4 ∧ (q.part 1).confirmed.contains 4 = false ∧ (q.part 1).confirmed.length = 4 ∧
    (r.part 1).quiesceAt + 1000000 ≤ r.now ∧ ({ r with now := 0 } : State).now < (r.part 1).quiesceAt + 1000000 ∧ (h.part 1).holdAt ≠ 0 ∧
    (h.part 1).holdAt + 1000000 ≤ h.now + 1 ∧ ({ h with now := 0 } : State).now + 1 < (h.part 1).holdAt + 1000000 ∧
    v.flt.recovery = true ∧ v.flt.recHoldAt ≠ 0 ∧ v.flt.recHoldAt + 10000000 ≤ v.now ∧ ((List.range 8).all fun q => (v.part q).state != 3) = true ∧
    (b.part 1).state = 5 ∧ b.flt.busy = false ∧ (partReturn b 1).flt.busy = false ∧ b.flt.recovery = false := by decide +kernel

theorem wit_quiet :
    let u := unitOf 4 39
    let q (n : Nat) := unitSt u { state := 3, since := claimed.now - 100000000, count := n, winOpen := true, winAt := 0 }
    let s := unitSt u { state := 2, since := claimed.now - 5000001 }
    unitOk u = true ∧ unitClass u = 4 ∧ ((q 16).unit u).state = 3 ∧ ((q 16).unit u).since + 1000000 * (q 16).flt.quietMs ≤ (q 16).now ∧
    (q 16).flt.recovLimit < ((q 16).unit u).count + 1 ∧ ((q 15).unit u).count + 1 ≤ (q 15).flt.recovLimit ∧
    ({ q 0 with now := 0 } : State).now < ((q 0).unit u).since + 1000000 * (q 0).flt.quietMs ∧ ((q 0).unit u).winOpen = true ∧
    ((q 0).unit u).winAt + 60000000000 * (q 0).flt.recovWinMin ≤ ({ q 0 with now := 3600000000000 } : State).now ∧
    (q 0).now < ((q 0).unit u).winAt + 60000000000 * (q 0).flt.recovWinMin ∧ (claimed.unit u).state ≠ 1 ∧ (claimed.unit u).state ≠ 2 ∧ (s.unit u).state = 2 ∧
    (s.unit u).since + min (unitBound u) (1000000 * s.flt.escalateMs) < s.now ∧ parentOf u = some (unitOf 2 7) ∧ unitDown claimed u = false := by decide +kernel

theorem wit_fault_commands :
    let c : State := { claimed with flt := { claimed.flt with cmdUnit := unitOf 0xA 13 } }
    let o := c.setUnit (unitOf 0xA 13) { state := 4 }
    let b : State := { o with flt := { o.flt with busy := true, bistUnit := unitOf 0xA 13, test := 4 } }
    let bad : State := { claimed with flt := { claimed.flt with cmdUnit := unitOf 0xA 14 } }
    barWrite c 3 = true ∧ c.flt.busy = false ∧ unitOk c.flt.cmdUnit = true ∧ unitOk bad.flt.cmdUnit = false ∧ b.flt.busy = true ∧
    (1 : W32).toNat % 16 = 1 ∧ (2 : W32).toNat % 16 = 2 ∧ (0x43 : W32).toNat % 16 = 3 ∧ field (0x43 : W32).toNat 7 4 = 4 ∧ (4 : W32).toNat % 16 = 4 ∧
    (o.unit (unitOf 0xA 13)).state = 4 ∧ unitClass (unitOf 0xA 13) = 0xA ∧ (c.unit (unitOf 0xA 13)).state ≠ 4 ∧
    ((c.setUnit (unitOf 0xA 13) { state := 1 }).unit (unitOf 0xA 13)).state = 1 ∧ (b.unit b.flt.bistUnit).state = 4 := by decide +kernel

/-- A member of a pair in the state given. -/
def member (st : Nat) (f : Mir → Mir := id) : State := { claimed with mir := f { claimed.mir with state := st, partner := 1 } }
/-- The token with SEQ 1 of a command of ring 0 with tag 7. -/
def token : BitVec 256 := BitVec.ofNat 256 (fields [(0, 1), (8, 1), (20, 7)])
theorem wit_pair_records :
    let held := member 3 fun m => { m with tokens := [(token, 0)] }
    (claimed.mir.state ≠ 2 ∧ claimed.mir.state ≠ 3 ∧ claimed.mir.state ≠ 4) ∧ ((sawRecord (member 2)).mir.tokens.any fun x => (tokOf x.1).seq == (tokOf token).seq) = false ∧
    ((sawRecord (member 3)).mir.tokens.any fun x => (tokOf x.1).seq == (tokOf token).seq) = false ∧
    ((sawRecord held).mir.tokens.any fun x => (tokOf x.1).seq == (tokOf token).seq) = true ∧ (advance (sawRecord claimed)).interval 0 = none ∧
    (0x600 : BitVec 128).toNat / 256 ^ 8 % 256 = 0 ∧ (BitVec.ofNat 128 (6 * 256 ^ 8)).toNat / 256 ^ 8 % 256 = 6 ∧ (BitVec.ofNat 128 (4 * 256 ^ 8)).toNat / 256 ^ 8 % 256 = 4 ∧
    (BitVec.ofNat 128 (5 * 256 ^ 8)).toNat / 256 ^ 8 % 256 = 5 ∧ ((lineCuts (2 ^ 44 + 1) 4096).all fun o => backed claimed (2 ^ 44 + 1 + o)) = true ∧ (lineCuts (2 ^ 44 + 1) 4096).length = 65 ∧
    lineCuts (2 ^ 40) 1 = [0] ∧ backed claimed (2 ^ 40) = false ∧ backed claimed (2 ^ 44 + 2 ^ 39) = false ∧
    backed claimed (2 ^ 45) = false := by decide +kernel
theorem wit_pair_timers :
    let i : Interval := { n := 1, opened := claimed.now - 100000 }
    let a := member 1 fun m => { m with curInt := 1, intervals := [i], inStep := true }
    let f := member 1 fun m => { m with curInt := 1, intervals := [{ i with count := 4096, opened := claimed.now }] }
    let y := member 1 fun m => { m with curInt := 1, intervals := [{ i with opened := claimed.now }] }
    let c (st : Nat) := member st fun m => { m with intervals := [{ i with cut := true }] }
    let l (st t : Nat) := member st fun m => { m with intervals := [{ i with cut := true, sentAt := some t }] }
    let t := member 3 fun m => { m with tokens := [(token, claimed.now - 500000)], copies := [(2, cmd [] 8, claimed.now - 2000000)] }
    let live := member 3 fun m => { m with lastEdge := claimed.now }
    let cut (b : Bool) : State := let s := (member 1 fun m => { m with watermark := some (2 ^ 45) })
      if b then { s with store := { s.store with cmds := [(0, { chan := .ring 0, raw := (withOpcode (cmd []) 0x0300).raw, st := .running })] } } else s
    (member 1).mir.partner ≠ 0 ∧ (member 1).mir.due = [] ∧ (member 1).flt.recovery = false ∧ (member 1).mir.sentHb + 10000 ≤ (member 1).now ∧ (member 1).flt.failed = false ∧ (member 1).boot.inReset = false ∧
    ({ member 1 with now := 0 } : State).now < (member 1).mir.sentHb + 10000 ∧ a.interval a.mir.curInt = some i ∧ i.opened + 100000 ≤ a.now ∧
    (f.interval 1).any (fun i => !i.cut && i.count == 4096 && decide (f.now < i.opened + 100000)) = true ∧
    (y.interval 1).any (fun i => decide (i.count < 4096) && decide (y.now < i.opened + 100000)) = true ∧
    ((c 3).interval 1).any (fun i => intervalOver (c 3) i) = true ∧ intervalOver y i = false ∧
    ((l 3 (claimed.now - 10000000)).interval 1).any (fun i => i.sentAt == some (claimed.now - 10000000) && i.peer.isNone) = true ∧
    claimed.now - 10000000 + 10000000 ≤ (l 3 0).now ∧ (l 1 claimed.now).now < claimed.now + 10000000 ∧
    t.mir.tokens.find? (fun x => (tokOf x.1).seq == 1) = some (token, claimed.now - 500000) ∧ copyFor t (tokOf token) = none ∧
    t.mir.copies.find? (fun x => x.1 == 2) = some (2, cmd [] 8, claimed.now - 2000000) ∧
    (t.mir.tokens.any fun x => (tokOf x.1).src == srcOf (cmd [] 8).raw && (tokOf x.1).tag == tagOf (cmd [] 8).raw) = false ∧
    peerAliveOk (member 3) = false ∧ (member 3).mir.lastRec + 1000 * (member 3).mir.mirSilentUs ≤ (member 3).now ∧
    peerAliveOk live = true ∧ a.mir.inStep = true ∧ aliveHeld a = false ∧ ({ a with now := 0 } : State).now < a.mir.lastRec + 1000 * a.mir.mirSilentUs ∧
    (cut false).mir.watermark = some (2 ^ 45) ∧ (cut false).store.cmds.any mutRuns = false ∧ (cut true).store.cmds.any mutRuns = true ∧
    (cut true).mir.cutHold = none ∧ (cut true).mir.cutRetry ≤ (cut true).now := by decide +kernel

/-- A standby whose partner is 65,537 tokens ahead. -/
theorem wit_lag : let g := member 3 fun m => { m with tokens := List.replicate 65537 (token, 0) }
    g.mir.state = 3 ∧ 65536 < (unstarted g).length := by
  refine ⟨rfl, ?_⟩
  simp only [unstarted, member, List.length_append, List.length_map, List.length_replicate]
  omega

/-- An image of five empty components, its hashes and signature zeros. -/
def image : List Byte :=
  leBytes 64 (fields [(0, 0x4D494657), (4, 1), (6, 5), (20, 577), (24, 384)]) ++ ((List.range 5).flatMap fun i => leBytes 64 (1 + i)) ++ List.replicate 193 0
def staged (img : List Byte) (st : Nat) : State :=
  { claimed with
    fuses := { claimed.fuses with fwKeyHash := Config.sha384 (List.replicate 97 0) }
    fw := { claimed.fw with state := st, totalLen := 577, staging := memPutL [] 0 img } }
/-- Hashing and the signature are uninterpreted (log 6): where they accept the image, so does the part. -/
theorem wit_image (h : Config.sha384 [] = List.replicate 48 0) (hs : ∀ k m g, Config.sigOk k m g = true) : imgError (staged image 1) image = 0 := by
  have a : imgSizeOk image = true := by decide +kernel
  have b : imgFormOk image = true := by decide +kernel
  have c : imgComps image = (List.range 5).map fun i => { ty := 1 + i, off := 0, len := 0, hash := List.replicate 48 0, rsv := true } := by decide +kernel
  have d : (image.drop (leAt image 24 8)).take 97 = List.replicate 97 0 := by decide +kernel
  have e : leAt image 8 4 = 0 := by decide +kernel
  simp [imgError, imgSigOk, a, b, c, d, e, h, hs, staged, List.range, List.range.loop]
  rfl
/-- A Coleth message of the type and major version given. -/
def coleth (ty major : Nat) (body : List Byte) (bad : Nat := 0) : List Byte :=
  let h := leBytes 12 (fields [(0, major), (2, ty), (4, body.length), (8, 9)])
  h ++ leBytes 4 (crc32 (h ++ body) + bad) ++ body
theorem wit_firmware :
    let s : State := { claimed with boot := { claimed.boot with stage := 6 } }
    let rom : State := { claimed with fw := { claimed.fw with romMode := true } }
    stagedImage (staged image 1) 577 = image ∧ leAt image 20 4 = 577 ∧
    leAt (stagedImage (staged (image.set 4 2) 1) 577) 20 4 = 577 ∧ imgFormOk (image.set 4 2) = false ∧ (staged image 2).fw.state = 2 ∧ claimed.fw.state ≠ 1 ∧
    ([coleth 1 1 [0, 0, 0, 0] 1, coleth 1 1 [0, 0, 0, 0], coleth 1 2 []].all fun bs => colethServed s (.sideband bs)) = true ∧
    colethServed rom (.sideband (coleth 3 1 [0, 0, 0, 0])) = true ∧ secRuns s = true ∧ colethGood (coleth 1 1 [0, 0, 0, 0] 1) = false ∧
    ([1, 2, 3, 4].all fun ty => colethGood (coleth ty 1 [0, 0, 0, 0]) && leAt (coleth ty 1 [0, 0, 0, 0]) 0 1 == 1 && leAt (coleth ty 1 [0, 0, 0, 0]) 2 2 == ty) = true ∧
    s.fw.romMode = false ∧ s.boot.stage = 6 ∧ (((coleth 3 1 [0, 0, 0, 0]).drop 16).take (leAt (coleth 3 1 [0, 0, 0, 0]) 4 2)).length = 4 ∧
    colethGood (coleth 1 2 []) = true ∧ leAt (coleth 1 2 []) 0 1 ≠ 1 ∧ barWrite s 4 = true ∧ bitOf (0x80000000 : W32).toNat 31 = true ∧
    ({ s with fw := { s.fw with f2hValid := true } } : State).fw.f2hValid = true := by decide +kernel

theorem wit_power :
    let down := unitSt (unitOf 5 1) { state := 1 }
    pmcDown down = true ∧ pmcDown claimed = false ∧ (List.replicate 13 (0x0500 : BitVec 16)).length = 13 ∧ (0x06DF : BitVec 16).toInt < 1760 ∧
    1760 ≤ (0x06E0 : BitVec 16).toInt ∧ claimed.saf.tripped = false ∧ ({ claimed with saf := { claimed.saf with tripped := true } } : State).saf.tripped = true := by decide +kernel

theorem wit_registers :
    let failed : State := { claimed with flt := { claimed.flt with failed := true } }
    let down : State := { claimed with pins := { claimed.pins with perstN := false } }
    barWrite claimed 1 = true ∧ barWrite claimed 0x40 = true ∧ barWrite down 1 = false ∧ barWrite down ((0x00100004 : W32).toNat / 2 ^ 20) = false ∧ failed.flt.failed = true ∧
    pcieUp claimed = true ∧ pcieUp down = false ∧ claimed.flt.recovery = false ∧ claimed.flt.failed = false ∧ claimed.boot.served = true ∧ (0x000FFFFC : W32).toNat / 2 ^ 20 = 0 := by decide +kernel
theorem wit_messages :
    let s : State := { claimed with pins := { claimed.pins with intN := true }, intr := { claimed.intr with msixEn := true, wasZero := false, pwr := 1 } }
    barWrite s 1 = true ∧ intDriven s ∧ intMasked s = true ∧ bitOf (0x80000001 : W32).toNat 31 = true := by
  refine ⟨by decide +kernel, ⟨by decide +kernel, by decide +kernel⟩, by decide +kernel, by decide⟩
theorem wit_resynchronisation :
    (BitVec.ofNat 64 (2 ^ 44 + 4096) : W64).toNat % 4096 = 0 ∧ (List.replicate 4096 (7 : Byte)).length = 4096 ∧ backed (member 2) (2 ^ 44 + 4096) = true ∧
    1 ≤ (member 2).mir.state ∧ (member 2).mir.state ≤ 3 := by decide +kernel

/-! ## Witnesses of the clauses about images, reductions and galleys -/

/-- A program image of one HALT word. -/
def program : List Byte := leBytes 72 (fields [(0, 0x4E524843), (4, 1), (8, 1), (10, 1), (16, 1000000), (64, (encodeTI 0x00 field0).toNat)])
/-- PROG_LOAD of it passes, with `H` of the image as read and the state after it. -/
def loads (H : List Byte → State → Bool) : Bool :=
  meets { claimed with mem := { claimed.mem with bytes := memPutL [] (2 ^ 44) program } } 0x0380 specProgLoad (cmd [(24, 72), (28, 1), (30, 1)]) (fun t _ y =>
    match readSpan y.host (y.par 24 4 / 64 + 2) t (y.par 16 8) (y.par 24 4) [] with
    | (.ok img, u) => y.par 28 2 == 1 && y.par 30 1 == 1 && H img u
    | _ => false)
theorem wit_program : imageOk program = true ∧ leAt program 8 2 = 1 ∧ leAt program 10 2 = 1 ∧ program.length = 72 := by decide +kernel
theorem wit_prog_load : loads (fun img _ => img == program) = true := by decide +kernel
theorem wit_prog_placed : loads (fun _ u => (placeTiles u 1 1 1 1).isSome && decide (tabGap u.churn.progs 1 ≤ 4095)) = true := by decide +kernel
theorem wit_prog_room : loads (fun _ u => !((maskParts 1).any fun p => decide (2 ^ 24 < progStore u p + 72))) = true := by decide +kernel
/-- The read of the image changes nothing of the energy account, which takes a tile at its floor. -/
theorem wit_prog_power : powerFits claimed (tilePower 0) = true := by decide +kernel
/-- GAL_OPEN passes exactly where its power estimate, which is a free value (log 15), fits. -/
theorem wit_gal_open (b : Bool) :
    meets (withDesc claimed [(0, 2), (4, 4), (16, 0), (24, 2 ^ 26), (32, 2 ^ 28), (40, 2 ^ 29)] 64) 0x0500 { specGalOpen with admits := fun _ _ => if b then none else some stENERGY }
      (descCmd 64) (fun t _ y =>
      let g := { galOf y with ext := galExtents t y.host (galOf y) }
      !galWaits t g && galRangesOk t y.host g && decide (tabGap t.work.gals 1 ≤ 16) && decide (t.work.gals.foldl (fun n e => n + e.2.chunks) (galOf y).chunks ≤ 65536)
        && ingFits t g && !bitOf (y.par 12 1) 0 && y.mirSeq == 0 && match (writeAll (accessing t) y.host g.head (List.replicate 64 0)).1 with
          | .ok _ => true
          | _ => false) = b := by revert b; decide +kernel

theorem wit_contributions :
    let a := reducing id
    let late := reducing fun x => { x with marked := [0], firstAt := claimed.now - 10000000 }
    (a.slot 0).any (fun x => (contribs a 0 x.k).find? (fun e => e.2.par 18 2 == 1 && e.2.st == .ready) == some (0, contribution .ready) && !x.marked.contains 1 && !x.running
      && match (deposit (accessing a) x (contribution .ready)).1 with
        | none => true
        | some _ => false) = true ∧
    (late.slot 0).any (fun x => !x.running && x.marked != [] && decide (x.marked.length < x.n) && decide (x.firstAt + 1000000 * x.limitMs ≤ late.now)) = true ∧
    pairHeld late = false ∧ ({ late with now := 0 } : State).now < claimed.now - 10000000 + 1000000 * slot.limitMs := by decide +kernel
/-- The one granule of a step whose deposits are zeros, and the step at its end. -/
theorem wit_reductions :
    let run (g : Nat) := reducing (fun x => { x with running := true, marked := [0, 1] }) (contribution .running g)
    ((run 0).slot 0).any (fun x => x.running && !x.outRes && (stepLead (run 0) 0 x.k).any (fun e => e.1 == 0 && e.2.progress == 0)
      && (contribs (run 0) 0 x.k).all (·.2.mirSeq == 0) && match readMany x.host (granReads x 0) (accessing (run 0)) [] with
        | (.ok rows, t) => (match (writeMany t x.host (granWrites x 0 (granResult x 0 rows).1 (granResult x 0 rows).2.1)).1 with
          | .ok _ => true
          | _ => false)
        | _ => false) = true ∧
    ((run 1).slot 0).any (fun x => (stepLead (run 1) 0 x.k).any fun e => e.2.st == .running && decide (x.l / 1024 ≤ e.2.progress)) = true ∧
    ((run 0).slot 0).any (fun x => (stepLead (run 0) 0 x.k).any fun e => e.2.st == .running && decide (x.l / 1024 ≤ e.2.progress)) = false := by decide +kernel

/-- A lock-up of galley 1 in slot 0. -/
def locking (st : CmdSt) (f : Galley → Galley := id) : State :=
  { busy with
    work := { busy.work with gals := [(1, f galley)] }
    store := { busy.store with cmds := [(0, { chan := .ring 0, raw := (withOpcode (cmd [(16, 1)]) 0x0503).raw, st := st, total := 1, rAdm := 1, idle := 1 })], seq := 1 } }
/-- The chunk's clause is met here by a chunk whose partition has gone offline, which leaves the galley as it is. -/
theorem wit_lockups :
    let r := locking .ready
    let c := locking .running fun g => { g with state := 3, lock := some 0, prev := some ([], []), leaves := [[]], used := 1 }
    let n : State := (locking .running fun g => { g with state := 3, lock := some 0, prev := some ([], []), used := 1 }).setPart 0 { part with state := 1 }
    (r.galley 1).any (fun g => g.state == 2 && match drainGal r g with
      | (false, u) => (nextLockup r 1).any (fun e => e.1 == 0 && e.2.mirSeq == 0 && energyFits r (lockEnergy r e.2) && !heldOn r e.2
        && (startOp u e.1 { e.2 with total := g.used, progress := 0 }).isSome)
      | _ => false) = true ∧ r.pwr.hold = false ∧ pairHeld r = false ∧ serving r = true ∧
    (c.galley 1).any (fun g => g.lock == some 0 && g.prev == some ([], []) && decide (g.used ≤ g.leaves.length)) = true ∧ (c.cmd 0).any (fun x => x.st == .running) = true ∧
    (n.galley 1).any (fun g => g.lock == some 0 && g.prev == some ([], []) && decide (g.leaves.length < g.used)
      && ((lockChunk ((accessing n).setGalley 1 g) 0 1 g [] [] 0).galley 1).any fun g1 => decide (g1.leaves.length < g1.used)) = true := by
  decide +kernel

/-- A run that waits in SWAIT, its descriptor giving 100 µs. -/
def swaiting (since : Nat) : State :=
  { busy with
    churn := { busy.churn with tiles := [(0, { st := .inSwait 0 0 since, run := some 0, slots := [(1, 0, 1, 0, 56)] })] }
    store := { busy.store with cmds := [(0, { chan := .ring 0, raw := (withOpcode (cmd [(16, 1), (3, 4)]) 0x0381).raw, st := .running, started := true,
                                              desc := leBytes 128 (fields [(0, 1), (4, 100)]) })], seq := 1 } }
theorem wit_wait_limit :
    let s := swaiting (claimed.now - 100001)
    let t := swaiting (claimed.now - 100000)
    (runOf s 0).any (fun e => e.2.runWaitUs == 100 && decide (claimed.now - 100001 + 1000 * e.2.runWaitUs < s.now)) = true ∧ pairHeld s = false ∧
    (runOf t 0).any (fun e => decide (t.now ≤ claimed.now - 100000 + 1000 * e.2.runWaitUs)) = true := by decide +kernel

/-! ## Ill-formed commands, one for each check of `Instr.wf` -/

theorem test_ill_formed_instances :
    (Instr.doorbell 1024 0).wf = false ∧ (Instr.parkComplete 8).wf = false ∧ (Instr.sadd 10240 field0).wf = false ∧ (Instr.flitTransmit 14).wf = false ∧
    (Instr.laneSignalDetect 13 9).wf = false ∧ (Instr.glbTimeLoRead 17).wf = false ∧ (Instr.trainingRunDone false 32 0 0).wf = false ∧
    (Instr.trainingRunDone true 8 0 0).wf = false ∧ (Instr.brokenWire (0x03002800)).wf = false ∧ (Instr.brokenWire 0x15000000).wf = false ∧
    (Instr.coreRestartComplete 0x03000000).wf = false ∧ (Instr.watchdogExpiry 1 0x04000000).wf = false ∧ (Instr.schedSelect 95).wf = false ∧
    (Instr.syncUpdateApply 16384).wf = false ∧ (Instr.stepLimitExpiry 256).wf = false ∧ (Instr.lockupReady 0).wf = false ∧ (Instr.lockupReady 17).wf = false ∧
    (Instr.snoopTimeout 64 0 0).wf = false ∧ (Instr.creditTimeout 0 6).wf = false ∧ (Instr.laneFailure 0 0 0).wf = false ∧ (Instr.laneFailure 0 0 5).wf = false ∧
    (Instr.rowIdleClose sub 0 32).wf = false ∧ (Instr.scrubLine (.sub 32 0)).wf = false ∧ (Instr.scrubLine (.pc 0 32)).wf = false ∧ (Instr.remapCopyComplete sub 16).wf = false ∧
    (Instr.selfRefreshConfirm 0 5).wf = false ∧ (Instr.pllRelockComplete 140).wf = false := by decide +kernel
theorem test_ill_formed_messages :
    (Instr.memRead { cmd [] with chan := .ring 1024, port := 14 }).wf = false ∧ (Instr.memRead { cmd [] with port := 0 }).wf = false ∧
    (Instr.memRead { cmd [] with chan := .rank (2 ^ 20) }).wf = false ∧ (Instr.memRead { cmd [] with port := 14, data := List.replicate 4097 0 }).wf = false ∧
    (Instr.nop (.tile 10240 field0)).wf = false ∧ (Instr.wb { coh 0 with win := 64 }).wf = false ∧ (Instr.wb { coh 0 with txn := 4096 }).wf = false ∧
    (Instr.wb { coh 0 with token := 65536 }).wf = false ∧ (Instr.data 0 [0]).wf = false ∧
    (Instr.resynchronisationData 0 [0]).wf = false ∧ (Instr.memRead { cmd [] with port := 14 }).wf = true ∧ (Instr.data 13 (List.replicate 256 0)).wf = true := by decide +kernel

/-! ## Words written out from the encoding of R158, R160, and packets and routes from their layouts -/

/-- SMOVI S4, 0x4800; DLD S1, S9, S7, 47; SADDI S5, S5, −1; BCC EQ, S5, S9, 20; SXOR S10, S4, S8; MMA A3, V0, V1, S13 in FP4; LSETI L1, 16: from the program of
the spec's FP4 example. -/
theorem test_tile_words :
    encodeTI 0x1A { field0 with d := 4, imm := 0x4800 } = 0x1A20000000004800 ∧ encodeTI 0x30 { field0 with a := 1, b := 9, c := 7, imm := 47 } = 0x300052700000002F ∧
    encodeTI 0x16 { field0 with d := 5, a := 5, imm := 0xFFFFFFFF } = 0x16294000FFFFFFFF ∧ encodeTI 0x04 { field0 with a := 5, b := 9, imm := 20 } = 0x0401520000000014 ∧
    encodeTI 0x15 { field0 with d := 10, a := 4, b := 8 } = 0x1551100000000000 ∧ encodeTI 0x40 { d := 3, a := 0, b := 1, c := 13, fmt := 7, imm := 0x10001 } = 0x401802D700010001 ∧
    encodeTI 0x05 { field0 with d := 1, imm := 16 } = 0x0508000000000010 := by decide +kernel
/-- A tile at the word of SMOVI S4, 0x4800 runs it; R41's opcode stands in bytes 0 and 1 of a packet. -/
theorem test_smovi_runs : (match exec (.smovi 0 { field0 with d := 4, imm := 0x4800 }) (running 0x1A { field0 with d := 4, imm := 0x4800 }) with
    | .next t => tabGet 0 (t.tile 0).s 4
    | _ => 0) = 0x4800 ∧ opcodeOf (withOpcode (cmd []) 0x0303).raw = 0x0303 := by decide +kernel
theorem test_no_table_bits : decodeTableWord 64 0x1A20000000004800 = none := rfl

/-! ## Worked examples of the spec -/

/-- "Locating tile T05123": cluster C20, partition P4. -/
theorem test_tile_location : cluOf 5123 = 20 ∧ tilePart 5123 = 4 := by decide
/-- "FP32 to E4M3, round to nearest even, saturating". -/
theorem test_e4m3 :
    convert 0 3 .rne false 0x3E99999A = { code := 0x2A } ∧ convert 0 3 .rne false 0x43E80000 = { code := 0x7E } ∧
    convert 0 3 .rne false 0x43FA0000 = { code := 0x7E, sat := true } ∧ convert 0 3 .rne false 0x3A6BEDFA = { code := 0, flush := true } ∧
    convert 0 3 .rne false 0xBAC49BA6 = { code := 0x81 } ∧ convert 0 3 .rne false 0x7F800000 = { code := 0x7E, sat := true } ∧
    convert 0 3 (.sr 0x3A71) false 0x3E99999A = { code := 0x2A } := by decide +kernel
/-- "One MX block quantised to FP4": the row's bytes, one saturation, 27 flushes. -/
theorem test_mx_block :
    let b := quantBlock 7 false 0 ([0x42700000, 0xC1A80000, 0x41180000, 0x40466666, 0xBECCCCCD, 0] ++ List.replicate 26 0x3F800000)
    b.scale = 0x82 ∧ b.sat = 1 ∧ b.flush = 27 ∧ (mxRowBytes 7 32 [b]).take 17 = [0xD7, 0x12, 0x08, 0, 0, 0, 0, 0, 0, 0, 0, 0, 0, 0, 0, 0, 0x82] ∧
    (mxRowBytes 7 32 [b]).length = 64 := by decide +kernel
/-- "One digest dimension": mean 0x3D, lower bound 0xB8, upper bound 0x48. -/
theorem test_digest : let d := digestDim 0x3FA66666 [0x3FC00000, 0xBF400000, 0x40400000]
    d.1.code = 0x3D ∧ d.2.1.code = 0xB8 ∧ d.2.2.code = 0x48 := by decide +kernel
/-- "Locating a skim line": channel D21, subchannel 1, rank 0, row 37,282, bank 20, column 60. -/
theorem test_skim_line :
    let big : MemBlk := { state := 2, ranks := 2, rows := 131072 }
    coordOf (claimed.setPart 5 { part with chans := List.replicate 4 big }) 0x0A1234567840 = { cnt := 21, sub := 1, rank := 0, row := 37282, bank := 20, col := 60 } := by
  decide +kernel
/-- "A COPY on a ring" and R468: 2 × 1,105,920 MB/s on cream takes 71.44 W beside its library tiles. -/
theorem test_copy_power : 2 * slicePower (3, 1105920) = 71442432 ∧ 128 * tilePower 0 * 35 / 100 = 268800 := by decide +kernel
/-- R315's function detects a flit under another number, and gives 0 beneath nothing: the same flit differs by its seed. -/
theorem test_flit_seed : crc64 5 (List.replicate 248 0) ≠ crc64 6 (List.replicate 248 0) := by decide +kernel

end Sys2Proof.Tests
end

section
/-! The rules of the statements on registers (R11, R487-R490) and on a tile's engines and limits (R160-R188). -/
namespace Sys2Proof.Machine

/-! ## Windows of BAR0 -/

/-- In FAILED no window takes writes (R442). -/
theorem barWrite_of_failed (s : State) (w : Nat) (h : s.flt.failed = true) : barWrite s w = false := by
  simp [barWrite, h]
theorem pcieUp_of_barOpen (s : State) (w : Nat) (h : barOpen s w = true) : pcieUp s = true := by
  simp only [barOpen, Bool.and_eq_true] at h
  exact h.1
/-- The windows GLB_, INT_, SAF_ and FLT_ answer wherever the port is up. -/
theorem barOpen_low (s : State) (w : Nat) (hp : pcieUp s = true) (hw : w ≤ 3) : barOpen s w = true := by
  simp [barOpen, hp, hw]
/-- Every window answers once the boot is over, outside recovery and FAILED. -/
theorem barOpen_served (s : State) (w : Nat) (hp : pcieUp s = true) (hr : s.flt.recovery = false) (hf : s.flt.failed = false)
    (hb : s.boot.served = true) : barOpen s w = true := by
  simp [barOpen, hp, hr, hf, hb]

@[simp] theorem inReach_physical (s : State) (a : Nat) : inReach s 0 a = true := by simp [inReach]
theorem inReach_glb (s : State) (fn a : Nat) (h : a / 2 ^ 20 = 0) : inReach s fn a = true := by
  simp only [inReach, h, decide_true, Bool.or_true, Bool.true_or]

/-! ## Writes -/

theorem exec_registerWrite (s : State) (fn : Nat) (a v : W32) (be : BitVec 4) (h : fn ≤ 16) :
    exec (.registerWrite fn a v be) s = .next (intEval (regWrite s fn (a.toNat / 4 * 4) v.toNat be)) :=
  onInst_next _ _ (decide_eq_true h)

/-- The word that an address falls in lies in the window of the address. -/
theorem wordAddr_window (a : Nat) : a / 4 * 4 / 2 ^ 20 = a / 2 ^ 20 := by omega

theorem regWrite_partial (s : State) (fn a v : Nat) (be : BitVec 4) (h : be ≠ 0xF) : regWrite s fn a v be = s := by
  have hbe : (be != 0xF) = true := bne_iff_ne.mpr h
  simp only [regWrite, hbe, Bool.true_or, if_true]
theorem regWrite_shut (s : State) (fn a v : Nat) (be : BitVec 4) (h : barWrite s (a / 2 ^ 20) = false) : regWrite s fn a v be = s := by
  simp only [regWrite, h, Bool.not_false, Bool.or_true, Bool.true_or, if_true]
theorem regWrite_virtual_glb (s : State) (fn a v : Nat) (be : BitVec 4) (hf : fn ≠ 0) (ha : a / 2 ^ 20 = 0) : regWrite s fn a v be = s := by
  have hvf : (fn != 0) = true := bne_iff_ne.mpr hf
  simp only [regWrite, hvf, ha, BEq.rfl, Bool.and_self, Bool.or_true, if_true]
/-- A whole word of the physical function reaches the register of an open window. -/
theorem regWrite_physical (s : State) (a v : Nat) (h : barWrite s (a / 2 ^ 20) = true) : regWrite s 0 a v 0xF = windowWrite s a v := by
  simp only [regWrite, h, inReach_physical, bne_self_eq_false, Bool.not_true, Bool.or_self, Bool.false_and, Bool.false_eq_true, if_false]

theorem windowWrite_intMask (s : State) (v : Nat) :
    windowWrite s 0x00100004 v = { s with intr := { s.intr with mask := BitVec.ofNat 32 (v % 2048) } } := rfl
theorem windowWrite_xltFaults (s : State) (v : Nat) :
    windowWrite s 0x04000008 v = { s with xlt := { s.xlt with faults := v } } := rfl

theorem exec_msixRearm_open (s : State) (v : W32) (h : barWrite s 1 = true) :
    exec (.msixRearm v) s = .next (intEval (intCfg s (v ||| 1).toNat)) := by
  change done (onBar s 1 _) = _
  rw [onBar, if_pos h, done]
theorem exec_msixRearm_shut (s : State) (v : W32) (h : barWrite s 1 = false) : exec (.msixRearm v) s = .next (intEval s) := by
  change done (onBar s 1 _) = _
  rw [onBar, h, if_neg Bool.false_ne_true, done]

/-! ## Reads -/

/-- The state in which function `fn` has latched the high word of a pair (R488). -/
def latchHigh (s : State) (fn pair : Nat) : State :=
  { s with latches := { hi := tabIns s.latches.hi (latchKey fn pair) (BitVec.ofNat 32 (pairValue s pair / 2 ^ 32)) } }

/-- A read of a low word within reach in an open window sends it and latches the high word. -/
theorem loRead_open (s : State) (fn a pair : Nat) (ho : barOpen s (a / 2 ^ 20) = true) (hr : inReach s fn a = true) :
    loRead s fn a pair = (latchHigh s fn pair).send (.readWord fn a (regRead s fn a)) := by
  have hp : pcieUp (latchHigh s fn pair) = true := pcieUp_of_barOpen s _ ho
  simp only [loRead, ho, hr, Bool.and_self, if_true]
  exact if_pos hp
/-- While the port is down a read does nothing. -/
theorem loRead_down (s : State) (fn a pair : Nat) (h : pcieUp s = false) : loRead s fn a pair = s := by
  simp [loRead, barOpen, h]
/-- The low words of GLB_ answer every function while the port is up. -/
theorem loRead_glb (s : State) (fn a pair : Nat) (hp : pcieUp s = true) (ha : a / 2 ^ 20 = 0) :
    loRead s fn a pair = (latchHigh s fn pair).send (.readWord fn a (regRead s fn a)) :=
  loRead_open s fn a pair (barOpen_low s _ hp (by omega)) (inReach_glb s fn a ha)

theorem regRead_physical (s : State) (a : Nat) (h : barOpen s (a / 2 ^ 20) = true) : regRead s 0 a = BitVec.ofNat 32 (windowRead s 0 a) := by
  simp only [regRead, h, inReach_physical, Bool.not_true, Bool.false_eq_true, if_false, if_true]
/-- `FLT_DUMP_STATUS` reads as R446 lays it out wherever the port is up. -/
theorem regRead_dumpStatus (s : State) (h : pcieUp s = true) : regRead s 0 0x0030003C = BitVec.ofNat 32 (dumpStatus s) :=
  regRead_physical s _ (barOpen_low s _ h (by decide))

/-- Counting at most one event from 0 does not saturate. -/
theorem satAdd_zero_event (ev : Bool) : satAdd 8 0 (if ev then 1 else 0) = if ev then 1 else 0 := by
  cases ev <;> rfl
/-- A read of SKIPPED by the physical function sends the word of before and leaves the events of the same cycle alone. -/
theorem exec_fltDumpSkippedRead (s : State) (ev : Bool) (h : pcieUp s = true) :
    exec (.fltDumpSkippedRead 0 ev) s = .next (intEval
      (({ s with flt := { s.flt with skipped := if ev then 1 else 0 } } : State).send (.readWord 0 0x0030003C (regRead s 0 0x0030003C)))) := by
  have ho : barOpen s 3 = true := barOpen_low s 3 h (Nat.le_refl 3)
  have hp : pcieUp ({ s with flt := { s.flt with skipped := if ev then 1 else 0 } } : State) = true := h
  change execFltDumpSkippedRead 0 ev s = _
  simp only [execFltDumpSkippedRead, ho, BEq.rfl, Bool.and_self, if_true, satAdd_zero_event, if_pos hp]
  exact onInst_next _ _ rfl

/-- Settles O58: the read sends the word of before the event, and the word afterwards is laid out over the events kept. -/
theorem skippedDumpsReadClears : Obligations.SkippedDumpsReadClears := by
  intro s ev hp
  exact ⟨exec_fltDumpSkippedRead s ev hp, regRead_dumpStatus s hp, regRead_dumpStatus _ hp⟩

/-- Settles O57: each refusal is a guard of `regWrite`, each effect the write of its window, and each read one of a latched pair. -/
theorem registerAccesses : Obligations.RegisterAccesses := by
  intro s fn i d a v be hfn latched
  have hok : fnOk fn = true := decide_eq_true hfn
  have hwrite := exec_registerWrite s fn a v be hfn
  have hshut (h : barWrite s (a.toNat / 2 ^ 20) = false) : exec (.registerWrite fn a v be) s = .next (intEval s) := by
    rw [hwrite, regWrite_shut]
    rwa [wordAddr_window]
  refine ⟨hwrite, ?partialWord, hshut, ?virtual, fun h => hshut (barWrite_of_failed s _ h), ?mask, ?faults,
    exec_msixRearm_open s v, exec_msixRearm_shut s v, ?glb, ?physical, ?down⟩
  case partialWord =>
    intro h
    rw [hwrite, regWrite_partial _ _ _ _ _ h]
  case virtual =>
    intro hf ha
    rw [hwrite, regWrite_virtual_glb _ _ _ _ _ hf (by rwa [wordAddr_window])]
  case mask =>
    intro h
    rw [exec_registerWrite s 0 _ v _ (by decide), regWrite_physical s _ _ h]
    change Host.Outcome.next (intEval (windowWrite s 0x00100004 v.toNat)) = _
    rw [windowWrite_intMask]
  case faults =>
    intro h
    rw [exec_registerWrite s 0 _ v _ (by decide), regWrite_physical s _ _ h]
    change Host.Outcome.next (intEval (windowWrite s 0x04000008 v.toNat)) = _
    rw [windowWrite_xltFaults]
  case glb =>
    intro hp
    have hread (a pair : Nat) (ha : a / 2 ^ 20 = 0) : onInst (fnOk fn) (loRead s fn a pair) =
        .next (intEval ((latched pair).send (.readWord fn a (regRead s fn a)))) := by
      rw [onInst_next _ _ hok, loRead_glb s fn a pair hp ha]
      rfl
    exact ⟨hread _ _ rfl, hread _ _ rfl, hread _ _ rfl⟩
  case physical =>
    rintro hp rfl hr hf hb
    have hread (ok : Bool) (a pair : Nat) (h : ok = true) : onInst ok (loRead s 0 a pair) =
        .next (intEval ((latched pair).send (.readWord 0 a (regRead s 0 a)))) := by
      rw [onInst_next _ _ h, loRead_open s 0 a pair (barOpen_served s _ hp hr hf hb) (inReach_physical s a)]
      rfl
    exact ⟨fun hi => hread _ _ _ (decide_eq_true hi), fun hd => hread _ _ _ (decide_eq_true hd), hread _ _ _ rfl⟩
  case down =>
    intro hp
    exact (onInst_next _ _ hok).trans (by rw [loRead_down s fn _ _ hp])

/-! ## A tile's engines and limits -/

/-- The scalar sum, the matrix product and the stream load are issues of their opcodes (R160). -/
theorem exec_sadd_issues (s : State) (n : Nat) (i : TI) : ∃ f, exec (.sadd n i) s = issue n 0x10 i f s := by
  change ∃ f, execSadd n i s = _
  rw [execSadd, issueReg]
  exact ⟨_, rfl⟩
theorem exec_mma_issues (s : State) (n : Nat) (i : TI) : ∃ f, exec (.mma n i) s = issue n 0x40 i f s := by
  change ∃ f, execMma n i s = _
  rw [execMma]
  exact ⟨_, rfl⟩
theorem exec_dld_issues (s : State) (n : Nat) (i : TI) : ∃ f, exec (.dld n i) s = issue n 0x30 i f s := ⟨_, rfl⟩

/-- An instruction of a tile that the part does not have stops with the fault of R12. -/
theorem issue_noInstance (n op : Nat) (i : TI) (f : State → State) (s : State) (hn : 10240 ≤ n) : stopsNoInstance (issue n op i f s) :=
  onInst_fault _ _ (decide_eq_false (Nat.not_lt.mpr hn))

/-- The first transfer of an engine is over once its last line has been served (R171), unless the engine is halted. -/
theorem transferComplete_served (s : State) (n : Nat) (e : Bool) (q : Xfer) (rest : List Xfer) (hq : ((s.tile n).eng e).queue = q :: rest)
    (hrow : q.rows ≤ q.row) (hwait : ((s.tile n).eng e).wait = 0) (hhalt : ((s.tile n).eng e).halted = false) :
    transferComplete s n e = settle (wakeDma (onEng s n e fun x => { x with queue := rest }) n) := by
  simp [transferComplete, hq, hrow, hwait, hhalt]

/-- R174: a tile that waits beyond the limit of its run traps, and one within it goes on waiting; no tile of a member that does not serve
traps. -/
theorem exec_tileWaitLimit (s : State) (n k since slot mode : Nat) (c : Cmd) (hn : n < 10240) (hrun : runOf s n = some (k, c))
    (hst : (s.tile n).st = .inSwait slot mode since) :
    exec (.tileWaitLimit n) s = .next (intEval
      (if !pairHeld s && c.runWaitUs != 0 && decide (since + us c.runWaitUs < s.now) then settle (trapTile s n 9 0) else s)) := by
  refine (onInst_next _ _ (decide_eq_true hn)).trans ?_
  simp only [hst, hrun]

/-- R188: a tile that has worked beyond the limit of its program traps, and one within it goes on; no tile of a member that does not serve
traps. -/
theorem exec_maxCyclesExceeded (s : State) (n k : Nat) (c : Cmd) (p : Prog) (hn : n < 10240) (hrun : runOf s n = some (k, c))
    (hp : s.prog c.runHandle = some p) :
    exec (.maxCyclesExceeded n) s = .next (intEval
      (if !pairHeld s && (s.tile n).st.active && decide (p.maxCyc < workCycles s n) then settle (trapTile s n 8 0) else s)) := by
  refine (onInst_next _ _ (decide_eq_true hn)).trans ?_
  simp only [hrun, hp]

/-- Settles O29: an instruction goes by what its issue does, and an event of an engine or limit by its guard. -/
theorem tileTimersRun : Obligations.TileTimersRun := by
  refine ⟨fun s n i => ?instructions, fun s n k c e hn hrun => ?events⟩
  case instructions =>
    obtain ⟨f, hsadd⟩ := exec_sadd_issues s n i
    obtain ⟨g, hmma⟩ := exec_mma_issues s n i
    obtain ⟨h, hdld⟩ := exec_dld_issues s n i
    rw [hsadd, hmma, hdld]
    exact ⟨issue_idle n _ i f s, issue_idle n _ i g s, fun hn =>
      ⟨issue_noInstance n _ i f s hn, issue_noInstance n _ i g s hn, issue_noInstance n _ i h s hn⟩⟩
  have htile : decide (n < 10240) = true := decide_eq_true hn
  refine ⟨?complete, ?burst, ?waitsLong, ?waits, ?worksLong, ?works⟩
  case complete =>
    intro q rest hq hrow hwait hhalt
    exact (onInst_next _ _ htile).trans (by rw [transferComplete_served s n e q rest hq hrow hwait hhalt])
  case burst =>
    intro h
    exact (onInst_next _ _ htile).trans (by rw [if_pos h])
  case waitsLong =>
    intro slot mode since hst hpair hlim hlate
    rw [exec_tileWaitLimit s n k since slot mode c hn hrun hst]
    simp [us, hpair, hlim, hlate]
  case waits =>
    intro slot mode since hst hearly
    rw [exec_tileWaitLimit s n k since slot mode c hn hrun hst]
    simp [us, Nat.not_lt.mpr hearly]
  case worksLong =>
    intro p hp hpair hact hover
    rw [exec_maxCyclesExceeded s n k c p hn hrun hp]
    simp [hpair, hact, hover]
  case works =>
    intro p hp hwithin
    rw [exec_maxCyclesExceeded s n k c p hn hrun hp]
    simp [Nat.not_lt.mpr hwithin]

end Sys2Proof.Machine
end

section
/-! How every row of the part ends (R12, R20): by `onInst` on the instances that its operands name, or, for resynchronisation data, by the
memory that its lines have. -/
namespace Sys2Proof.Machine

/-! ## The instances that an operand names -/

theorem unitOk_eq_unitWf (u : W32) : unitOk u = unitWf u := rfl
theorem muOk_eq_wf (u : MemUnit) : muOk u = u.wf := by cases u <;> rfl
theorem coreWf_iff (u : W32) : coreWf u = true ↔ unitOk u = true ∧ (unitClass u = 4 ∨ unitClass u = 5) := by
  simp [coreWf, unitOk_eq_unitWf, unitClass]
/-- A well-formed watchdog watches its unit (R433). -/
theorem wdWatches_of_watchWf (wd : Nat) (u : W32) (h : watchWf wd u = true) : (unitOk u && wdWatches wd u) = true := by
  simp only [watchWf, Bool.and_eq_true] at h
  obtain ⟨hunit, hclass⟩ := h
  rw [unitOk_eq_unitWf, hunit, Bool.true_and]
  match wd, hclass with
  | 4, _ => rfl
  | 1, h | 2, h | 3, h | 5, h | 6, h | 7, h | 8, h | 9, h => simpa [watched, wdWatches, unitClass] using h
  | 0, h | _ + 10, h => simp [watched] at h

/-! ## Rows that end by `onInst` -/

/-- The row ends by `onInst`, on instances that exist where the command is well-formed. -/
def endsOnInst (wf : Bool) (o : Host.Outcome State Fault Refusal) : Prop := ∃ ok t, o = onInst ok t ∧ (wf = true → ok = true)

theorem endsOnInst_done (wf : Bool) (t : State) : endsOnInst wf (done t) := ⟨true, t, rfl, fun _ => rfl⟩
theorem endsOnInst_same (ok : Bool) (t : State) : endsOnInst ok (onInst ok t) := ⟨ok, t, rfl, id⟩
theorem endsOnInst_of (wf ok : Bool) (t : State) (h : wf = true → ok = true) : endsOnInst wf (onInst ok t) := ⟨ok, t, rfl, h⟩
theorem endsOnInst_coh (m : CohMsg) (t : State) : endsOnInst m.wf (cohInst m t) :=
  endsOnInst_of _ _ _ fun h => by
    simp only [CohMsg.wf, Bool.and_eq_true] at h
    exact h.1.1
/-- A flit row names its port, and a well-formed one has a whole flit. -/
theorem endsOnInst_flit (p : Nat) (flit : List Byte) (t : State) :
    endsOnInst (portWf p && decide (flit.length = 256)) (onInst (decide (p < 14)) t) :=
  endsOnInst_of _ _ _ fun h => ((Bool.and_eq_true _ _).mp h).1
theorem endsOnInst_memUnit (u : MemUnit) (t : State) : endsOnInst u.wf (onInst (muOk u) t) := by
  rw [muOk_eq_wf]
  exact endsOnInst_same _ _
theorem endsOnInst_memUnit_and (u : MemUnit) (b : Bool) (t : State) : endsOnInst (u.wf && b) (onInst (muOk u && b) t) := by
  rw [muOk_eq_wf]
  exact endsOnInst_same _ _

/-- Every row but resynchronisation data ends by `onInst`: the rows of the whole part and the packets always go on, an instruction names its
tile, and the other rows the ring, port, lane, partition, unit, window, block or object of their operands. -/
theorem exec_endsOnInst (i : Instr) (s : State) (h : ∀ ppa bytes, i ≠ .resynchronisationData ppa bytes) : endsOnInst i.wf (exec i s) := by
  cases i with
  | resynchronisationData ppa bytes => exact absurd rfl (h ppa bytes)
  | nop k =>
    cases k with
    | cmd c => exact endsOnInst_done _ _
    | tile n i => exact endsOnInst_same _ _
  | resetHoldEnd p =>
    cases p with
    | none => exact endsOnInst_done _ _
    | some p => exact endsOnInst_same _ _
  | watchdogExpiry wd u => exact endsOnInst_of _ _ _ (wdWatches_of_watchWf wd u)
  | rdS m | rdX m | upg m | wb m | rspNp m | rspAck m | rspData m => exact endsOnInst_coh m _
  | data p flit | idle p flit | replayMark p flit | nak p flit | init p flit | linkReq p flit | linkAck p flit => exact endsOnInst_flit p flit _
  | channelIssue u | refreshDue u | scrubLine u => exact endsOnInst_memUnit u _
  | rowIdleClose u | remapInstall u | remapRemove u | remapCopyComplete u => exact endsOnInst_memUnit_and u _ _
  | halt | trap | br | bcc | lseti | lset | loop | gran | sadd | ssub | smul | sand | sor | sxor | saddi | sshl | sshr | ssra | smovi | smovhi
  | gets | vld | vst | ald | ast | sld | sst | mma | azero | aadd | amulv | amovv | vmova | cvt | vamax | scale | cvtq | deq | seed | unpk | pack
  | vcmp | vsel | vadd | vsub | vmul | vmax | vmin | vexp2 | vbcast | vred | arow | dld | dst | dwait | swait | ssig | sread =>
    exact endsOnInst_same _ _
  | macCheck | dmaBurstIssue | dmaTransferComplete | tileWaitLimit | maxCyclesExceeded
  | doorbell | ringFetch | ringEnable | ringDisable | ringDisableComplete | ringFlush | ringResume | ringStop
  | syncUpdateApply | contributionArrive | reductionStepComplete | stepLimitExpiry | lockupReady | chunkHashComplete | snoopTimeout | cohTokenExpiry
  | flitTransmit | replayTimerExpiry | creditTimeout | initTimer | holdoffEnd | rflCtrlRetrain | rflCtrlDown | rflCtrlUp
  | laneSignalDetect | cap | eq | step | check | align | checkPeriodEnd | trainStateTimeout | retrainTimeout | registerMark | laneFailure
  | loopbackNearSerial | loopbackNearParallel | loopbackFarRequest | loopbackEnd | farEndSignalLoss | frameLock | detectWindowEnd | prbsCheckerLock
  | park | parkComplete | unpark | zeroFillComplete | trainingRunStart | trainingRunDone | injectArm | partitionTrainingComplete | tenantScrubComplete
  | faultReport | brokenWire | dumpComplete | selfRefreshConfirm | quiesceDeadline | partitionReturn | quietEnd | escalation | recoveryWindowEnd
  | clockMonitorWindow | pllRelockComplete | coreHeartbeat | coreRestartComplete | thermalTrip | schedSelect | tdispRequest
  | synCountLoRead | mirSeqLoRead | pwrELoRead | glbDeviceIdLoRead | glbCapLoRead | glbTimeLoRead | fltDumpSkippedRead | registerWrite =>
    exact endsOnInst_same _ _
  | _ => exact endsOnInst_done _ _

theorem goesOn_of_endsOnInst {wf : Bool} {o : Host.Outcome State Fault Refusal} (h : endsOnInst wf o) (hwf : wf = true) : goesOn o := by
  obtain ⟨ok, t, rfl, hok⟩ := h
  exact ⟨intEval t, onInst_next ok t (hok hwf)⟩

/-! ## Resynchronisation data (R415, R20) -/

theorem exec_resync_backed (s : State) (ppa : W64) (bytes : List Byte)
    (h : ∀ o ∈ lineCuts ppa.toNat (min 4096 bytes.length), backed s (ppa.toNat + o) = true) :
    exec (.resynchronisationData ppa bytes) s = .next (intEval (resyncData s ppa.toNat bytes)) := by
  refine if_pos ?_
  rw [List.length_take, List.all_eq_true]
  exact h
theorem exec_resync_unbacked (s : State) (ppa : W64) (bytes : List Byte) (o : Nat)
    (ho : o ∈ lineCuts ppa.toNat (min 4096 bytes.length)) (h : backed s (ppa.toNat + o) = false) :
    exec (.resynchronisationData ppa bytes) s = .fault .unbacked := by
  refine if_neg fun hall => ?_
  rw [List.length_take, List.all_eq_true] at hall
  exact Bool.false_ne_true (h.symm.trans (hall o ho))

/-- Settles O4: every row but resynchronisation data ends on instances that exist, and that row goes on where its lines have memory. -/
theorem wellFormedCommandsGoOn : Obligations.WellFormedCommandsGoOn := by
  intro i s hwf hlines
  by_cases hr : ∃ ppa bytes, i = .resynchronisationData ppa bytes
  · obtain ⟨ppa, bytes, rfl⟩ := hr
    exact ⟨_, exec_resync_backed s ppa bytes (hlines ppa bytes rfl)⟩
  · exact goesOn_of_endsOnInst (exec_endsOnInst i s fun ppa bytes h => hr ⟨ppa, bytes, h⟩) hwf

end Sys2Proof.Machine
end

section
/-! Fault reports, watchdogs and clock monitors (R32, R34, R423, R431-R433, R465). -/
namespace Sys2Proof.Machine

/-! ## Clocks -/

theorem clockPlan_steady (s : State) (i : Nat) (h : tabGet 0 s.flt.stopUntil i = 0) :
    clockPlan s i = (islandKhz s i * 10000, islandKhz s i * 10000) := if_pos h
/-- At the end of a stop of 4 µs the window holds 6 µs of the old frequency and the stop. -/
theorem clockPlan_stopEnd (s : State) (i : Nat) (hstop : 4000 ≤ tabGet 0 s.flt.stopUntil i) (hnow : s.now = tabGet 0 s.flt.stopUntil i) :
    clockPlan s i = (tabGet 0 s.flt.wasKhz i * 6000,
      tabGet 0 s.flt.wasKhz i * 6000 + max (tabGet 0 s.flt.wasKhz i) (islandKhz s i) * 4000) := by
  have hpos : tabGet 0 s.flt.stopUntil i ≠ 0 := by omega
  have hbefore : min 10000 (tabGet 0 s.flt.stopUntil i - 4000 + 10000 - s.now) = 6000 := by omega
  have hspan : min 10000 (tabGet 0 s.flt.stopUntil i + 10000 - s.now) = 10000 := by omega
  simp [clockPlan, us, hpos, hbefore, hspan]

/-- A count within 5 % of the plan is no fault, and any other is one of the island. -/
theorem clockWindow_within (s : State) (i count lo hi : Nat) (hplan : clockPlan s i = (lo, hi))
    (hlo : 19 * lo ≤ 20 * count * 1000000) (hhi : 20 * count * 1000000 ≤ 21 * hi) : clockWindow s i count = s := by
  simp [clockWindow, hplan, hlo, hhi]
theorem clockWindow_outside (s : State) (i count lo hi : Nat) (hplan : clockPlan s i = (lo, hi))
    (h : 20 * count * 1000000 < 19 * lo ∨ 21 * hi < 20 * count * 1000000) : clockWindow s i count = faultAt s (unitOf 0xE i) 0x09 0 0 := by
  have hout : ¬ (19 * lo ≤ 20 * count * 1000000 ∧ 20 * count * 1000000 ≤ 21 * hi) := by omega
  simp [clockWindow, hplan, hout]

/-- No tile of the cluster works: the clock that starts again ends the relocking alone (R32). -/
theorem pllLocked_idle (s : State) (i : Nat) (h : ∀ e ∈ s.churn.tiles, cluOf e.1 = i → e.2.st.active = false) :
    pllLocked s i = { s with flt := { s.flt with relocking := s.flt.relocking.filter (· != i) } } := by
  have hnone : (s.churn.tiles.filter fun e => cluOf e.1 = i && e.2.st.active) = [] := by
    rw [List.filter_eq_nil_iff]
    intro e he
    simpa using h e he
  rw [pllLocked, hnone, List.foldl_nil]

/-! ## Units and watchdogs -/

theorem exec_brokenWire (s : State) (u : W32) (h : unitOk u = true) :
    exec (.brokenWire u) s = .next (intEval (if (s.unit u).stuck then s else brokenWire s u)) := onInst_next _ _ h
/-- A watchdog on its unit is a fault of it; that of a core only without its heartbeat (R433, R465). -/
theorem exec_watchdogExpiry (s : State) (wd : Nat) (u : W32) (hu : unitOk u = true) (hw : wdWatches wd u = true) :
    exec (.watchdogExpiry wd u) s =
      .next (intEval (if (wd = 7 ∨ wd = 8) ∧ heartLate s u = false then s else faultAt s u 0x0B wd 0)) := by
  refine (onInst_next _ _ (by rw [hu, hw]; rfl)).trans ?_
  simp
theorem exec_aliveToggle (s : State) :
    exec .aliveToggle s = .next (intEval (if aliveHeld s then s else { s with pins := { s.pins with alive := !s.pins.alive } })) := rfl

/-- Settles O49: a report and a broken wire by their units, a watchdog by the core's heartbeat, and a clock's window by its plan. -/
theorem faultReports : Obligations.FaultReports := by
  intro s u prot detail info wd i count
  refine ⟨onInst_next _ _, onInst_fault _ _, ?stuck, ?broken, ?watchdog, ?heartbeat, ?steady, ?stopEnd, ?relock, ?toggles, ?held⟩
  case stuck =>
    intro hu hs
    rw [exec_brokenWire s u hu, if_pos hs]
  case broken =>
    intro hu hs
    rw [exec_brokenWire s u hu, hs, if_neg Bool.false_ne_true]
  case watchdog =>
    intro hu hw
    rw [exec_watchdogExpiry s wd u hu hw]
    refine ⟨fun h7 h8 => ?_, fun hl => ?_, fun hc hl => ?_⟩
    · rw [if_neg fun h => h.1.elim h7 h8]
    · rw [if_neg fun h => Bool.false_ne_true (h.2.symm.trans hl)]
    · rw [if_pos ⟨hc, hl⟩]
  case heartbeat =>
    intro hu hc
    exact onInst_next _ _ ((coreWf_iff u).mpr ⟨hu, hc⟩)
  case steady =>
    intro hi hstop
    have hrow : exec (.clockMonitorWindow i count) s = .next (intEval (clockWindow s i count)) := onInst_next _ _ (decide_eq_true hi)
    have hplan := clockPlan_steady s i hstop
    refine ⟨fun hlo hhi => ?_, fun hout => ?_⟩
    · rw [hrow, clockWindow_within s i count _ _ hplan (by omega) (by omega)]
    · rw [hrow, clockWindow_outside s i count _ _ hplan (by omega)]
  case stopEnd =>
    rintro hi t old rfl rfl hstop hnow hlo hhi
    refine (onInst_next _ _ (decide_eq_true hi)).trans ?_
    rw [clockWindow_within s i count _ _ (clockPlan_stopEnd s i hstop hnow) (by omega) (by omega)]
  case relock =>
    intro hi
    have hrow : exec (.pllRelockComplete i) s = .next (intEval (pllLocked s i)) := onInst_next _ _ (decide_eq_true hi)
    exact ⟨hrow, fun hidle => by rw [hrow, pllLocked_idle s i hidle]⟩
  case toggles =>
    intro h
    rw [exec_aliveToggle, h, if_neg Bool.false_ne_true]
  case held =>
    intro h
    rw [exec_aliveToggle, if_pos h]

end Sys2Proof.Machine
end

section
/-! The records of the mirror stream that a member of a pair receives (R397-R417). -/
namespace Sys2Proof.Machine

@[simp] theorem sawRecord_state (s : State) : (sawRecord s).mir.state = s.mir.state := rfl
@[simp] theorem State.onMir_mir (s : State) (f : Mir → Mir) : (s.onMir f).mir = f s.mir := rfl

/-- What a record lets a member do: only a STANDBY starts tokens, and only it and the ACTIVE apply events (R396, R412). -/
theorem advance_idle (s : State) (h3 : s.mir.state ≠ 3) (h : s.mir.state = 1 → s.mir.due = []) : advance s = s := by
  rw [advance, if_neg h3]
  split
  case isTrue h1 => rw [applyDue, h h1, List.foldl_nil]
  case isFalse => rfl

/-! ## Tokens, events and replies sent (R397-R399, R402) -/

theorem tokenRecord_ignored (s : State) (t : BitVec 256) (h2 : s.mir.state ≠ 2) (h3 : s.mir.state ≠ 3) : tokenRecord s t = sawRecord s := by
  simp [tokenRecord, h2, h3]
theorem tokenRecord_duplicate (s : State) (t : BitVec 256)
    (h : (sawRecord s).mir.tokens.any (fun x => (tokOf x.1).seq == (tokOf t).seq) = true) : tokenRecord s t = sawRecord s := by
  simp only [tokenRecord, h, if_true, ite_self]
/-- A token that is no duplicate is kept, and what it lets the member do is done. -/
theorem tokenRecord_new (s : State) (t : BitVec 256) (hst : s.mir.state = 2 ∨ s.mir.state = 3)
    (h : (sawRecord s).mir.tokens.any (fun x => (tokOf x.1).seq == (tokOf t).seq) = false) :
    tokenRecord s t = advance ((sawRecord s).onMir fun m => { m with tokens := m.tokens ++ [(t, s.now)] }) := by
  have hin : (s.mir.state != 2 && s.mir.state != 3) = false := by
    obtain h2 | h3 := hst
    · rw [h2]; rfl
    · rw [h3]; rfl
  simp only [tokenRecord, sawRecord_state, hin, h, Bool.false_eq_true, if_false]
  rfl
theorem eventRecord_ignored (s : State) (e : BitVec 256) (h3 : s.mir.state ≠ 3) : eventRecord s e = sawRecord s := by
  simp [eventRecord, h3]
theorem eventRecord_standby (s : State) (e : BitVec 256) (h3 : s.mir.state = 3) :
    eventRecord s e = advance ((sawRecord s).onMir fun m => { m with
      due := m.due ++ [(e.toNat / 256 ^ 16 % 256 ^ 8, e.toNat / 256 ^ 8 % 256 ^ 1, e.toNat / 256 ^ 24 % 256 ^ 8)] }) := by
  simp [eventRecord, h3]
theorem replySent_ignored (s : State) (r : BitVec 128) (h3 : s.mir.state ≠ 3) : replySent s r = sawRecord s := by
  simp [replySent, h3]
theorem replySent_standby (s : State) (r : BitVec 128) (h3 : s.mir.state = 3) :
    replySent s r = advance ((sawRecord s).onMir fun m => { m with replyLog := m.replyLog.filter fun x => x.seq != r.toNat / 2 ^ 64 }) := by
  simp [replySent, h3]

/-! ## The other records (R403, R405, R407, R410, R415, R417) -/

/-- A member that is not OUT does not ask to join. -/
theorem askJoin_in (s : State) (h4 : s.mir.state ≠ 4) : askJoin s = s := by simp [askJoin, h4]
/-- The member that has read the partner's state from a heartbeat (R403). -/
def heartbeatRead (s : State) (h : BitVec 192) : State :=
  (sawRecord s).onMir fun m => { m with
    peerState := h.toNat / 256 ^ 8 % 256 ^ 1, peerParts := h.toNat / 256 ^ 9 % 256 ^ 1, peerSeq := h.toNat / 256 ^ 16 % 256 ^ 8 }
theorem heartbeatRecord_eq (s : State) (h : BitVec 192) : heartbeatRecord s h = askJoin (advance (heartbeatRead s h)) := rfl
theorem heartbeatRecord_idle (s : State) (h : BitVec 192) (h3 : s.mir.state ≠ 3) (h4 : s.mir.state ≠ 4)
    (h1 : s.mir.state = 1 → s.mir.due = []) : heartbeatRecord s h = heartbeatRead s h := by
  rw [heartbeatRecord_eq, advance_idle (heartbeatRead s h) h3 h1, askJoin_in (heartbeatRead s h) h4]
theorem digestRecord_unknown (s : State) (d : BitVec 384)
    (h : (advance (sawRecord s)).interval (d.toNat / 256 ^ 8 % 256 ^ 4) = none) : digestRecord s d = advance (sawRecord s) := by
  simp only [digestRecord, h]
theorem rangeList_standby (s : State) (l : List (Nat × W64)) (h3 : s.mir.state = 3) :
    rangeList s l = sendLists ((digestsOf (sawRecord s) (l.map (·.1))).1.length + 1) (digestsOf (sawRecord s) (l.map (·.1))).2
      (digestsOf (sawRecord s) (l.map (·.1))).1 := if_pos h3

/-- A notice of no code of R403 does nothing of its own. -/
theorem noticeRecord_unknown (s : State) (n : BitVec 128) (h : n.toNat / 256 ^ 8 % 256 = 0 ∨ 5 < n.toNat / 256 ^ 8 % 256) :
    noticeRecord s n = advance (sawRecord s) := by
  unfold noticeRecord
  generalize n.toNat / 256 ^ 8 % 256 = code at h ⊢
  match code, h with
  | 0, _ | _ + 6, _ => rfl
  | 1, h | 2, h | 3, h | 4, h | 5, h => omega
theorem noticeRecord_leave (s : State) (n : BitVec 128) (h : n.toNat / 256 ^ 8 % 256 = 4) :
    noticeRecord s n = lostStandby (advance (sawRecord s)) (n.toNat / 256 ^ 9 % 256) := by
  simp only [noticeRecord, h]
/-- On a SYNCING member a JOIN is the cut (R415). -/
theorem noticeRecord_join_syncing (s : State) (n : BitVec 128) (h : n.toNat / 256 ^ 8 % 256 = 5) (h2 : s.mir.state = 2) :
    noticeRecord s n = joinStep (sawRecord s) := by
  have hadv : advance (sawRecord s) = sawRecord s := advance_idle _ (by simp [h2]) (by simp [h2])
  simp only [noticeRecord, h, hadv]
  simp [h2]

/-- Outside a pair the data of a resynchronisation go nowhere. -/
theorem resyncData_solo (s : State) (ppa : Nat) (bytes : List Byte) (h0 : s.mir.state = 0) : resyncData s ppa bytes = sawRecord s := by
  simp [resyncData, h0]

/-- Settles O53: each record by the member's state, and resynchronisation data by the memory of its lines. -/
theorem pairRecordsRun : Obligations.PairRecordsRun := by
  intro s t e d h n rs l ppa bs y dup same
  have htoken : exec (.tokenRecord t) s = .next (intEval (tokenRecord s t)) := rfl
  have hevent : exec (.eventRecord e) s = .next (intEval (eventRecord s e)) := rfl
  have hreply : exec (.replySentRecord rs) s = .next (intEval (replySent s rs)) := rfl
  have hnotice : exec (.noticeRecord n) s = .next (intEval (noticeRecord s n)) := rfl
  refine ⟨?outside, ?syncing, ?standby, ?heartbeat, ?digest, ?notice, ?data, ?unbacked⟩
  case outside =>
    intro h2 h3
    exact ⟨by rw [htoken, tokenRecord_ignored s t h2 h3], by rw [hevent, eventRecord_ignored s e h3], by rw [hreply, replySent_ignored s rs h3]⟩
  case syncing =>
    intro h2 hnew
    rw [htoken, tokenRecord_new s t (.inl h2) hnew, advance_idle _ (by simp [h2]) (by simp [h2])]
  case standby =>
    intro h3
    refine ⟨fun hnew => ?_, fun hdup => ?_, ?_, ?_, ?_⟩
    · rw [htoken, tokenRecord_new s t (.inr h3) hnew]
    · rw [htoken, tokenRecord_duplicate s t hdup]
    · rw [hevent, eventRecord_standby s e h3]
    · rw [hreply, replySent_standby s rs h3]
    · exact congrArg (Host.Outcome.next ∘ intEval) (rangeList_standby s l h3)
  case heartbeat =>
    intro h3 h4 h1
    exact congrArg (Host.Outcome.next ∘ intEval) (heartbeatRecord_idle s h h3 h4 h1)
  case digest =>
    intro hnone
    exact congrArg (Host.Outcome.next ∘ intEval) (digestRecord_unknown s d hnone)
  case notice =>
    rintro code rfl
    refine ⟨fun hcode => ?_, fun hcode => ?_, fun hcode h2 => ?_⟩
    · rw [hnotice, noticeRecord_unknown s n hcode]
    · rw [hnotice, noticeRecord_leave s n hcode]
    · rw [hnotice, noticeRecord_join_syncing s n hcode h2]
  case data =>
    intro hlines
    have hrow := exec_resync_backed s ppa bs hlines
    exact ⟨hrow, fun h0 => by rw [hrow, resyncData_solo s _ bs h0]⟩
  case unbacked =>
    intro o ho hno
    exact exec_resync_unbacked s ppa bs o ho hno

end Sys2Proof.Machine
end

section
/-! What a command packet meets on arrival (R36, R41, R43, R53, R114, R128, R441, R453, R460): the checks that refuse it, and the wait list
that holds it. -/
namespace Sys2Proof.Machine

/-! ## Arrival -/

/-- A device that does not serve takes no packet (R441, R453, R460; log 4). -/
theorem receive_unserved (s : State) (spec : Option OpSpec) (c : CmdIn) (vis : Option Nat) (h : serving s = false) :
    receive s spec c vis = s := by simp [receive, h]
theorem receive_ifaceDown (s : State) (spec : Option OpSpec) (c : CmdIn) (vis : Option Nat) (h : chanRuns s c.chan = false) :
    receive s spec c vis = s := by simp [receive, h]

theorem takesCommands_iff (s : State) : takesCommands s = true ↔ serving s = true ∧ s.mir.state ≠ 5 ∧ pairHeld s = false := by
  simp [takesCommands, and_assoc]

/-- A packet by a wrong port is refused before any of it is used (R114). -/
theorem receive_wrongPort (s : State) (spec : Option OpSpec) (c : CmdIn) (cause : Nat) (ht : takesCommands s = true)
    (hr : chanRuns s c.chan = true) (hp : portCause s c.chan c.port = some cause) :
    receive s spec c = refuseIso s c ((s.chanHost c.chan).getD noHost) cause 0 0 := by
  obtain ⟨hserves, -, hpair⟩ := (takesCommands_iff s).mp ht
  simp [receive, hserves, hr, hp, hpair]

/-- A packet that the entry checks refuse. -/
theorem receive_refused (s s1 : State) (spec : Option OpSpec) (c : CmdIn) (st : Nat) (ht : takesCommands s = true) (ha : arrives s c)
    (he : entryChecks s spec c = (.refused st, s1)) (hst : st ≠ stENERGY) : receive s spec c = refuseTok s1 c st := by
  obtain ⟨hserves, hfence, hpair⟩ := (takesCommands_iff s).mp ht
  obtain ⟨hruns, hport⟩ := ha
  simp [receive, hserves, hfence, hpair, hruns, hport, he, hst]

/-! ## Refusals at entry -/

/-- Only an active gives order tokens (R396). -/
theorem assignToken_solo (s : State) (raw : W512) (outcome : Nat) (h : s.mir.state ≠ 1) : assignToken s raw outcome = ((0, 0), s) := by
  simp [assignToken, h]
theorem refuseTok_solo (s : State) (c : CmdIn) (st : Nat) (h : s.mir.state ≠ 1) (hst : st ≠ stRETRY) :
    refuseTok s c st = refuse s (replyTo s c) st := by
  simp [refuseTok, assignToken_solo s _ _ h, seqOk, hst]
@[simp] theorem refuse_cmds (s : State) (rt : ReplyTo) (status load : Nat) : (refuse s rt status load).store.cmds = s.store.cmds :=
  issueReply_cmds ..

/-- Steps 1, 2 and 4 of R53. -/
theorem entryChecks_version (s : State) (spec : Option OpSpec) (c : CmdIn) (hs : s.fw.standby = false) (hv : cmdB c.raw 2 1 / 16 ≠ 1) :
    entryChecks s spec c = (.refused stVERSION, s) := by simp [entryChecks, hs, hv]
theorem entryChecks_opcode (s : State) (c : CmdIn) (hs : s.fw.standby = false) (hv : cmdB c.raw 2 1 / 16 = 1) :
    entryChecks s none c = (.refused stOPCODE, s) := by simp [entryChecks, hs, hv]
theorem entryChecks_duplicateTag (s : State) (sp : OpSpec) (c : CmdIn) (hs : s.fw.standby = false) (hv : cmdB c.raw 2 1 / 16 = 1)
    (htag : tagInUse s c.chan (tagOf c.raw) = true) : entryChecks s (some sp) c = (.refused stMALFORMED, s) := by
  simp [entryChecks, hs, hv, htag]

/-- A refusal at entry outside an active pair is one final reply, and leaves the store's commands as they are. -/
theorem receive_refused_solo (s : State) (spec : Option OpSpec) (c : CmdIn) (st : Nat) (ht : takesCommands s = true) (ha : arrives s c)
    (h1 : s.mir.state ≠ 1) (he : entryChecks s spec c = (.refused st, s)) (hst : st ≠ stENERGY) (hretry : st ≠ stRETRY) :
    receive s spec c = refuse s (replyTo s c) st ∧ (receive s spec c).store.cmds = s.store.cmds := by
  have h := (receive_refused s s spec c st ht ha he hst).trans (refuseTok_solo s c st h1 hretry)
  exact ⟨h, by rw [h, refuse_cmds]⟩

/-- Settles O5: steps 1, 2 and 4 of the entry checks, and the two guards of arrival before them. -/
theorem entryRefusals : Obligations.EntryRefusals := by
  intro s c sp ht hstandby h1
  refine ⟨fun ha => ⟨?version, ?opcode, ?duplicate⟩, receive_ifaceDown s _ c none, fun cause => receive_wrongPort s _ c cause ht⟩
  case version =>
    intro hv
    exact receive_refused_solo s _ c _ ht ha h1 (entryChecks_version s _ c hstandby hv) (by decide) (by decide)
  case opcode =>
    intro hv
    exact receive_refused_solo s _ c _ ht ha h1 (entryChecks_opcode s c hstandby hv) (by decide) (by decide)
  case duplicate =>
    intro hv htag
    exact receive_refused_solo s _ c _ ht ha h1 (entryChecks_duplicateTag s sp c hstandby hv htag) (by decide) (by decide)

/-! ## Wait lists -/

/-- A command whose wait list is not met, and that is told of its acceptance, stands held (R43). -/
theorem acceptCmd_held (s : State) (sp : OpSpec) (x : Cmd) (hc : sp.charge (taken s x).1 = none) (hop : opcodeOf (taken s x).1.raw ≠ 0x0100)
    (hw : waitsOf (taken s x).2 (taken s x).1.raw = .unmet) :
    acceptCmd s sp x = settle (sendAccepted (heldState s x) (taken s x).1) := by
  have hquiet : ((sp.charge (taken s x).1).isSome || opcodeOf (taken s x).1.raw == 0x0100) = false := by
    rw [hc, beq_false_of_ne hop]; rfl
  have hwait : (waitsOf (taken s x).2 (taken s x).1.raw != .met || fenced (taken s x).2 (taken s x).1
      || !tokenOk (taken s x).2 (taken s x).1) = true := by
    rw [hw]; rfl
  have hstored : (storeCmd (taken s x).2 { (taken s x).1 with
      told := !((sp.charge (taken s x).1).isSome || opcodeOf (taken s x).1.raw == 0x0100) }).2 = heldState s x := by
    rw [hquiet]; rfl
  refine (if_pos hwait).trans (congrArg settle ((if_neg (ne_true_of_eq_false hquiet)).trans ?_))
  exact congrArg (sendAccepted · (taken s x).1) hstored

/-- Settles O6: the wait list decides at acceptance, and a packet for a device that does not serve changes nothing. -/
theorem heldAndUnserved : Obligations.HeldAndUnserved := by
  refine ⟨?held, ?unserved⟩
  case held =>
    intro s s1 sp c x hpass hc hc' hop hw
    rw [receive_passes s sp c x s1 hpass hc, acceptCmd_held s1 sp x hc' hop hw]
  case unserved =>
    intro s c h
    have hrow (sp : OpSpec) (c : CmdIn) : done (receive s (some sp) c) = .next (intEval s) := by rw [receive_unserved s _ c none h, done]
    exact ⟨hrow _ _, hrow _ _, hrow _ _, hrow _ _, hrow _ _, hrow _ _⟩

end Sys2Proof.Machine
end

section
/-! Commands that act as soon as they stand ready, and granular ones that then wait for their events (R52, R65, R70-R72, R233, R236, R255,
R273). -/
namespace Sys2Proof.Machine

/-- An opcode that is neither metered nor granular, by what it does with the command in its slot. -/
theorem actsAs_row {i : Instr} {sp : OpSpec} {c : CmdIn} {op : Nat} {H : State → Nat → Cmd → Prop} {E : State → Nat → Cmd → State}
    (ha : ∀ (t : State) (k : Nat) (y : Cmd), t.cmd k = some y → opcodeOf y.raw = op → y.chan = c.chan → H t k y → sp.act t k = E t k y)
    (ho : op < 65536 := by decide) (hi : ∀ s, exec i s = done (receive s (some sp) (withOpcode c op)) := by exact fun _ => rfl)
    (hc : ∀ x, sp.charge x = none := by exact fun _ => rfl) (hg : ∀ t x, sp.total t x = none := by exact fun _ _ => rfl) :
    actsAs i sp (withOpcode c op) H E := actsAs_of i sp c op H E ho hi hc hg ha
/-- An opcode that is not metered at entry, by what its row does after the arrival. -/
theorem standsReady_row {i : Instr} {sp : OpSpec} {c : CmdIn} {after : State → State}
    (hi : ∀ s, exec i s = done (after (receive s (some sp) c)) := by exact fun _ => rfl)
    (hc : ∀ x, sp.charge x = none := by exact fun _ => rfl) : standsReady i sp c after := standsReady_of i sp c after hi hc

/-! ## CAP_QUERY, NOP and NMO_RELEASE (R72, R236) -/

theorem capQueryAct_eq (t : State) (k : Nat) (y : Cmd) (h : t.cmd k = some y) :
    capQueryAct t k = settle (finish t k stOK 0 (capWord (y.par 16 2)).toNat) := by simp only [capQueryAct, h]
theorem nmoReleaseAct_eq (t : State) (k : Nat) (y : Cmd) (h : t.cmd k = some y) :
    nmoReleaseAct t k = settle (finish (t.setChan y.chan { t.chan y.chan with halted := false, haltCount := 0 }) k stOK 0
      (t.chan y.chan).haltCount [] ((t.chan y.chan).haltCount = 2 ^ 32 - 1)) := by simp only [nmoReleaseAct, h]
/-- Reads and NOP take no token at their stop, nor does an opcode outside an active (R396). -/
theorem memService_untokened (t : State) (k : Nat) (y : Cmd) (h : t.cmd k = some y) (hno : t.mir.state ≠ 1 ∨ opcodeOf y.raw ≤ 0x0101) :
    memService t k = memApply t k := by
  obtain h1 | hop := hno
  · simp [memService, h, h1]
  · simp [memService, h, hop]
theorem memService_nop (t : State) (k : Nat) (y : Cmd) (h : t.cmd k = some y) (hop : opcodeOf y.raw = 0x0100) :
    memService t k = settle (finish t k stOK) := by
  rw [memService_untokened t k y h (.inr (by omega))]
  simp only [memApply, h, hop, if_true]

/-! ## CANCEL (R70, R71) -/

/-- The command of the store that a CANCEL in slot `k` is for. -/
def cancelTarget (t : State) (k : Nat) (y : Cmd) : Option (Nat × Cmd) :=
  t.store.cmds.find? fun e => e.1 != k && e.2.chan == y.chan && tagOf e.2.raw == y.par 16 4

theorem cancelAct_unknown (t : State) (k : Nat) (y : Cmd) (h : t.cmd k = some y) (hnone : cancelTarget t k y = none) :
    cancelAct t k = settle (finish t k stOK 0 0) := by
  rw [cancelTarget] at hnone
  simp only [cancelAct, h, hnone]
/-- A target whose end is decided at once: the CANCEL ends with its outcome. -/
theorem cancelAct_decided (t s1 : State) (k j out : Nat) (y z : Cmd) (h : t.cmd k = some y) (hfind : cancelTarget t k y = some (j, z))
    (hend : cancelCmd (t.setCmd k { y with st := .finishing }) j (some k) = (some out, s1)) :
    cancelAct t k = settle (finish s1 k stOK 0 out) := by
  rw [cancelTarget] at hfind
  simp only [cancelAct, h, hfind, hend]
/-- A held command that is no contribution is cancelled before it has started: outcome 1. -/
theorem cancelCmd_held (t : State) (j : Nat) (by_ : Option Nat) (z : Cmd) (h : t.cmd j = some z) (hst : z.st = .held)
    (hnew : z.started = false) (hop : opcodeOf z.raw ≠ 0x0311) :
    cancelCmd t j by_ = (some 1, settle (finish t j stCANCELLED z.progress)) := by
  simp [cancelCmd, h, hst, hnew, hop]

/-! ## KV pools (R253, R255, R273) -/

theorem attOpenAct_eq (t : State) (k : Nat) (y : Cmd) (h : t.cmd k = some y) (hfree : tabGap t.work.pools 1 ≤ 255) :
    attOpenAct t k =
      settle (finish { t with work := { t.work with pools := tabIns t.work.pools (tabGap t.work.pools 1) (poolOf y) } } k stOK 0
        (tabGap t.work.pools 1 + 2 ^ 32 * (poolOf y).pageB)) := by
  have hhandle : freePool t = some (tabGap t.work.pools 1) := if_neg (Nat.not_lt.mpr hfree)
  simp only [attOpenAct, h, hhandle]
theorem attCloseAct_eq (t : State) (k : Nat) (y : Cmd) (p : Pool) (h : t.cmd k = some y) (hp : t.pool (y.par 16 1) = some p)
    (hopen : p.closing = none) :
    attCloseAct t k =
      tellAccepted (settle (State.setCmd { t with work := { t.work with pools := tabIns t.work.pools (y.par 16 1) { p with closing := some k } } } k
        { y with st := .finishing })) k := by
  simp [attCloseAct, h, hp, hopen]

/-- Settles O7: each opcode by what its act does with the command in its slot. -/
theorem deviceAndPoolCommandsRun : Obligations.DeviceAndPoolCommandsRun := by
  refine ⟨fun c => ⟨?cap, ?unknown, ?nop, ?release⟩, fun c j z => ?held, fun c => ⟨?poolOpen, fun p => ?poolClose⟩⟩
  case cap =>
    exact actsAs_row fun t k y h _ _ _ => capQueryAct_eq t k y h
  case unknown =>
    exact actsAs_row fun t k y h _ _ hnone => cancelAct_unknown t k y h hnone
  case nop =>
    exact actsAs_row fun t k y h hop _ _ => memService_nop t k y h hop
  case release =>
    exact actsAs_row fun t k y h _ _ _ => nmoReleaseAct_eq t k y h
  case held =>
    refine actsAs_row fun t k y h _ _ hheld => ?_
    obtain ⟨hfind, hjk, hz, hst, hnew, hprog, hop⟩ := hheld
    have hz' : (t.setCmd k { y with st := .finishing }).cmd j = some z := by rw [State.cmd_setCmd_other _ _ _ _ hjk, hz]
    have hcancel := cancelCmd_held _ j (some k) z hz' hst hnew hop
    rw [hprog] at hcancel
    exact cancelAct_decided t _ k j 1 y z h hfind hcancel
  case poolOpen =>
    exact actsAs_row fun t k y h _ _ hfree => attOpenAct_eq t k y h hfree
  case poolClose =>
    exact actsAs_row fun t k y h _ _ ⟨hp, hopen⟩ => attCloseAct_eq t k y p h hp hopen

/-! ## Granular commands (R52, R65) -/

/-- Settles O18: none of these opcodes is metered at entry, and what follows the arrival is in its row. -/
theorem granularCommandsStandReady : Obligations.GranularCommandsStandReady := by
  intro c
  exact ⟨standsReady_row, standsReady_row, standsReady_row, standsReady_row, standsReady_row, standsReady_row, standsReady_row,
    standsReady_row, standsReady_row, standsReady_row, standsReady_row, standsReady_row⟩

end Sys2Proof.Machine
end

section
/-! Hardware memory opcodes at their memory stop (R57, R138, R141, R372). -/
namespace Sys2Proof.Machine

/-! ## What each opcode does at its stop -/

theorem underSeq_untokened (c : Cmd) (f : State → State) (s : State) (h : c.mirSeq = 0) : underSeq c f s = accessed (f (accessing s)) := by
  simp [underSeq, accessed, accessing, h]

theorem memApply_read (u v : State) (k : Nat) (y : Cmd) (bs : List Byte) (h : u.cmd k = some y) (hop : opcodeOf y.raw = 0x0101)
    (hread : readGran (beginAccess u) y.host (cmdB y.raw 16 8) (cmdB y.raw 24 4) = (.ok bs, v)) :
    memApply u k = (match y.chan with
      | .ring _ =>
        let w := toBuf v y.host (cmdB y.raw 32 8) bs
        settle (finish (markUsed w k) k (okStatus w) 0 0 [])
      | .rank _ => settle (finish (markUsed v k) k (okStatus v) 0 0 bs)) := by
  simp only [memApply, h, hop, hread]
  cases y.chan <;> rfl
theorem memApply_write (u w v : State) (k : Nat) (y : Cmd) (bs : List Byte) (h : u.cmd k = some y) (hop : opcodeOf y.raw = 0x0102)
    (hseq : y.mirSeq = 0) (hdata : writeData u y (cmdB y.raw 24 4) = (some bs, w))
    (hwrite : writeGran (accessing w) y.host (cmdB y.raw 16 8) bs = (.ok (), v)) :
    memApply u k = accessed (settle (finish (rtWrite (markUsed v k) y.host (cmdB y.raw 16 8) bs.length) k stOK)) := by
  simp only [memApply, h, hop, hdata, underSeq_untokened _ _ _ hseq, hwrite]
  rfl
/-- The value that an atomic opcode leaves, of the value before (R57). -/
def atomicNew (y : Cmd) (old : Nat) : Nat :=
  if opcodeOf y.raw = 0x0103 then atomicOp (cmdB y.raw 25 1) (cmdB y.raw 24 1) old (cmdB y.raw 32 (cmdB y.raw 25 1))
  else if old = cmdB y.raw 32 (cmdB y.raw 25 1) then cmdB y.raw 40 (cmdB y.raw 25 1) else old
theorem atomicNew_memAtomic (y : Cmd) (hop : opcodeOf y.raw = 0x0103) :
    atomicNew y = fun o => atomicOp (cmdB y.raw 25 1) (cmdB y.raw 24 1) o (cmdB y.raw 32 (cmdB y.raw 25 1)) := funext fun _ => if_pos hop
theorem atomicNew_memCas (y : Cmd) (hop : opcodeOf y.raw ≠ 0x0103) :
    atomicNew y = fun o => if o = cmdB y.raw 32 (cmdB y.raw 25 1) then cmdB y.raw 40 (cmdB y.raw 25 1) else o := funext fun _ => if_neg hop
theorem memApply_atomic (u v : State) (k old : Nat) (y : Cmd) (h : u.cmd k = some y) (hop : 0x0102 < opcodeOf y.raw) (hseq : y.mirSeq = 0)
    (hold : atomicRa (accessing u) y.host (cmdB y.raw 16 8) (cmdB y.raw 25 1) (atomicNew y) = (.ok old, v)) :
    memApply u k = accessed (settle (finish (markUsed v k) k (okStatus v) 0 old)) := by
  have h0 : opcodeOf y.raw ≠ 0x0100 := by omega
  have h1 : opcodeOf y.raw ≠ 0x0101 := by omega
  have h2 : opcodeOf y.raw ≠ 0x0102 := by omega
  unfold atomicNew at hold
  simp only [memApply, h, h0, h1, h2, if_false, underSeq_untokened _ _ _ hseq, hold]

/-! ## Where its packet reaches the stop -/

/-- Outside an active, at a stop where nothing waits, the opcode of a row takes effect in the step of its arrival (log 11). -/
theorem mem_served_row (i : Instr) {s u : State} {sp : OpSpec} {c : CmdIn} {op pt k : Nat} {y : Cmd}
    (hreach : reachesStop s sp (withOpcode c op) pt k y u) (hidle : (u.point pt).items = []) (hsolo : u.mir.state ≠ 1)
    (ho : op < 65536 := by decide) (hi : exec i s = done (receive s (some sp) (withOpcode c op)) := by exact rfl)
    (hg : ∀ t x, sp.total t x = none := by exact fun _ _ => rfl) (hz : ∀ t x, sp.size t x = none := by exact fun _ _ => rfl)
    (hact : sp.act = memAct := by exact rfl) :
    exec i s = .next (intEval (memApply u k)) ∧ u.cmd k = some y ∧ opcodeOf y.raw = op := by
  obtain ⟨hrow, hy, hyop⟩ := mem_served i op ho s sp c pt k y u hi hg hz hact hidle hreach
  exact ⟨by rw [hrow, memService_untokened u k y hy (.inl hsolo), done], hy, hyop⟩

/-- The item of an opcode of `b` bytes that waits at its stop, and the state in which it does. -/
def memItem (u : State) (k : Nat) (y : Cmd) (b : Nat) : QItem :=
  { tc := tcOfPrio y.prio, color := 1, bytes := b, f := 0, since := u.now, work := .cmd k
    tag := BitVec.ofNat 32 (tagOf y.raw), src := BitVec.ofNat 32 (srcOf y.raw), elig := 0 }
def memQueued (u : State) (pt k : Nat) (y : Cmd) (b : Nat) : State := enqueueItem (u.setCmd k { y with st := .queued }) pt (memItem u k y b)

/-- Behind other items the opcode of a row waits at its stop. -/
theorem mem_queued_row (i : Instr) {s u : State} {sp : OpSpec} {c : CmdIn} {op pt k : Nat} {y : Cmd}
    (hreach : reachesStop s sp (withOpcode c op) pt k y u) (hbusy : (u.point pt).items ≠ []) {b : Nat}
    (hb : (if op ≤ 0x0102 then roundUp (cmdB y.raw 24 4) 64 else 64) = b)
    (ho : op < 65536 := by decide) (hi : exec i s = done (receive s (some sp) (withOpcode c op)) := by exact rfl)
    (hg : ∀ t x, sp.total t x = none := by exact fun _ _ => rfl) (hz : ∀ t x, sp.size t x = none := by exact fun _ _ => rfl)
    (hact : sp.act = memAct := by exact rfl) :
    exec i s = .next (intEval (memQueued u pt k y b)) := by
  subst hb
  exact mem_queued i op ho s sp c pt k y u hi hg hz hact hbusy hreach

/-- Settles O19: at an idle stop each opcode is served at once, and behind other items it is queued. -/
theorem memoryOpcodesServed : Obligations.MemoryOpcodesServed := by
  refine ⟨fun s c pt k y u v hidle hsolo hseq => ⟨?read, ?write, ?atomic, ?cas⟩, ?queued⟩
  case read =>
    intro bs hreach hread
    obtain ⟨hrow, hy, hop⟩ := mem_served_row (.memRead c) hreach hidle hsolo
    exact hrow.trans (congrArg (Host.Outcome.next ∘ intEval) (memApply_read u v k y bs hy hop hread))
  case write =>
    intro bs w hreach hdata hwrite
    obtain ⟨hrow, hy, hop⟩ := mem_served_row (.memWrite c) hreach hidle hsolo
    rw [hrow, memApply_write u w v k y bs hy hop hseq hdata hwrite]
  case atomic =>
    intro old hreach hold
    obtain ⟨hrow, hy, hop⟩ := mem_served_row (.memAtomic c) hreach hidle hsolo
    rw [← atomicNew_memAtomic y hop] at hold
    rw [hrow, memApply_atomic u v k old y hy (by omega) hseq hold]
  case cas =>
    intro old hreach hold
    obtain ⟨hrow, hy, hop⟩ := mem_served_row (.memCas c) hreach hidle hsolo
    rw [← atomicNew_memCas y (by omega)] at hold
    rw [hrow, memApply_atomic u v k old y hy (by omega) hseq hold]
  case queued =>
    intro s c pt k y u hbusy item q
    refine ⟨fun hreach => ?_, fun hreach => ?_, fun hreach => ?_, fun hreach => ?_⟩
    · exact mem_queued_row (.memRead c) hreach hbusy (if_pos (by decide))
    · exact mem_queued_row (.memWrite c) hreach hbusy (if_pos (by decide))
    · exact mem_queued_row (.memAtomic c) hreach hbusy (if_neg (by decide))
    · exact mem_queued_row (.memCas c) hreach hbusy (if_neg (by decide))

end Sys2Proof.Machine
end

section
/-! The registers of a command ring and its fetches (R45, R64, R74-R76). -/
namespace Sys2Proof.Machine

/-! ## `CMD_RING_CFG` (R74, R75) -/

theorem bitOf_zero (w : W32) : bitOf w.toNat 0 = w.getLsbD 0 := by simp [bitOf, BitVec.getLsbD, Nat.testBit_zero]
/-- A write that sets EN leaves the other fields of its word alone, and one that clears EN has EN = 0. -/
theorem bitOf_enableWord (v : W32) : bitOf (v ||| 1).toNat 0 = true := by rw [bitOf_zero]; simp
theorem bitOf_disableWord (v : W32) : bitOf (v &&& ~~~1).toNat 0 = false := by rw [bitOf_zero]; simp
theorem enableWord_half (v : W32) : (v ||| 1).toNat / 2 = v.toNat / 2 := by simp [BitVec.toNat_or, Nat.or_div_two]
theorem enableWord_rqLog2 (v : W32) : (v ||| 1).toNat / 2 ^ 6 % 32 = v.toNat / 2 ^ 6 % 32 := by
  have h := enableWord_half v
  omega

/-- While EN reads 1 a write that keeps it changes OUTSTANDING_MAX alone. -/
theorem ringCfg_keepsEn (s : State) (n v : Nat) (hen : (s.ring n).en = true) (hv : bitOf v 0 = true) :
    ringCfg s n v = s.setRing n { s.ring n with outMax := v / 2 ^ 13 % 1024 } := by simp [ringCfg, hen, hv]
theorem ringCfg_disables (s : State) (n v : Nat) (hen : (s.ring n).en = true) (hdis : (s.ring n).disabling = false) (hv : bitOf v 0 = false) :
    ringCfg s n v = cancelAll (s.setRing n { s.ring n with outMax := v / 2 ^ 13 % 1024, disabling := true }) fun c => c.chan == .ring n := by
  simp [ringCfg, hen, hdis, hv]
/-- Enabling starts the indices anew; STOPPED stays while an error bit stands (log 35). -/
theorem ringCfg_enables (s : State) (n v : Nat) (hen : (s.ring n).en = false) (hv : bitOf v 0 = true) (hsq : 6 ≤ v / 2 % 32)
    (hsq' : v / 2 % 32 ≤ 16) (hrq : 7 ≤ v / 2 ^ 6 % 32) (hrq' : v / 2 ^ 6 % 32 ≤ 16) :
    ringCfg s n v = s.setRing n { s.ring n with
      outMax := v / 2 ^ 13 % 1024, sqLog2 := v / 2 % 32, rqLog2 := v / 2 ^ 6 % 32
      en := true, disabling := false, sqTail := 0, sqHead := 0, rqTail := 0, rqHead := 0, phase := true, full := false, bells := []
      stopped := (s.ring n).fetchErr || (s.ring n).writeErr } := by
  simp only [ringCfg, hen, hv, hsq, hsq', hrq, hrq', Bool.not_true, Bool.false_eq_true, if_false, decide_true, Bool.and_self, if_true]
theorem ringCfg_badSize (s : State) (n v : Nat) (hen : (s.ring n).en = false) (hv : bitOf v 0 = true)
    (hsq : v / 2 % 32 < 6 ∨ 16 < v / 2 % 32) :
    ringCfg s n v = s.setRing n { s.ring n with
      outMax := v / 2 ^ 13 % 1024, sqLog2 := v / 2 % 32, rqLog2 := v / 2 ^ 6 % 32, cfgErr := true } := by
  have hrange : (decide (6 ≤ v / 2 % 32) && decide (v / 2 % 32 ≤ 16)) = false := by
    simp only [Bool.and_eq_false_iff, decide_eq_false_iff_not]
    omega
  simp only [ringCfg, hen, hv, hrange, Bool.not_true, Bool.false_and, Bool.false_eq_true, if_false]

/-! ## `CMD_RING_CTRL` (R74) -/

theorem ringCtrl_flush (s : State) (n : Nat) : ringCtrl s n 4 = cancelAll s fun c => c.chan == .ring n := by simp [ringCtrl, bitOf]
theorem ringCtrl_stop (s : State) (n : Nat) : ringCtrl s n 1 = s.setRing n { s.ring n with stopped := true } := by simp [ringCtrl, bitOf]
theorem ringCtrl_resume (s : State) (n : Nat) (h : (s.ring n).errs = false) :
    ringCtrl s n 2 = s.setRing n { s.ring n with stopped := false } := by simp [ringCtrl, bitOf, h]

/-- A row that writes a ring's registers within reach. -/
theorem exec_ringRow {o : Host.Outcome State Fault Refusal} {s t : State} {n : Nat} (hn : n < 1024) (hup : ringsUp s = true)
    (ho : o = onInst (decide (n < 1024)) (if ringsUp s then t else s) := by exact rfl) : o = .next (intEval t) := by
  rw [ho, if_pos hup, onInst_next _ _ (decide_eq_true hn)]

/-! ## Fetching (R76) -/

/-- Host memory that the bus does not deliver gives no unit, and a host without seals gives its bytes as they are (R129). -/
theorem takeUnit_busError (s : State) (h kind a rec n : Nat) (raw : W512) (hbad : s.hostFails a n = true) :
    takeUnit s h kind a rec n raw = (none, s) := by simp [takeUnit, hbad]
theorem takeUnit_unsealed (s : State) (h kind a rec n : Nat) (raw : W512) (hok : s.hostFails a n = false) (hplain : sealedHost s h = false) :
    takeUnit s h kind a rec n raw = (some (s.hostRead a n), s) := by simp [takeUnit, hok, hplain]
theorem sealedHost_eq_false (s : State) (h : Nat) (hpath : ∀ e, s.host h = some e → e.path ≠ 3) : sealedHost s h = false := by
  unfold sealedHost
  cases he : s.host h with
  | none => rfl
  | some e => simpa using hpath e he

/-- The address of the slot at SQ_HEAD, and the index after it. -/
def headAddr (r : Ring) : Nat := r.sqBase.toNat + 64 * (r.sqHead % 2 ^ r.sqLog2)
def headNext (r : Ring) : Nat := (r.sqHead + 1) % 2 ^ r.sqLog2

theorem fetchBytes_busError (s : State) (n : Nat) (hbad : s.hostFails (headAddr (s.ring n)) 64 = true) : fetchBytes s n = (none, s) := by
  rw [headAddr] at hbad
  simp only [fetchBytes, takeUnit_busError _ _ _ _ _ _ _ hbad]
theorem fetchBytes_unsealed (s : State) (n : Nat) (hok : s.hostFails (headAddr (s.ring n)) 64 = false)
    (hplain : sealedHost s (s.ring n).ident = false) :
    fetchBytes s n = (some (BitVec.ofNat 512 (leNat (s.hostRead (headAddr (s.ring n)) 64))), s) := by
  rw [headAddr] at hok ⊢
  simp only [fetchBytes, takeUnit_unsealed _ _ _ _ _ _ _ hok hplain]

theorem ringFetch_idle (s : State) (n : Nat) (h : mayFetch s n = false) : ringFetch s n = s := by simp [ringFetch, h]
theorem ringFetch_fails (s : State) (n : Nat) (h : mayFetch s n = true) (hb : fetchBytes s n = (none, s)) : ringFetch s n = fetchFail s n := by
  simp [ringFetch, h, hb]
/-- The command that a fetch gives to the entry checks is visible since the oldest doorbell (R64). -/
theorem ringFetch_delivers (s : State) (n t moment : Nat) (bells : List (Nat × Nat)) (raw : W512) (h : mayFetch s n = true)
    (hb : fetchBytes s n = (some raw, s)) (hbells : (s.ring n).bells = (t, moment) :: bells) :
    ringFetch s n = receiveCmd (s.setRing n { s.ring n with
        sqHead := headNext (s.ring n)
        bells := if t % 2 ^ (s.ring n).sqLog2 = headNext (s.ring n) then bells else (t, moment) :: bells })
      { chan := .ring n, port := 14, txn := 0, raw := raw, data := [] } (some moment) := by
  rw [headNext]
  by_cases hlast : t % 2 ^ (s.ring n).sqLog2 = ((s.ring n).sqHead + 1) % 2 ^ (s.ring n).sqLog2 <;> simp [ringFetch, h, hb, hbells, hlast]

/-- Settles O20: each register by its write, and a fetch by what the ring may do and what the bus delivers. -/
theorem ringRowsRun : Obligations.RingRowsRun := by
  refine ⟨fun s n v hn hup => ⟨?doorbell, ?enable, ?disable, ?flush, ?resume, ?stop, ?disabled⟩,
    fun s n v hn hup => ⟨fun hen => ?keeps, fun hen hsq => ?badSize⟩, ?fetches⟩
  case doorbell => exact exec_ringRow hn hup
  case enable =>
    intro hen hsq hsq' hrq hrq' hfetch hwrite
    rw [exec_ringRow (o := exec (.ringEnable n v) s) hn hup, ringCfg_enables s n _ hen (bitOf_enableWord v) (by rwa [enableWord_half])
      (by rwa [enableWord_half]) (by rwa [enableWord_rqLog2]) (by rwa [enableWord_rqLog2]), hfetch, hwrite]
    rfl
  case disable =>
    intro hen hdis
    rw [exec_ringRow (o := exec (.ringDisable n v) s) hn hup, ringCfg_disables s n _ hen hdis (bitOf_disableWord v)]
  case flush => rw [exec_ringRow (o := exec (.ringFlush n) s) hn hup, ringCtrl_flush]
  case resume =>
    intro herrs
    rw [exec_ringRow (o := exec (.ringResume n) s) hn hup, ringCtrl_resume s n herrs]
  case stop => rw [exec_ringRow (o := exec (.ringStop n) s) hn hup, ringCtrl_stop]
  case disabled =>
    intro hen hdis hout
    exact (onInst_next _ _ (decide_eq_true hn)).trans (by simp [hen, hdis, hout])
  case keeps => rw [exec_ringRow (o := exec (.ringEnable n v) s) hn hup, ringCfg_keepsEn s n _ hen (bitOf_enableWord v)]
  case badSize =>
    rw [exec_ringRow (o := exec (.ringEnable n v) s) hn hup, ringCfg_badSize s n _ hen (bitOf_enableWord v) (by rwa [enableWord_half])]
  case fetches =>
    intro s n hn r a head
    have hrow : exec (.ringFetch n) s = .next (intEval (ringFetch s n)) := onInst_next _ _ (decide_eq_true hn)
    refine ⟨fun hno => ?idle, fun hmay hbad => ?busError, fun t moment bells hmay hok hpath hbells => ?delivers⟩
    case idle => rw [hrow, ringFetch_idle s n hno]
    case busError =>
      rw [hrow, ringFetch_fails s n hmay (fetchBytes_busError s n hbad)]
      rfl
    case delivers =>
      rw [hrow, ringFetch_delivers s n t moment bells _ hmay (fetchBytes_unsealed s n hok (sealedHost_eq_false s _ hpath)) hbells]
      rfl

end Sys2Proof.Machine
end

section
/-! The timers of the command store (R43, R63, R119, R121, R138, R280). -/
namespace Sys2Proof.Machine

/-! ## Wait limits (R43) -/

theorem exec_waitLimitExpiry (s : State) (k : Nat) (c : Cmd) (h : s.cmd k = some c) :
    exec (.waitLimitExpiry k) s = .next (intEval (if c.st == .held && waitLimit c.raw != 0 && !pairHeld s && !unitDown s (unitOf 5 2)
      && decide (c.accepted + us (100 * waitLimit c.raw) ≤ s.now) then settle (finish s k stWAIT_EXPIRED) else s)) := by
  change execWaitLimitExpiry k s = _
  simp only [execWaitLimitExpiry, h, done]
theorem us_waitLimit (w : Nat) : us (100 * w) = 100000 * w := by rw [us]; omega

/-! ## Withdrawal (R138, R280) -/

/-- A queued opcode of colour 2 or 4 that was not served in 16 µs leaves its stop and is answered RETRY. -/
theorem exec_yellowWithdrawal_due (s : State) (k : Nat) (c : Cmd) (h : s.cmd k = some c) (hst : c.st = .queued)
    (hcol : c.color = 2 ∨ c.color = 4) (hdue : c.visible + 16000 ≤ s.now) :
    exec (.yellowWithdrawal k) s = .next (intEval (settle (retry
      (let t := (cleanup s k c).delCmd k
       if c.color = 2 then { t with qos := { t.qos with withdrawn := satAdd 32 t.qos.withdrawn 1 } } else t) c.replyTo (loadOf s c)))) := by
  have hcond : (c.st == .queued && (c.color == 2 || c.color == 4) && decide (c.visible + 16000 ≤ s.now)) = true := by
    simp [hst, hcol, hdue]
  change execYellowWithdrawal k s = _
  simp only [execYellowWithdrawal, h, hcond, if_true, done]
theorem exec_yellowWithdrawal_early (s : State) (k : Nat) (c : Cmd) (h : s.cmd k = some c) (hearly : s.now < c.visible + 16000) :
    exec (.yellowWithdrawal k) s = .next (intEval s) := by
  change execYellowWithdrawal k s = _
  simp [execYellowWithdrawal, h, Nat.not_le.mpr hearly, done]

/-! ## Refusals whose delay has run (R119, R121) -/

/-- The part without refusal `k`, which it has logged. -/
def refusalLogged (s : State) (k : Nat) (r : Refused) : State :=
  appendLog { s with store := { s.store with refusals := s.store.refusals.eraseIdx k } } r.host r.cause r.access r.raw r.addr

/-- A refusal found at entry, without an order token, is answered; one of a command of the store ends it. -/
theorem refusalDue_entry (s : State) (k : Nat) (r : Refused) (h : s.store.refusals[k]? = some r) (hdue : r.due ≤ s.now) (hkey : r.key = none)
    (hseq : r.seq = 0) :
    refusalDue s k = settle (sendLogged (refusalLogged s k r)
      { seq := 0, chan := r.chan, raw := r.raw, txn := r.txn, prio := r.prio, clamped := r.clamped, status := stACCESS, ord := r.ord } .refusal) := by
  simp [refusalDue, h, Nat.not_lt.mpr hdue, hkey, hseq, seqOk, refusalLogged]
theorem refusalDue_late (s : State) (k j : Nat) (r : Refused) (h : s.store.refusals[k]? = some r) (hdue : r.due ≤ s.now) (hkey : r.key = some j) :
    refusalDue s k = settle (finish (refusalLogged s k r) j stACCESS r.prog 0 [] false .refusal) := by
  simp [refusalDue, h, Nat.not_lt.mpr hdue, hkey, refusalLogged]
theorem refusalDue_early (s : State) (k : Nat) (r : Refused) (h : s.store.refusals[k]? = some r) (hearly : s.now < r.due) :
    refusalDue s k = s := by simp [refusalDue, h, hearly]

/-- Settles O21: each timer at its moment, and each of those with a moment before it. -/
theorem storeTimersRun : Obligations.StoreTimersRun := by
  refine ⟨fun s k c r w => ⟨?waitLimit, rfl, ?yellow, ?ingest, ?entry, ?late⟩,
    fun s k c r => ⟨?waitEarly, exec_yellowWithdrawal_early s k c, ?refusalEarly⟩⟩
  case waitLimit =>
    intro h hst hlim hpair hsch hdue
    rw [exec_waitLimitExpiry s k c h, us_waitLimit]
    simp [hst, hlim, hpair, hsch, hdue]
  case yellow =>
    intro h hst hcol hdue
    rw [exec_yellowWithdrawal_due s k c h hst (.inl hcol) hdue, if_pos hcol]
  case ingest =>
    intro h hst hcol hdue
    rw [exec_yellowWithdrawal_due s k c h hst (.inr hcol) hdue, if_neg (by omega)]
  case entry =>
    intro h hdue hkey hseq
    exact congrArg (Host.Outcome.next ∘ intEval) (refusalDue_entry s k r h hdue hkey hseq)
  case late =>
    intro j h hdue hkey
    exact congrArg (Host.Outcome.next ∘ intEval) (refusalDue_late s k j r h hdue hkey)
  case waitEarly =>
    intro h hearly
    rw [exec_waitLimitExpiry s k c h, us_waitLimit]
    simp [Nat.not_le.mpr hearly]
  case refusalEarly =>
    intro h hearly
    exact congrArg (Host.Outcome.next ∘ intEval) (refusalDue_early s k r h hearly)

end Sys2Proof.Machine
end

section
/-! The start and the granules of operations (R60, R67, R70, R142, R247, R437, R471, R518). -/
namespace Sys2Proof.Machine

/-! ## OPERATION_START (R67, R518) -/

/-- What an operation does that may start or go on, `sp` being what its opcode does. -/
def startsAs (s : State) (k : Nat) (c : Cmd) (sp : OpSpec) : State :=
  let gran := c.started || (sp.total s c).isSome
  if gran && needsOffline s c then settle (finish s k stOFFLINE c.progress)
  else if opcodeOf c.raw = 0x0311 then redStart s k c
  else if libStarts (opcodeOf c.raw) && !c.started && !energyFits s (workEnergy s k c) then settle (finish (energyRefused s) k stENERGY)
  else if gran then (startOp s k c).getD s else sp.act s k

/-- No row of its own advances the opcode: it is no run and no lock-up. -/
theorem ownRows_eq_false_iff (op : Nat) : ownRows op = false ↔ op ≠ 0x0381 ∧ op ≠ 0x0503 := by simp [ownRows]

/-- An operation that stands ready or stopped starts where no unit, pair or hold keeps it back (R407, R427, R464, R472). -/
theorem operationStart_eq (s : State) (k : Nat) (c : Cmd) (sp : OpSpec) (h : s.cmd k = some c) (hrun : halted s = false)
    (hst : c.st = .ready ∨ c.st = .preempted ∨ c.st = .resuming) (hown : ownRows (opcodeOf c.raw) = false)
    (hsp : specOf (opcodeOf c.raw) = some sp)
    (hfree : c.started = true ∨ heldOn s c = false ∧ pairWaits s c = false ∧ (s.pwr.hold = false ∨ c.loads = [])) :
    operationStart s k = startsAs s k c sp := by
  obtain ⟨hrunOp, -⟩ := (ownRows_eq_false_iff _).mp hown
  have hstands : (halted s || !(c.st == .ready || c.st == .preempted || c.st == .resuming) || decide (opcodeOf c.raw = 0x0381)
      || (ownRows (opcodeOf c.raw) && !c.started)) = false := by
    obtain h | h | h := hst <;> simp [h, hrun, hown, hrunOp]
  have hgoes : (!c.started && (heldOn s c || pairWaits s c || (s.pwr.hold && c.loads != []))) = false := by
    obtain hs | ⟨hunits, hpair, hhold | hloads⟩ := hfree
    · simp [hs]
    · simp [hunits, hpair, hhold]
    · simp [hunits, hpair, hloads]
  simp only [operationStart, h, hstands, hgoes, hsp, Bool.false_eq_true, if_false]
  rfl

section
variable (s : State) (k : Nat) (c : Cmd) (sp : OpSpec)

theorem startsAs_offline (hg : (c.started || (sp.total s c).isSome) = true) (hoff : needsOffline s c = true) :
    startsAs s k c sp = settle (finish s k stOFFLINE c.progress) := by simp only [startsAs, hg, hoff, Bool.and_self, if_true]
theorem startsAs_contribution (hoff : needsOffline s c = false) (hop : opcodeOf c.raw = 0x0311) :
    startsAs s k c sp = redStart s k c := by simp [startsAs, hoff, hop]
theorem startsAs_noEnergy (hoff : needsOffline s c = false) (hop : opcodeOf c.raw ≠ 0x0311) (hlib : libStarts (opcodeOf c.raw) = true)
    (hnew : c.started = false) (hfit : energyFits s (workEnergy s k c) = false) :
    startsAs s k c sp = settle (finish (energyRefused s) k stENERGY) := by simp [startsAs, hoff, hop, hlib, hnew, hfit]
theorem startsAs_started (hg : (c.started || (sp.total s c).isSome) = true) (hoff : needsOffline s c = false) (hop : opcodeOf c.raw ≠ 0x0311)
    (hfit : libStarts (opcodeOf c.raw) = false ∨ c.started = true ∨ energyFits s (workEnergy s k c) = true) :
    startsAs s k c sp = (startOp s k c).getD s := by
  have henergy : (libStarts (opcodeOf c.raw) && !c.started && !energyFits s (workEnergy s k c)) = false := by
    obtain h | h | h := hfit <;> simp [h]
  simp only [startsAs, hg, hoff, hop, henergy, Bool.and_false, Bool.false_eq_true, if_false, if_true]
/-- A command that only waited for its turn acts (R60). -/
theorem startsAs_turn (hnew : c.started = false) (hg : sp.total s c = none) (hop : opcodeOf c.raw ≠ 0x0311)
    (hlib : libStarts (opcodeOf c.raw) = false) : startsAs s k c sp = sp.act s k := by simp [startsAs, hnew, hg, hop, hlib]

end

/-! ## GRANULE_COMPLETE (R67, R70, R142) -/

theorem granuleComplete_waits (s : State) (k : Nat) (c : Cmd) (h : s.cmd k = some c) (hturn : granTurn s k c = false) :
    granuleComplete s k = s := by simp [granuleComplete, h, hturn]
theorem granuleComplete_turn (s : State) (k : Nat) (c : Cmd) (sp : OpSpec) (f : State → Nat → State) (h : s.cmd k = some c)
    (hrun : halted s = false) (hst : c.st = .running ∨ c.st = .stopping) (hown : ownRows (opcodeOf c.raw) = false)
    (hsp : specOf (opcodeOf c.raw) = some sp) (hstep : sp.step = some f) (hturn : granTurn s k c = true) :
    granuleComplete s k = advance (afterUnit c (granPace c (f s k) k) k) := by
  have hgoes : (halted s || !(c.st == .running || c.st == .stopping) || ownRows (opcodeOf c.raw) || !granTurn s k c) = false := by
    obtain h | h := hst <;> simp [h, hrun, hown, hturn]
  simp only [granuleComplete, h, hgoes, hsp, hstep, Bool.false_eq_true, if_false]

/-- Settles O22: an operation starts by the branch of `startsAs` that it meets, and its granule by its turn. -/
theorem operationsStartAndEnd : Obligations.OperationsStartAndEnd := by
  refine ⟨fun s k c sp h hrun hst hown hsp hfree => ?starts,
    fun s k c sp f h hrun hst hown hsp hstep => ⟨fun hturn => ?turn, fun hturn => ?waits⟩⟩
  case starts =>
    have hrow {t : State} (ht : startsAs s k c sp = t) : exec (.operationStart k) s = .next (intEval t) :=
      congrArg (Host.Outcome.next ∘ intEval) ((operationStart_eq s k c sp h hrun hst hown hsp hfree).trans ht)
    refine ⟨fun hg => ?granular, fun hnew hg hop hlib => hrow (startsAs_turn s k c sp hnew hg hop hlib)⟩
    rw [← Bool.or_eq_true] at hg
    exact ⟨fun hoff => hrow (startsAs_offline s k c sp hg hoff), fun hoff hop => hrow (startsAs_contribution s k c sp hoff hop),
      fun hoff hop => ⟨fun hlib hnew hfit => hrow (startsAs_noEnergy s k c sp hoff hop hlib hnew hfit),
        fun hfit => hrow (startsAs_started s k c sp hg hoff hop hfit)⟩⟩
  case turn => exact congrArg (Host.Outcome.next ∘ intEval) (granuleComplete_turn s k c sp f h hrun hst hown hsp hstep hturn)
  case waits => exact congrArg (Host.Outcome.next ∘ intEval) (granuleComplete_waits s k c h hturn)

end Sys2Proof.Machine
end

section
/-! The commands of the range directory and of translation (R92-R104). -/
namespace Sys2Proof.Machine

/-! ## What a walk leaves alone (R88, R371, R519) -/

/-- What each step of a fold leaves alone, the fold leaves alone. -/
theorem foldl_keeps {σ α β : Type} (f : σ → β) (g : σ → α → σ) (h : ∀ s x, f (g s x) = f s) (l : List α) (s : σ) :
    f (l.foldl g s) = f s := by
  induction l generalizing s with
  | nil => rfl
  | cons x l ih => rw [List.foldl_cons, ih, h]

@[simp] theorem logFlt_xlt (s : State) (u : W32) (prot detail kind flags : Nat) (info : W64) :
    (logFlt s u prot detail kind flags info).xlt = s.xlt := rfl
@[simp] theorem faultIntervals_xlt (s : State) (u : W32) : (faultIntervals s u).xlt = s.xlt := rfl
@[simp] theorem raiseFault_xlt (s : State) (u : W32) (prot detail : Nat) (info : W64) (st flags : Nat) :
    (raiseFault s u prot detail info st flags).xlt = s.xlt := by
  by_cases h : (s.unit u).state = 4 <;> simp [raiseFault, h]
@[simp] theorem corrected_xlt (s : State) (u : W32) (prot detail : Nat) (info : W64) : (corrected s u prot detail info).xlt = s.xlt := by
  unfold corrected
  dsimp only
  split <;> split <;> rfl
@[simp] theorem countCe_xlt (s : State) (a col : Nat) : (countCe s a col).xlt = s.xlt := rfl
@[simp] theorem poisonLine_xlt (s : State) (a : Nat) : (poisonLine s a).xlt = s.xlt := rfl
@[simp] theorem uncorrectableLine_xlt (s : State) (a : Nat) (scrub : Bool) : (uncorrectableLine s a scrub).xlt = s.xlt := by
  simp [uncorrectableLine]
@[simp] theorem readLine_xlt (s : State) (a : Nat) (scrub : Bool) : (readLine s a scrub).2.xlt = s.xlt := by
  unfold readLine
  cases decodeLine (lineErr s a) with
  | clean => rfl
  | corrected k e => dsimp only; split <;> simp
  | poisoned k => cases k <;> dsimp only <;> split <;> simp
  | uncorrectable => simp

@[simp] theorem tableRead_xlt (o : Nat) (ps : List Nat) (s : State) : (tableRead o ps s).xlt = s.xlt := by
  induction ps generalizing s with
  | nil => rfl
  | cons p ps ih =>
    have hread := readLine_xlt s (tableLine s p o) false
    unfold tableRead
    split
    case h_1 heq => simpa [heq] using hread
    case h_2 heq => simpa [heq, ih] using hread
@[simp] theorem walkTables_xlt (s : State) (h ia : Nat) : (walkTables s h ia).xlt = s.xlt := by
  unfold walkTables
  split
  case isTrue => rfl
  case isFalse => exact foldl_keeps State.xlt _ (fun _ _ => tableRead_xlt ..) _ s

@[simp] theorem s1Entry_xlt (s : State) (owner table i : Nat) : (s1Entry s owner table i).2.xlt = s.xlt := by
  unfold s1Entry
  dsimp only
  generalize (if (s.host owner).isSome = true then stage2 s owner (table + 32 * i) rRead else .error 1) = found
  obtain _ | ⟨ppa, rid, e, g⟩ := found
  · rfl
  · dsimp only
    cases place s rid ppa with
    | held => rfl
    | at_ r ws =>
      have hread := readLine_xlt s r false
      dsimp only
      split
      · rfl
      · split
        case h_1 heq => simpa [heq] using hread
        case h_2 heq => simpa [heq] using hread
@[simp] theorem s1Search_xlt (owner table addr fuel : Nat) (s : State) (lo n : Nat) (hit : Option (List Byte)) :
    (s1Search owner table addr fuel s lo n hit).2.xlt = s.xlt := by
  induction fuel generalizing s lo n hit with
  | zero => rfl
  | succ fuel ih =>
    have hentry := s1Entry_xlt s owner table (lo + (n - 1) / 2)
    unfold s1Search
    dsimp only
    split
    · rfl
    · split
      case h_1 heq => simpa [heq] using hentry
      case h_2 heq => split <;> simpa [heq, ih] using hentry
@[simp] theorem s1Walk_xlt (s : State) (e : HostE) (addr : Nat) : (s1Walk s e addr).2.xlt = s.xlt := by
  have hsearch := s1Search_xlt e.s1Owner e.s1Table addr 17 s 0 e.s1Count none
  unfold s1Walk
  split
  case h_1 heq => simpa [heq] using hsearch
  case h_2 heq => simpa [heq] using hsearch
  case h_3 heq =>
    rw [heq] at hsearch
    dsimp only
    split
    · exact hsearch
    · split <;> exact hsearch
@[simp] theorem combine_xlt (s : State) (h a : Nat) (acc : Rights) (ia : Nat) (one : Option (Nat × Nat × Nat × Rights)) :
    (combine s h a acc ia one).2.xlt = s.xlt := by
  unfold combine
  cases stage2 s h ia acc with
  | error c => exact walkTables_xlt s h ia
  | ok r => cases one <;> dsimp only <;> split <;> exact walkTables_xlt s h ia
@[simp] theorem walkEntry_xlt (s : State) (h a : Nat) (acc : Rights) : (walkEntry s h a acc).2.xlt = s.xlt := by
  unfold walkEntry
  cases s.host h with
  | none => rfl
  | some he =>
    have hwalk := s1Walk_xlt s he a
    dsimp only
    split
    · exact combine_xlt ..
    · split <;> rename_i heq <;> simpa [heq] using hwalk

/-! ## What a lookup and a commit do to the directory (R82, R93, R94) -/

/-- Both copies of the directory, and the epoch. -/
def directory (s : State) : Tab RangeE × Tab RangeE × W32 := (s.xlt.dirA, s.xlt.dirS, s.xlt.epoch)

theorem directory_of_xlt {s t : State} (h : t.xlt = s.xlt) : directory t = directory s := by simp only [directory, h]
@[simp] theorem directory_rcRemove (s : State) (f : RcE → Bool) : directory (rcRemove s f) = directory s := rfl
@[simp] theorem directory_countHit (s : State) (p : Nat) : directory (countHit s p) = directory s := rfl
@[simp] theorem directory_countMiss (s : State) (p : Nat) : directory (countMiss s p) = directory s := rfl
@[simp] theorem directory_setSlice (s : State) (p : Nat) (l : List RcE) : directory (s.setSlice p l) = directory s := rfl
@[simp] theorem directory_rcLoad (s : State) (e : RcE) (a : Nat) : directory (rcLoad s e a) = directory s := by
  unfold rcLoad
  dsimp only
  split <;> rfl
@[simp] theorem directory_lookupMiss (s : State) (h a : Nat) (acc : Rights) : directory (lookup.lookupMiss s h a acc).2 = directory s := by
  have hwalk := directory_of_xlt (walkEntry_xlt s h a acc)
  unfold lookup.lookupMiss
  split
  case h_1 => rfl
  case h_2 heq => simpa [heq] using hwalk
  case h_3 heq =>
    rw [heq] at hwalk
    dsimp only
    split <;> simpa using hwalk
/-- A lookup changes caches and counts only. -/
@[simp] theorem directory_lookup (s : State) (h a : Nat) (acc : Rights) : directory (lookup s h a acc).2 = directory s := by
  unfold lookup
  split
  · split
    · simp
    · exact directory_lookupMiss ..
  · exact directory_lookupMiss ..
theorem directory_withCounts (s : State) (c : Tab RcCnt) : directory { s with xlt := { s.xlt with counts := c } } = directory s := rfl
@[simp] theorem directory_dropRanges (s : State) (f : Nat → Bool) : directory (dropRanges s f) = directory s := by
  rw [dropRanges, foldl_keeps directory, directory_rcRemove]
  intro t e
  rw [directory_withCounts, directory_lookup]
@[simp] theorem directory_lateRefusal (s : State) (k cause : Nat) (acc : Rights) (addr : Nat) :
    directory (lateRefusal s k cause acc addr) = directory s := by
  unfold lateRefusal
  cases s.cmd k <;> rfl
/-- A commit publishes the shadow copy and counts an epoch (R93, R94). -/
theorem directory_commitRanges (s : State) : directory (commitRanges s) = (s.xlt.dirS, s.xlt.dirS, s.xlt.epoch + 1) :=
  (foldl_keeps directory _ (fun _ _ => directory_lateRefusal ..) _ _).trans (directory_dropRanges _ _)

/-! ## RANGE_CREATE, RANGE_DESTROY, XLT_COMMIT (R92, R95, R97) -/

/-- A change of the shadow copy with HOLD = 1 ends at once; without, it commits once nothing under way stands in its way. -/
theorem publish_done (s : State) (k hold result : Nat) (f : State → State)
    (hfree : hold = 0 → dmaLeft (f (drainDma s)) (ofChanged (f (drainDma s))) = false) :
    publish s k (hold != 0) (fun _ => result) f
      = settle (finish (if hold = 0 then commitRanges (f (drainDma s)) else f s) k stOK 0 result) := by
  by_cases h : hold = 0
  · simp [publish, h, hfree h]
  · simp [publish, h]
theorem xltCommitAct_eq (s : State) (k : Nat) (hfree : dmaLeft (drainDma s) (ofChanged (drainDma s)) = false) :
    xltCommitAct s k = settle (finish (commitRanges (drainDma s)) k stOK 0 (commitRanges (drainDma s)).xlt.epoch.toNat) := by
  simp [xltCommitAct, publish, hfree]

theorem rangeCreateAct_eq (t : State) (k o : Nat) (y : Cmd) (h : t.cmd k = some y)
    (hapart : (t.xlt.dirS.any fun e => !disjointSpans (y.par 16 8) (4096 * y.par 24 4) e.2.iaStart (4096 * e.2.lenG)) = false)
    (honline : t.online (y.par 29 1) = true) (hroom : 4096 * y.par 24 4 ≤ mappable t (y.par 28 1 == 1) (y.par 29 1))
    (hawake : y.par 28 1 = 1 ∨ (t.part (y.par 29 1)).parked = false) (hrid : newRid t < 2 ^ 20)
    (hext : freeExtent t (y.par 28 1 == 1) (y.par 29 1) (4096 * y.par 24 4) = some o) :
    rangeCreateAct t k = publish t k (y.par 31 1 != 0) (fun _ => newRid t) fun s => withRange s (newRid t) (newRange y o) := by
  have hroom' : ¬ mappable t (y.par 28 1 == 1) (y.par 29 1) < 4096 * y.par 24 4 := Nat.not_lt.mpr hroom
  have htaken : (!(y.par 28 1 == 1) && (t.part (y.par 29 1)).parked || decide (2 ^ 20 ≤ newRid t)) = false := by
    rw [decide_eq_false (Nat.not_le.mpr hrid), Bool.or_false]
    obtain hcream | hparked := hawake
    · simp [hcream]
    · simp [hparked]
  rw [newRid] at htaken
  simp only [rangeCreateAct, h, hapart, honline, hroom', htaken, hext, Bool.not_true, Bool.false_eq_true, if_false]
  rfl
theorem rangeDestroyAct_eq (t : State) (k : Nat) (y : Cmd) (e : RangeE) (h : t.cmd k = some y) (hfind : tabFind t.xlt.dirS (y.par 16 4) = some e)
    (hfree : protectedRange t (y.par 16 4) e = false) (hopen : rangeShut t y (y.par 16 4) = false) :
    rangeDestroyAct t k = publish t k (y.par 31 1 != 0) (fun _ => 0) fun s => withoutRange s (y.par 16 4) := by
  simp only [rangeDestroyAct, h, hfind, hfree, hopen, Bool.false_eq_true, if_false]
  rfl

theorem rangeQueryAct_eq (t u : State) (k ppa rid : Nat) (y : Cmd) (acc : Rights) (e : RangeE) (h : t.cmd k = some y)
    (hfind : anyRight t y.host (y.par 16 8) = (.ok ppa rid, acc, u)) (he : u.range rid = some e) :
    rangeQueryAct t k = settle (finish u k stOK 0 (entryHead e)) := by simp only [rangeQueryAct, h, hfind, he]

/-- Settles O9: each command by its act on the shadow copy, and a commit by what it does to the directory. -/
theorem rangeCommandsRun : Obligations.RangeCommandsRun := by
  refine ⟨fun c => ⟨fun o => ?create, fun e => ?destroy, ?commit, fun ppa rid acc u e => ?query⟩, fun s => ?published⟩
  case create =>
    refine actsAs_row fun t k y h _ _ hfits => ?_
    obtain ⟨hapart, honline, hroom, hawake, hrid, hext, hfree⟩ := hfits
    exact (rangeCreateAct_eq t k o y h hapart honline hroom hawake hrid hext).trans (publish_done t k _ _ _ hfree)
  case destroy =>
    refine actsAs_row fun t k y h _ _ hfits => ?_
    obtain ⟨hfind, hbound, hopen, hfree⟩ := hfits
    exact (rangeDestroyAct_eq t k y e h hfind hbound hopen).trans (publish_done t k _ _ _ hfree)
  case commit =>
    exact actsAs_row fun t k _ _ _ _ hfree => xltCommitAct_eq t k hfree
  case query =>
    exact actsAs_row fun t k y h _ _ ⟨hfind, he⟩ => rangeQueryAct_eq t u k ppa rid y acc e h hfind he
  case published =>
    simpa only [directory, Prod.mk.injEq] using directory_commitRanges s

/-! ## XLT_S1_ROOT and XLT_INVALIDATE (R92, R98) -/

theorem dropHost_done (s : State) (k h : Nat) (f : RcE → Bool) (g : State → State)
    (hfree : dmaLeft (drainDma s) (ofHost (drainDma s) h) = false) :
    dropHost s k h f g = settle (finish (rcRemove (g (drainDma s)) f) k stOK) := by simp [dropHost, hfree]

/-- The part with the stage-1 table and the fault queue of a host identity as an XLT_S1_ROOT gives them. -/
def withRoot (y : Cmd) (s : State) : State :=
  let root : HostE → HostE := fun e => { e with
    s1Table := y.par 16 8, s1Count := y.par 24 4, fq := y.par 32 8, fqLog2 := y.par 40 1, fqSync := y.par 42 2 }
  let upd := fun (m : Tab HostE) => match tabFind m (y.par 28 2) with
    | some e => tabIns m (y.par 28 2) (root e)
    | none => m
  { s with iso := { s.iso with hostsA := upd s.iso.hostsA, hostsS := upd s.iso.hostsS } }
theorem s1RootAct_eq (t : State) (k : Nat) (y : Cmd) (h : t.cmd k = some y) :
    s1RootAct t k = dropHost t k (y.par 28 2) (fun e => e.host == y.par 28 2) (withRoot y) := by
  simp only [s1RootAct, h]
  rfl
theorem invalidateAct_eq (t : State) (k : Nat) (y : Cmd) (h : t.cmd k = some y) :
    invalidateAct t k = dropHost t k (y.par 28 2) (fun e => e.host == y.par 28 2
      && (y.par 24 4 == 0 || !disjointSpans e.start e.len (y.par 16 8) (4096 * y.par 24 4))) id := by simp only [invalidateAct, h]

/-! ## XLT_FAULT_RESUME (R101) -/

theorem faultOver_eq_true_iff (s : State) (f : XFault) : faultOver s f = true ↔ f.expiry ≤ s.now ∧ pairHeld s = false := by
  simp [faultOver]
theorem faultOver_eq_false_iff (s : State) (f : XFault) : faultOver s f = false ↔ s.now < f.expiry ∨ pairHeld s = true := by
  rw [faultOver, Bool.and_eq_false_iff]
  simp

theorem resumeAct_open (t : State) (k : Nat) (y : Cmd) (f : XFault) (h : t.cmd k = some y) (hfind : faultNamed t y = some f)
    (hopen : faultOver t f = false) :
    resumeAct t k = settle (finish (if y.par 20 1 = 0 then resumeFault t f else abortFault t f) k stOK 0 1) := by
  simp only [resumeAct, h, hfind, hopen, Bool.false_eq_true, if_false]
theorem resumeAct_over (t : State) (k : Nat) (y : Cmd) (f : XFault) (h : t.cmd k = some y) (hfind : faultNamed t y = some f)
    (hover : faultOver t f = true) : resumeAct t k = settle (finish (escalateFault t f) k stOK) := by
  simp only [resumeAct, h, hfind, hover, if_true]

/-! ## ADVISE and PREFETCH (R102, R104) -/

theorem adviseAct_stream (t u : State) (k ppa rid : Nat) (y : Cmd) (e : RangeE) (h : t.cmd k = some y)
    (hlook : lookup t y.host (y.par 16 8) rWrite = (.ok ppa rid, u)) (he : u.range rid = some e) (hopen : rangeShut u y rid = false)
    (hadvice : y.par 24 1 = 2) :
    adviseAct t k = settle (finish (entryCommit u rid fun e => { e with stream := !e.stream }) k stOK) := by
  simp only [adviseAct, h, hlook, he, hopen, hadvice, Bool.false_eq_true, if_false]
theorem prefetchAct_ungated (t u u2 : State) (k ppa rid : Nat) (y : Cmd) (e : RangeE) (h : t.cmd k = some y)
    (hlook : lookup t y.host (y.par 16 8) rWrite = (.ok ppa rid, u)) (he : u.range rid = some e) (hgate : prefGate y = false)
    (hstart : startOp u k { y with total := prefLen y / 4096, aux := [rid, 0, ppa - e.ppa] } = some u2) : prefetchAct t k = u2 := by
  simp [prefetchAct, h, hlook, he, hgate, hstart]

/-- Settles O10: each command by its act, a resume by whether the fault's time has run out. -/
theorem translationCommandsRun : Obligations.TranslationCommandsRun := by
  intro c
  refine ⟨?root, ?invalidate, fun f => ?resumed, fun f => ?ended, fun ppa rid u e => ?advise, fun ppa rid u u2 e => ?prefetch⟩
  case root =>
    exact actsAs_row fun t k y h _ _ hfree => (s1RootAct_eq t k y h).trans (dropHost_done t k _ _ _ hfree)
  case invalidate =>
    exact actsAs_row fun t k y h _ _ hfree => (invalidateAct_eq t k y h).trans (dropHost_done t k _ _ _ hfree)
  case resumed =>
    exact actsAs_row fun t k y h _ _ ⟨hfind, hopen⟩ => resumeAct_open t k y f h hfind ((faultOver_eq_false_iff t f).mpr hopen)
  case ended =>
    exact actsAs_row fun t k y h _ _ ⟨hfind, hover⟩ => resumeAct_over t k y f h hfind ((faultOver_eq_true_iff t f).mpr hover)
  case advise =>
    refine actsAs_row fun t k y h _ _ hfits => ?_
    obtain ⟨hlook, he, hopen, hadvice⟩ := hfits
    exact adviseAct_stream t u k ppa rid y e h hlook he hopen hadvice
  case prefetch =>
    refine actsAs_row fun t k y h _ _ hfits => ?_
    obtain ⟨hlook, he, hgate, hstart⟩ := hfits
    exact prefetchAct_ungated t u u2 k ppa rid y e h hlook he hgate hstart

end Sys2Proof.Machine
end

section
/-! The updates of synchronisation objects and the events of translation faults (R99-R101, R229, R230). -/
namespace Sys2Proof.Machine

/-! ## SYNC_UPDATE_APPLY (R229, R230) -/

/-- The updates on their way to an object, and the part once they have left. -/
def updsFor (s : State) (i : Nat) : List SyncUpd := (s.sync.inFlight.filter (·.1 == i)).map (·.2)
def updsTaken (s : State) (i : Nat) : State := { s with sync := { s.sync with inFlight := s.sync.inFlight.filter (·.1 != i) } }

theorem exec_syncUpdateApply (s : State) (i : Nat) (hi : i < 16384) :
    exec (.syncUpdateApply i) s = .next (intEval
      (if updsFor s i = [] then s else settle ((sortUpds (updsFor s i)).foldl (deliver i) (updsTaken s i)))) :=
  onInst_next _ _ (decide_eq_true hi)
theorem exec_syncUpdateApply_none (s : State) (i : Nat) (hi : i < 16384) (hnone : updsFor s i = []) :
    exec (.syncUpdateApply i) s = .next (intEval s) := by rw [exec_syncUpdateApply s i hi, if_pos hnone]
theorem exec_syncUpdateApply_some (s : State) (i : Nat) (hi : i < 16384) (hsome : updsFor s i ≠ []) :
    exec (.syncUpdateApply i) s = .next (intEval (settle ((sortUpds (updsFor s i)).foldl (deliver i) (updsTaken s i)))) := by
  rw [exec_syncUpdateApply s i hi, if_neg hsome]

/-! ## Translation faults (R99-R101) -/

theorem exec_faultRecordWrite (s : State) (f : XFault) (id : W32) (h : s.xlt.pending.find? (fun g => g.id == id && !g.written) = some f) :
    exec (.faultRecordWrite id) s = .next (intEval (faultRecordWrite s f)) := by
  change execFaultRecordWrite id s = _
  simp only [execFaultRecordWrite, h, done]
/-- A fault of the event that is over is escalated, and without one nothing happens. -/
theorem exec_xltFaultEscalation_over (s : State) (f : XFault) (id : W32)
    (h : s.xlt.pending.find? (fun g => g.id == id && faultOver s g) = some f) :
    exec (.xltFaultEscalation id) s = .next (intEval (escalateFault s f)) := by
  change execXltFaultEscalation id s = _
  simp only [execXltFaultEscalation, h, done]
theorem exec_xltFaultEscalation_none (s : State) (id : W32) (h : s.xlt.pending.find? (fun g => g.id == id && faultOver s g) = none) :
    exec (.xltFaultEscalation id) s = .next (intEval s) := by
  change execXltFaultEscalation id s = _
  simp only [execXltFaultEscalation, h, done]

/-- Settles O31: the updates of an object by whether there are any, a record by its fault, and an escalation by the time of its fault. -/
theorem objectAndFaultEventsRun : Obligations.ObjectAndFaultEventsRun := by
  refine ⟨fun s i hi => ?updates, fun s f => ⟨exec_faultRecordWrite s f f.id, fun hfind => ?ended, fun hearly hpending => ?early⟩⟩
  case updates => exact ⟨exec_syncUpdateApply_none s i hi, exec_syncUpdateApply_some s i hi⟩
  case ended =>
    simp only [Bool.and_assoc] at hfind
    exact exec_xltFaultEscalation_over s f f.id hfind
  case early =>
    have hopen : faultOver s f = false := (faultOver_eq_false_iff s f).mpr (.inl hearly)
    exact exec_xltFaultEscalation_none s f.id (by simp [hpending, hopen])

end Sys2Proof.Machine
end

section
/-! Requests of coherent agents at their memory stop, and what the directory makes of them (R138, R140, R294, R298, R299, R302). -/
namespace Sys2Proof.Machine

/-! ## The charge of an item (R137) -/

@[simp] theorem chargeItem_coh (s : State) (h b : Nat) : (chargeItem s h b).2.coh = s.coh := by
  unfold chargeItem
  dsimp only
  split <;> rfl
theorem win_chargeItem {s t : State} {h b col : Nat} (hcharge : chargeItem s h b = (col, t)) (wi : Nat) : t.win wi = s.win wi := by
  have hcoh : t.coh = s.coh := by rw [← chargeItem_coh s h b, hcharge]
  simp only [State.win, hcoh]

/-! ## A request at the arbiter (R298, R302) -/

theorem exec_cohRequest (s : State) (m : CohMsg) (code : Nat) (i : Instr) (hwin : m.win < 64)
    (hi : (code = 1 ∧ i = .rdS m) ∨ (code = 2 ∧ i = .rdX m) ∨ (code = 3 ∧ i = .upg m)) :
    exec i s = .next (intEval (cohRequest s code m)) := by
  obtain ⟨rfl, rfl⟩ | ⟨rfl, rfl⟩ | ⟨rfl, rfl⟩ := hi <;> exact onInst_next _ _ (decide_eq_true hwin)

section
variable (s : State) (code : Nat) (m : CohMsg)

theorem cohGo_free (hopen : (s.win m.win).state = 1) (hfree : (tabFind (s.win m.win).trans m.line).isSome = false) :
    cohGo s code m false = settle (acceptReq s m.win m.line m.agent code m.txn) := by simp [cohGo, hopen, hfree]
theorem cohGo_busy (hopen : (s.win m.win).state = 1) (hbusy : (tabFind (s.win m.win).trans m.line).isSome = true) :
    cohGo s code m false = cohRetry s m.win m true 0 := by simp [cohGo, hopen, hbusy]

theorem cohRequest_down (hpair : pairHeld s = false) (h : (s.win m.win).state ≠ 1 ∨ agentListed (s.win m.win) m = false) :
    cohRequest s code m = answerDown s m := by
  obtain hshut | hunlisted := h
  · simp [cohRequest, hpair, hshut]
  · simp [cohRequest, hpair, hunlisted]
theorem cohRequest_beyond (hpair : pairHeld s = false) (hopen : (s.win m.win).state = 1) (hlisted : agentListed (s.win m.win) m = true)
    (hline : (s.win m.win).len / 64 ≤ m.line) : cohRequest s code m = settle (windowDown s m.win 2) := by
  simp [cohRequest, hpair, hopen, hlisted, hline]

/-- The memory stop of the line of a request, and the item that waits there. -/
def cohPoint (t : State) (m : CohMsg) : Nat := 10 * ppaPart (winLine (t.win m.win) m.line) + stopOf t (winLine (t.win m.win) m.line)
def cohItem (t : State) (code col : Nat) (m : CohMsg) : QItem :=
  { tc := 3, color := col, bytes := 64, f := 0, since := t.now, work := .coh code m
    tag := BitVec.ofNat 32 m.txn, src := BitVec.ofNat 32 (2 ^ 20 + m.rank), elig := 0 }

/-- A request without a token, of colour `col`, goes by that colour and by what it finds at its stop. -/
theorem cohRequest_charged (t : State) (col : Nat) (hpair : pairHeld s = false) (htok : m.token = 0) (hopen : (s.win m.win).state = 1)
    (hlisted : agentListed (s.win m.win) m = true) (hline : m.line < (s.win m.win).len / 64)
    (hcharge : chargeItem s (agentHost s (s.win m.win) m.agent) 64 = (col, t)) :
    cohRequest s code m =
      if col = 3 then cohRetry t m.win m false 0
      else if col = 1 && (t.point (cohPoint t m)).items.isEmpty && !gated t (winLine (t.win m.win) m.line) then cohGo t code m false
      else enqueueItem t (cohPoint t m) (cohItem t code col m) := by
  have hbare : ({ m with token := 0 } : CohMsg) = m := by rw [← htok]
  simp [cohRequest, hpair, hopen, hlisted, Nat.not_le.mpr hline, hcharge, cohTok, htok, hbare, cohPoint, cohItem, win_chargeItem hcharge]

end

/-! ## What a request that needs no snoop comes to (R299) -/

section
variable (s : State) (wi line : Nat) (t : Trans) (e : DirE)

theorem serveReq_rdS_uncached (ha : t.agent < 64) (hcode : t.code = 1) (he : e.st = 0) :
    serveReq s wi line t e = sendFill (dirWrite s (s.win wi) line { st := 2, ptrs := [t.agent] }) wi 0x9 t.agent line t.txn := by
  simp [serveReq, hcode, he, Nat.ne_of_lt ha]
theorem serveReq_rdS_shared (ha : t.agent < 64) (hcode : t.code = 1) (he : e.st = 1) :
    serveReq s wi line t e = sendFill (dirWrite s (s.win wi) line (addSharer e t.agent)) wi 0x8 t.agent line t.txn := by
  simp [serveReq, hcode, he, Nat.ne_of_lt ha]
theorem serveReq_rdX (ha : t.agent < 64) (hcode : t.code = 2) :
    serveReq s wi line t e = sendFill (dirWrite s (s.win wi) line { st := 2, ptrs := [t.agent] }) wi 0x9 t.agent line t.txn := by
  simp [serveReq, hcode, Nat.ne_of_lt ha]
theorem serveReq_upg_sharer (ha : t.agent < 64) (hcode : t.code = 3) (he : e.st = 1) (hlisted : e.ptrs.contains t.agent = true) :
    serveReq s wi line t e = sendFill (dirWrite s (s.win wi) line { st := 2, ptrs := [t.agent] }) wi 0xA t.agent line t.txn := by
  simp only [List.contains_iff_mem] at hlisted
  simp [serveReq, hcode, he, hlisted, Nat.ne_of_lt ha]
theorem serveReq_upg_uncached (ha : t.agent < 64) (hcode : t.code = 3) (he : e.st = 0) :
    serveReq s wi line t e = sendFill (dirWrite s (s.win wi) line { st := 2, ptrs := [t.agent] }) wi 0x9 t.agent line t.txn := by
  simp [serveReq, hcode, he, Nat.ne_of_lt ha]

end

/-! ## Sharers (R294) -/

section
variable (e : DirE) (r : Nat)

theorem addSharer_broadcast (he : e.st = 3) : addSharer e r = e := if_pos he
theorem addSharer_listed (he : e.st = 1) (hlisted : e.ptrs.contains r = true) : addSharer e r = e := by
  have hsame : ({ e with st := 1 } : DirE) = e := by rw [← he]
  rw [addSharer, if_neg (by omega), if_pos hlisted, hsame]
theorem addSharer_new (he : e.st ≠ 3) (hnew : e.ptrs.contains r = false) (hroom : e.ptrs.length < 4) :
    addSharer e r = { st := 1, ptrs := e.ptrs ++ [r] } := by
  rw [addSharer, if_neg he, if_neg (ne_true_of_eq_false hnew), if_pos hroom]
theorem addSharer_fifth (he : e.st ≠ 3) (hnew : e.ptrs.contains r = false) (hfull : 4 ≤ e.ptrs.length) :
    addSharer e r = { st := 3, ptrs := [] } := by
  rw [addSharer, if_neg he, if_neg (ne_true_of_eq_false hnew), if_neg (Nat.not_lt.mpr hfull)]

end

/-- Settles O32: a request by its window, its line, and its colour at the stop; what is served by the entry; and a sharer by the entry's room. -/
theorem coherentRequests : Obligations.CoherentRequests := by
  refine ⟨fun s t m col hwin hpair htok code i hi => ⟨?charged, ?down, ?beyond⟩, fun s wi line txn r e hr => ?served, fun e r => ?sharers⟩
  case charged =>
    intro hopen hlisted hline hcharge a pt
    have hwin' : t.win m.win = s.win m.win := win_chargeItem hcharge m.win
    have hrow : exec i s = .next (intEval (
        if col = 3 then cohRetry t m.win m false 0
        else if col = 1 && (t.point pt).items.isEmpty && !gated t a then cohGo t code m false
        else enqueueItem t pt (cohItem t code col m))) := by
      rw [exec_cohRequest s m code i hwin hi, cohRequest_charged s code m t col hpair htok hopen hlisted hline hcharge, cohPoint, hwin']
    refine ⟨fun hgreen hidle hungated => ?green, fun hnotRed hwaits => ?queued, fun hred => ?red⟩
    case green =>
      have hgo : (decide (col = 1) && (t.point pt).items.isEmpty && !gated t a) = true := by simp [hgreen, hidle, hungated]
      rw [hrow, if_neg (by omega), if_pos hgo]
      rw [← hwin'] at hopen ⊢
      exact ⟨fun hfree => by rw [cohGo_free t code m hopen hfree], fun hbusy => by rw [cohGo_busy t code m hopen hbusy]⟩
    case queued =>
      have hstays : (decide (col = 1) && (t.point pt).items.isEmpty && !gated t a) = false := by
        obtain hyellow | hitems | hgate := hwaits
        · simp [hyellow]
        · simp [hitems]
        · simp [hgate]
      rw [hrow, if_neg hnotRed, hstays, if_neg Bool.false_ne_true, cohItem]
    case red => rw [hrow, if_pos hred]
  case down =>
    intro h
    rw [exec_cohRequest s m code i hwin hi, cohRequest_down s code m hpair h]
  case beyond =>
    intro hopen hlisted hline
    rw [exec_cohRequest s m code i hwin hi, cohRequest_beyond s code m hpair hopen hlisted hline]
  case served =>
    intro t
    exact ⟨serveReq_rdS_uncached s wi line (t 1) e hr rfl, serveReq_rdS_shared s wi line (t 1) e hr rfl,
      serveReq_rdX s wi line (t 2) e hr rfl, serveReq_upg_sharer s wi line (t 3) e hr rfl, serveReq_upg_uncached s wi line (t 3) e hr rfl⟩
  case sharers =>
    exact ⟨addSharer_broadcast e r, addSharer_listed e r, addSharer_new e r, addSharer_fifth e r⟩

end Sys2Proof.Machine
end

section
/-! The tenant life cycle: claim, release and scrub (R107-R109, R112). -/
namespace Sys2Proof.Machine

/-! ## TENANT_CLAIM (R107) -/

section
variable (s : State) (t : Ticket) (hserves : secServes s = true) (hidle : s.flt.recovery = false)
include hserves hidle

theorem claim_claimed (ht : s.iso.tenant ≠ 0) : claim s t = respond s .plain 0x01 rSTATE (leBytes 4 (isoScrub s)) := by
  simp [claim, hserves, hidle, ht]
theorem claim_badTicket (ht : s.iso.tenant = 0) (hbad : ticketOk s t = false) : claim s t = respond s .plain 0x01 rBAD_TICKET := by
  simp [claim, hserves, hidle, ht, hbad]
/-- A claim that is granted answers SUCCESS on a part without tables and objects, whose claim is counted and whose administrator is the
ticket's. -/
theorem claim_granted (ht : s.iso.tenant = 0) (hok : ticketOk s t = true) :
    ∃ u, claim s t = respond u .plain 0x01 rSUCCESS ∧ u.iso.tenant = 1 ∧ u.iso.adminKey = t.adminKey
      ∧ u.iso.claims = s.iso.claims + 1 ∧ u.iso.keyGen = s.iso.keyGen + 1 ∧ u.iso.keys = true ∧ u.iso.epoch = 0 ∧ u.iso.log = []
      ∧ u.iso.hostsA = [] ∧ u.iso.grantsA = [] ∧ u.xlt.dirA = [] ∧ u.xlt.epoch = 0 ∧ u.sync.objs = [] ∧ u.fab.ranksA = [] ∧ u.fab.routeEpoch = 0
      ∧ u.churn.progs = [] ∧ u.work = {} ∧ u.mem = s.mem ∧ u.rings = s.rings := by
  simp only [claim, hserves, hidle, ht, hok, bne_self_eq_false, Bool.not_true, Bool.false_eq_true, if_false]
  exact ⟨_, rfl, rfl, rfl, rfl, rfl, rfl, rfl, rfl, rfl, rfl, rfl, rfl, rfl, rfl, rfl, rfl, rfl, rfl, rfl⟩

/-! ## TENANT_RELEASE (R108, R112) -/

variable (sess : Option Nat)

theorem exec_tenantRelease_admin (hauth : secAuth s sess = true) :
    exec (.tenantRelease sess none) s = .next (intEval (respond (release s) (framed sess) 0x02 rSUCCESS)) := by
  change execTenantRelease sess none s = _
  simp [execTenantRelease, done, hserves, hidle, hauth]
theorem exec_tenantRelease_noSession (hauth : secAuth s sess = false) :
    exec (.tenantRelease sess none) s = .next (intEval (respond s (framed sess) 0x02 rNO_SESSION)) := by
  change execTenantRelease sess none s = _
  simp [execTenantRelease, done, hserves, hidle, hauth]
theorem exec_tenantRelease_ticket (ht : s.iso.tenant = 1) (hok : ticketOk s t = true) (hkey : t.adminKey = s.iso.adminKey)
    (hid : t.tenantId = s.iso.tenantId) :
    exec (.tenantRelease sess (some t)) s = .next (intEval (respond (release s) (framed sess) 0x02 rSUCCESS)) := by
  change execTenantRelease sess (some t) s = _
  simp [execTenantRelease, done, hserves, hidle, ht, hok, hkey, hid]

end

/-! ## TENANT_SCRUB_COMPLETE (R109) -/

section
variable (s : State) (p : Nat)

@[simp] theorem scrubPart_iso : (scrubPart s p).iso = s.iso := rfl

/-- The partition was the last whose scrub was outstanding. -/
def lastScrub : Prop := s.iso.pendingP &&& ~~~(BitVec.ofNat 8 (2 ^ p)) = 0

theorem scrubDone_last (h : lastScrub s p) : (scrubDone s p).iso.tenant = 0 ∧ (scrubDone s p).iso.permille = 1000 := by
  rw [lastScrub] at h
  simp only [scrubDone, if_pos h, and_self]
theorem scrubDone_more (h : ¬ lastScrub s p) : (scrubDone s p).iso.tenant = s.iso.tenant := by
  rw [lastScrub] at h
  simp only [scrubDone, if_neg h]
theorem exec_tenantScrubComplete (hp : p < 8) (ht : s.iso.tenant = 3) (hdue : bitOf s.iso.pendingP.toNat p = true) (hon : s.online p = true) :
    exec (.tenantScrubComplete p) s = .next (intEval (scrubDone (scrubPart s p) p)) :=
  (onInst_next _ _ (decide_eq_true hp)).trans (by simp [ht, hdue, hon])

end

/-- Settles O34: a claim by the tenant state and its ticket, a release by its authority, and a scrub by what it leaves outstanding. -/
theorem claimReleaseAndScrub : Obligations.ClaimReleaseAndScrub := by
  refine ⟨fun s t sess hserves hidle => ⟨?granted, fun ht => ?claimed, fun ht hbad => ?badTicket, exec_tenantRelease_admin s hserves hidle sess,
    exec_tenantRelease_noSession s hserves hidle sess, exec_tenantRelease_ticket s t hserves hidle sess⟩, fun s p hp ht hdue hon => ?scrubbed⟩
  case granted =>
    intro ht hok
    obtain ⟨u, hclaim, hleaves⟩ := claim_granted s t hserves hidle ht hok
    exact ⟨u, congrArg done hclaim, hleaves⟩
  case claimed => exact congrArg done (claim_claimed s t hserves hidle ht)
  case badTicket => exact congrArg done (claim_badTicket s t hserves hidle ht hbad)
  case scrubbed =>
    exact ⟨exec_tenantScrubComplete s p hp ht hdue hon, scrubDone_last (scrubPart s p) p, fun hmore => (scrubDone_more (scrubPart s p) p hmore).trans ht⟩

end Sys2Proof.Machine
end

section
/-! What the operations on memory, tiles, windows and commands leave of a member's place in its pair: its state in the pair (R392) is as it was. -/
namespace Sys2Proof.Machine

/-- What is given back beside an answer keeps what the operation keeps. -/
theorem mirState_of_eq {α : Type} {r : α × State} {a : α} {t : State} {n : Nat} (h : r = (a, t)) (hkeeps : r.2.mir.state = n) :
    t.mir.state = n := by
  rw [h] at hkeeps
  exact hkeeps
theorem foldl_mirState {α : Type} (g : State → α → State) (h : ∀ s x, (g s x).mir.state = s.mir.state) (l : List α) (s : State) :
    (l.foldl g s).mir.state = s.mir.state := foldl_keeps (fun s => s.mir.state) g h l s

/-! ## Faults and tiles (R178, R424) -/

@[simp] theorem raiseFault_mirState (s : State) (u : W32) (prot detail : Nat) (info : W64) (st flags : Nat) :
    (raiseFault s u prot detail info st flags).mir.state = s.mir.state := by
  unfold raiseFault
  dsimp only
  split <;> rfl
@[simp] theorem corrected_mirState (s : State) (u : W32) (prot detail : Nat) (info : W64) : (corrected s u prot detail info).mir.state = s.mir.state := by
  unfold corrected
  dsimp only
  split <;> split <;> rfl
@[simp] theorem foldCycles_mir (s : State) (n : Nat) : (foldCycles s n).mir = s.mir := rfl
@[simp] theorem cluTrap_mir (s : State) (c : Nat) : (cluTrap s c).mir = s.mir := rfl
@[simp] theorem stopTile_mirState (s : State) (n : Nat) : (stopTile s n).mir.state = s.mir.state := by
  unfold stopTile
  dsimp only
  split <;> rfl
@[simp] theorem trapTile_mirState (s : State) (n cause code : Nat) (info : W64) (prot : Nat) :
    (trapTile s n cause code info prot).mir.state = s.mir.state := by
  unfold trapTile
  dsimp only
  generalize (if prot = 0 then trapProt cause else prot) = pr
  cases (s.tile n).run with
  | none => rfl
  | some k =>
    dsimp only
    split
    · rfl
    · split <;> split <;> split <;> simp [foldl_mirState _ stopTile_mirState]
@[simp] theorem wakeTile_mirState (s : State) (n : Nat) : (wakeTile s n).mir.state = s.mir.state := by
  unfold wakeTile
  dsimp only
  split
  · split
    · simp
    · split <;> rfl
  · rfl
@[simp] theorem wakeDma_mirState (s : State) (n : Nat) : (wakeDma s n).mir.state = s.mir.state := by
  unfold wakeDma
  dsimp only
  split
  · split
    · simp
    · split <;> rfl
  · split
    · simp
    · split <;> rfl
  · split <;> simp
  · rfl
@[simp] theorem onEng_mir (s : State) (n : Nat) (e : Bool) (f : Engine → Engine) : (onEng s n e f).mir = s.mir := rfl

/-! ## Lines (R365-R368, R373) -/

@[simp] theorem countCe_mir (s : State) (a col : Nat) : (countCe s a col).mir = s.mir := rfl
@[simp] theorem poisonLine_mir (s : State) (a : Nat) : (poisonLine s a).mir = s.mir := rfl
@[simp] theorem unbuffer_mir (s : State) (a : Nat) : (unbuffer s a).mir = s.mir := rfl
@[simp] theorem bufferLine_mir (s : State) (a : Nat) : (bufferLine s a).mir = s.mir := rfl
@[simp] theorem dropItems_mir (s : State) (f : QItem → Bool) : (dropItems s f).mir = s.mir := rfl
@[simp] theorem uncorrectableLine_mirState (s : State) (a : Nat) (scrub : Bool) : (uncorrectableLine s a scrub).mir.state = s.mir.state := by
  simp [uncorrectableLine]
@[simp] theorem readLine_mirState (s : State) (a : Nat) (scrub : Bool) : (readLine s a scrub).2.mir.state = s.mir.state := by
  unfold readLine
  cases decodeLine (lineErr s a) with
  | clean => rfl
  | corrected k e => dsimp only; split <;> simp
  | poisoned k => cases k <;> dsimp only <;> split <;> simp
  | uncorrectable => simp
@[simp] theorem setBlkOf_mir (s : State) (a : Nat) (b : MemBlk) : (setBlkOf s a b).mir = s.mir := by
  unfold setBlkOf
  dsimp only
  split <;> rfl
@[simp] theorem injectOn_mir (s : State) (a : Nat) : (injectOn s a).mir = s.mir := by
  unfold injectOn
  dsimp only
  generalize (if ppaCream a = true then ((coordOf s a).cnt - 32) % 32 else (coordOf s a).sub) = tgt
  split <;> simp
@[simp] theorem digestWrite_mirState (s : State) (a : Nat) (bs : List Byte) : (digestWrite s a bs).mir.state = s.mir.state := by
  unfold digestWrite
  split
  · rfl
  · dsimp only
    split <;> rfl
@[simp] theorem writeLine_mirState (s : State) (a : Nat) (bs : List Byte) : (writeLine s a bs).mir.state = s.mir.state := by
  simp [writeLine]
@[simp] theorem devWrite_mirState (s : State) (a : Nat) (bs : List Byte) : (devWrite s a bs).mir.state = s.mir.state := by
  unfold devWrite
  dsimp only
  split <;> simp
/-- Both parts that a merged write can leave. -/
theorem mergeLine_mirState (s : State) (a : Nat) (bs : List Byte) :
    (∀ t ∈ (mergeLine s a bs).1, t.mir.state = s.mir.state) ∧ (mergeLine s a bs).2.mir.state = s.mir.state := by
  unfold mergeLine
  split <;> rename_i heq <;> have hread := mirState_of_eq heq (readLine_mirState s a false) <;> simp [hread]

/-! ## Windows (R297-R306) -/

@[simp] theorem sendPkt_mir (s : State) (p : Pkt) : (s.sendPkt p).mir = s.mir := by
  unfold State.sendPkt
  dsimp only
  split <;> rfl
@[simp] theorem sendCoh_mir (s : State) (wi code agent line txn token : Nat) (data : Option (List Byte)) (poison : Bool) :
    (sendCoh s wi code agent line txn token data poison).mir = s.mir := by
  unfold sendCoh
  split <;> simp
@[simp] theorem downQueued_mirState (s : State) (wi : Nat) : (downQueued s wi).mir.state = s.mir.state := by
  simp [downQueued, foldl_mirState]
@[simp] theorem windowDown_mirState (s : State) (wi cause : Nat) : (windowDown s wi cause).mir.state = s.mir.state := by
  unfold windowDown
  dsimp only
  split
  · rfl
  · split <;> simp [foldl_mirState, apply_ite State.mir]
@[simp] theorem dirWrite_mirState (s : State) (w : Window) (line : Nat) (e : DirE) : (dirWrite s w line e).mir.state = s.mir.state := by
  simp [dirWrite]
theorem dirRead_mirState (s : State) (w : Window) (line : Nat) : (dirRead s w line).2.mir.state = s.mir.state := by
  unfold dirRead
  dsimp only
  split <;> rename_i heq <;> exact mirState_of_eq heq (readLine_mirState ..)
@[simp] theorem sendFill_mirState (s : State) (wi code agent line txn : Nat) : (sendFill s wi code agent line txn).mir.state = s.mir.state := by
  unfold sendFill
  split
  · simp
  · split <;> rename_i heq <;> simp [mirState_of_eq heq (readLine_mirState ..)]
@[simp] theorem serveReq_mirState (s : State) (wi line : Nat) (t : Trans) (e : DirE) : (serveReq s wi line t e).mir.state = s.mir.state := by
  unfold serveReq
  dsimp only
  (repeat' split) <;> simp
@[simp] theorem acceptReq_mirState (s : State) (wi line agent code txn : Nat) : (acceptReq s wi line agent code txn).mir.state = s.mir.state := by
  have hcounted : (if agent = 64 then s else cntReq s wi).mir.state = s.mir.state := by split <;> simp [cntReq]
  unfold acceptReq
  dsimp only
  generalize (if agent = 64 then s else cntReq s wi) = s0 at hcounted ⊢
  rw [← hcounted]
  have hread := dirRead_mirState s0 (s0.win wi) line
  split <;> rename_i heq <;> have h1 := mirState_of_eq heq hread
  · simp [h1]
  · split <;> simp [h1, foldl_mirState, cntSnoop]
theorem cohDevice_mirState (s : State) (a : Nat) (write : Bool) : (cohDevice s a write).2.mir.state = s.mir.state := by
  unfold cohDevice
  split
  · rfl
  · dsimp only
    split
    · rfl
    · split <;> simp

/-! ## Accesses (R86, R138) -/

theorem readAt_mirState (s : State) (ppa n : Nat) : (readAt s ppa n).2.mir.state = s.mir.state := by
  have hdevice := cohDevice_mirState s ppa false
  unfold readAt
  split
  · rfl
  · split <;> rename_i heq <;> have h1 := mirState_of_eq heq hdevice
    · exact h1
    · split <;> rename_i heq <;> exact (mirState_of_eq heq (readLine_mirState ..)).trans h1
theorem writeAt_mirState (s : State) (ppa : Nat) (bs : List Byte) : (writeAt s ppa bs).2.mir.state = s.mir.state := by
  have hdevice := cohDevice_mirState s ppa true
  unfold writeAt
  split
  · rfl
  · split <;> rename_i s1 heq <;> have h1 := mirState_of_eq heq hdevice
    · exact h1
    · obtain ⟨hmerged, hfailed⟩ := mergeLine_mirState s1 ppa bs
      split
      · simp [h1]
      · split <;> rename_i heq <;> rw [heq] at hmerged hfailed <;> simp_all
theorem writePlaces_mirState (bs : List Byte) (ps : List Nat) (s : State) : (writePlaces bs ps s).2.mir.state = s.mir.state := by
  induction ps generalizing s with
  | nil => rfl
  | cons p ps ih =>
    have hwrite := writeAt_mirState s p bs
    unfold writePlaces
    split
    case h_1 heq => exact (ih _).trans (mirState_of_eq heq hwrite)
    case h_2 => exact hwrite

/-! ## Translation (R88, R99-R101) -/

theorem zeroSlot_mirState (s : State) (ia : Nat) : (zeroSlot s ia).2.mir.state = s.mir.state := by
  unfold zeroSlot
  split
  · rfl
  · split
    · rfl
    · split <;> rename_i heq <;> exact mirState_of_eq heq (writePlaces_mirState ..)
@[simp] theorem flushZeros_mirState (s : State) : (flushZeros s).mir.state = s.mir.state := by
  refine foldl_mirState _ (fun s ia => ?_) _ s
  have hslot := zeroSlot_mirState s ia
  split <;> rename_i heq <;> have h1 := mirState_of_eq heq hslot <;> exact h1
@[simp] theorem endFault_mirState (s : State) (f : XFault) : (endFault s f).mir.state = s.mir.state := by simp [endFault]
@[simp] theorem rcRemove_mir (s : State) (f : RcE → Bool) : (rcRemove s f).mir = s.mir := rfl
@[simp] theorem countHit_mir (s : State) (p : Nat) : (countHit s p).mir = s.mir := rfl
@[simp] theorem countMiss_mir (s : State) (p : Nat) : (countMiss s p).mir = s.mir := rfl
@[simp] theorem rcLoad_mir (s : State) (e : RcE) (a : Nat) : (rcLoad s e a).mir = s.mir := by
  unfold rcLoad
  dsimp only
  split <;> rfl
@[simp] theorem tableRead_mirState (o : Nat) (ps : List Nat) (s : State) : (tableRead o ps s).mir.state = s.mir.state := by
  induction ps generalizing s with
  | nil => rfl
  | cons p ps ih =>
    have hread := readLine_mirState s (tableLine s p o) false
    unfold tableRead
    split <;> rename_i heq <;> simp [ih, mirState_of_eq heq hread]
@[simp] theorem walkTables_mirState (s : State) (h ia : Nat) : (walkTables s h ia).mir.state = s.mir.state := by
  unfold walkTables
  split <;> simp [foldl_mirState]
theorem s1Entry_mirState (s : State) (owner table i : Nat) : (s1Entry s owner table i).2.mir.state = s.mir.state := by
  unfold s1Entry
  dsimp only
  split
  · rfl
  · split
    · rfl
    · split
      · rfl
      · split <;> rename_i heq <;> exact mirState_of_eq heq (readLine_mirState ..)
theorem s1Search_mirState (owner table addr fuel : Nat) (s : State) (lo n : Nat) (hit : Option (List Byte)) :
    (s1Search owner table addr fuel s lo n hit).2.mir.state = s.mir.state := by
  induction fuel generalizing s lo n hit with
  | zero => rfl
  | succ fuel ih =>
    have hentry := s1Entry_mirState s owner table (lo + (n - 1) / 2)
    unfold s1Search
    dsimp only
    split
    · rfl
    · split <;> rename_i heq <;> have h1 := mirState_of_eq heq hentry
      · exact h1
      · split <;> exact (ih ..).trans h1
theorem s1Walk_mirState (s : State) (e : HostE) (addr : Nat) : (s1Walk s e addr).2.mir.state = s.mir.state := by
  have hsearch := s1Search_mirState e.s1Owner e.s1Table addr 17 s 0 e.s1Count none
  unfold s1Walk
  split <;> rename_i heq <;> have h1 := mirState_of_eq heq hsearch
  · exact h1
  · exact h1
  · dsimp only
    (repeat' split) <;> exact h1
@[simp] theorem combine_mirState (s : State) (h a : Nat) (acc : Rights) (ia : Nat) (one : Option (Nat × Nat × Nat × Rights)) :
    (combine s h a acc ia one).2.mir.state = s.mir.state := by
  unfold combine
  dsimp only
  cases stage2 s h ia acc with
  | error c => simp
  | ok r => cases one <;> dsimp only <;> split <;> simp
theorem walkEntry_mirState (s : State) (h a : Nat) (acc : Rights) : (walkEntry s h a acc).2.mir.state = s.mir.state := by
  unfold walkEntry
  split
  · rfl
  · split
    · simp
    · split <;> rename_i heq <;> simp [mirState_of_eq heq (s1Walk_mirState ..)]
theorem lookupMiss_mirState (s : State) (h a : Nat) (acc : Rights) : (lookup.lookupMiss s h a acc).2.mir.state = s.mir.state := by
  have hwalk := walkEntry_mirState s h a acc
  unfold lookup.lookupMiss
  split
  case h_1 => rfl
  case h_2 heq => exact mirState_of_eq heq hwalk
  case h_3 heq =>
    dsimp only
    split <;> simp [mirState_of_eq heq hwalk]
@[simp] theorem lookup_mirState (s : State) (h a : Nat) (acc : Rights) : (lookup s h a acc).2.mir.state = s.mir.state := by
  unfold lookup
  split
  · split
    · rfl
    · exact lookupMiss_mirState ..
  · exact lookupMiss_mirState ..
@[simp] theorem dropRanges_mirState (s : State) (f : Nat → Bool) : (dropRanges s f).mir.state = s.mir.state := by
  simp [dropRanges, foldl_mirState]
@[simp] theorem entryCommit_mirState (s : State) (rid : Nat) (f : RangeE → RangeE) : (entryCommit s rid f).mir.state = s.mir.state := by
  unfold entryCommit
  split
  · rfl
  · simp
@[simp] theorem repin_mir (s : State) : (repin s).mir = s.mir := rfl

/-! ## Replies and the end of a command (R47-R51, R402, R404) -/

@[simp] theorem applyUpd_mir (s : State) (i : Nat) (u : SyncUpd) : (applyUpd s i u).mir = s.mir := by
  unfold applyUpd
  dsimp only
  (repeat' split) <;> rfl
@[simp] theorem applySigs_mirState (s : State) (raw : W512) (good : Bool) : (applySigs s raw good).mir.state = s.mir.state := by
  simp [applySigs, foldl_mirState]
@[simp] theorem sendMir_mir (s : State) (bs : List Byte) : (sendMir s bs).mir = s.mir := sendPkt_mir ..
@[simp] theorem outcomeEvent_mir (s : State) (c : Cmd) (status progress result : Nat) : (outcomeEvent s c status progress result).mir = s.mir := by
  unfold outcomeEvent
  dsimp only
  split
  · split <;> simp
  · rfl
@[simp] theorem putUnit_mir (s : State) (h kind a r : Nat) (bs : List Byte) : (putUnit s h kind a r bs).mir = s.mir := by
  unfold putUnit
  split <;> simp
@[simp] theorem ringReply_mir (s : State) (n : Nat) (bs : List Byte) (notify : Bool) : (ringReply s n bs notify).mir = s.mir := by
  unfold ringReply
  dsimp only
  split
  · rfl
  · split
    · rfl
    · split <;> simp
@[simp] theorem issueReply_mir (s : State) (rt : ReplyTo) (status load : Nat) (sat final : Bool) (cr : Credit) (progress result : Nat)
    (data : List Byte) : (issueReply s rt status load sat final cr progress result data).mir = s.mir := by
  unfold issueReply
  dsimp only
  split
  · simp
  · split
    · rfl
    · cases cr <;> simp
@[simp] theorem sendLogged_mir (s : State) (r : LoggedReply) (cr : Credit) : (sendLogged s r cr).mir = s.mir := by
  unfold sendLogged
  dsimp only
  split <;> simp
@[simp] theorem digestReply_mirState (s : State) (c : Cmd) (bs : List Byte) : (digestReply s c bs).mir.state = s.mir.state := rfl
@[simp] theorem holdReply_mirState (s : State) (r : LoggedReply) : (holdReply s r).mir.state = s.mir.state := rfl
@[simp] theorem finalReply_mirState (s : State) (c : Cmd) (status : Nat) (sat : Bool) (cr : Credit) (progress result : Nat) (data : List Byte) :
    (finalReply s c status sat cr progress result data).mir.state = s.mir.state := by
  unfold finalReply
  dsimp only
  generalize (if cr = .refusal then 0 else loadOf s c) = load
  split
  · simp
  · split
    · simp
    · split <;> simp
@[simp] theorem cleanup_mirState (s : State) (k : Nat) (c : Cmd) : (cleanup s k c).mir.state = s.mir.state := by
  unfold cleanup
  dsimp only
  split
  · simp [foldl_mirState]
  · split <;> simp [foldl_mirState]
@[simp] theorem finishOne_mirState (s : State) (k status progress result : Nat) (data : List Byte) (sat : Bool) (cr : Credit) (signals : Bool) :
    (finishOne s k status progress result data sat cr signals).mir.state = s.mir.state := by
  unfold finishOne
  split
  · rfl
  · dsimp only
    split <;> simp
@[simp] theorem finish_mirState (s : State) (k status progress result : Nat) (data : List Byte) (sat : Bool) (cr : Credit) :
    (finish s k status progress result data sat cr).mir.state = s.mir.state := by
  unfold finish
  split
  · rfl
  · dsimp only
    split <;> simp

/-! ## What follows a change (R43, R175, R231) -/

@[simp] theorem freeTiles_mirState (s : State) (tiles : List Nat) : (freeTiles s tiles).mir.state = s.mir.state :=
  foldl_mirState _ (fun _ _ => by rfl) tiles s
@[simp] theorem freeProg_mirState (s : State) (h : Nat) : (freeProg s h).mir.state = s.mir.state := by
  unfold freeProg
  split
  · rfl
  · exact foldl_mirState _ (fun _ _ => by rfl) _ s
@[simp] theorem freeWin_mir (s : State) (wi : Nat) : (freeWin s wi).mir = s.mir := rfl
@[simp] theorem endRun_mirState (s : State) (k : Nat) (c : Cmd) : (endRun s k c).mir.state = s.mir.state := by
  unfold endRun
  dsimp only
  split
  · split <;> simp
  · split
    · simp
    · split <;> simp
@[simp] theorem settleN_mirState (fuel : Nat) (s : State) : (settleN fuel s).mir.state = s.mir.state := by
  induction fuel generalizing s with
  | zero => rfl
  | succ fuel ih =>
    have hwoken : ((s.churn.tiles.filter fun e => e.2.st.inWait).foldl (fun s e => wakeTile s e.1) s).mir.state = s.mir.state := by
      simp [foldl_mirState]
    unfold settleN
    dsimp only
    generalize (s.churn.tiles.filter fun e => e.2.st.inWait).foldl (fun s e => wakeTile s e.1) s = t at hwoken ⊢
    rw [← hwoken]
    split
    · split <;> simp [ih]
    · (repeat' split) <;> simp [ih]
@[simp] theorem markReady_mir (s : State) : (markReady s).mir = s.mir := rfl
@[simp] theorem settle_mirState (s : State) : (settle s).mir.state = s.mir.state := by simp [settle]

/-! ## The lines of stream DMA (R169-R173, R380) -/

@[simp] theorem pushReq_mir (s : State) (r : ChReq) : (pushReq s r).mir = s.mir := rfl
@[simp] theorem pushLines_mirState (s : State) (l : List ChReq) : (pushLines s l).mir.state = s.mir.state :=
  foldl_mirState _ (fun _ _ => by rfl) l s
@[simp] theorem rtSettle_mir (s : State) (ppa : Nat) : (rtSettle s ppa).mir = s.mir := rfl
@[simp] theorem fetched_mir (s : State) (line : Nat) : (fetched s line).mir = s.mir := rfl
@[simp] theorem chargeItem_mir (s : State) (h b : Nat) : (chargeItem s h b).2.mir = s.mir := by
  unfold chargeItem
  dsimp only
  split <;> rfl
@[simp] theorem lineServed_mirState (s : State) (n : Nat) (e : Bool) : (lineServed s n e).mir.state = s.mir.state := by simp [lineServed]
theorem streamRead_mirState (h : Nat) (s : State) (ppa n : Nat) : (streamRead h s ppa n).2.mir.state = s.mir.state := by
  have hread := readAt_mirState s ppa n
  unfold streamRead
  dsimp only
  split
  · rfl
  · split
    · rfl
    · split
      case h_1 heq =>
        refine (foldl_mirState _ (fun _ _ => by rfl) _ _).trans ?_
        simp [mirState_of_eq heq hread]
      case h_2 => exact hread
theorem dmaLine_mirState (s : State) (r : ChReq) (n : Nat) (e : Bool) (sa : Nat) : (dmaLine s r n e sa).2.mir.state = s.mir.state := by
  unfold dmaLine
  split
  case isTrue =>
    split
    · split
      · simp
      · split <;> rename_i heq <;> simp [mirState_of_eq heq (cohDevice_mirState ..)]
    · split <;> rename_i heq <;> simp [mirState_of_eq heq (writeAt_mirState ..)]
  case isFalse =>
    cases r.stream with
    | none =>
      dsimp only
      split <;> rename_i heq <;> simp [mirState_of_eq heq (readAt_mirState ..)]
    | some h =>
      dsimp only
      split <;> rename_i heq <;> simp [mirState_of_eq heq (streamRead_mirState ..)]
@[simp] theorem serveChReq_mirState (s : State) (r : ChReq) (from_ : Option ChReq) : (serveChReq s r from_).mir.state = s.mir.state := by
  unfold serveChReq
  split
  · rfl
  · split
    · split
      · dsimp only
        split
        · exact dmaLine_mirState ..
        · rw [dmaLine_mirState]
          split <;> rfl
      · exact dmaLine_mirState ..
    · split <;> rename_i heq <;> simp [mirState_of_eq heq (readLine_mirState ..)]
@[simp] theorem State.setChq_mir (s : State) (q : Nat) (x : ChanQ) : (s.setChq q x).mir = s.mir := rfl
@[simp] theorem drainReqs_mirState (s : State) (f : ChReq → Bool) : (drainReqs s f).mir.state = s.mir.state := by
  unfold drainReqs
  dsimp only
  rw [foldl_mirState]
  · simp
  · intro s e
    split <;> simp
@[simp] theorem drainDma_mirState (s : State) : (drainDma s).mir.state = s.mir.state := drainReqs_mirState ..

end Sys2Proof.Machine
end

section
/-! The administrator's requests, with and without a session (R112-R117, R121, R124, R126). -/
namespace Sys2Proof.Machine

/-! ## What a request leaves of the member's place in its pair -/

section
variable (s : State)

@[simp] theorem hostSet_mir (h : Nat) (e : BitVec 256) : (hostSet s h e).2.2.mir = s.mir := by
  unfold hostSet
  dsimp only
  split <;> rfl
@[simp] theorem hostClear_mir (h : Nat) : (hostClear s h).2.2.mir = s.mir := by
  unfold hostClear
  split <;> rfl
@[simp] theorem grantSet_mir (h r : Nat) (x : Rights) : (grantSet s h r x).2.2.mir = s.mir := by
  unfold grantSet
  dsimp only
  (repeat' split) <;> rfl
@[simp] theorem bindsetLoad_mir (m : Manifest) : (bindsetLoad s m).2.2.mir = s.mir := by
  unfold bindsetLoad
  split <;> rfl
@[simp] theorem logRead_mir (first : W32) (n : Nat) : (logRead s first n).2.2.mir = s.mir := by
  unfold logRead
  split <;> rfl
@[simp] theorem unbindZero_mir (rid : Nat) : (unbindZero s rid).mir = s.mir := by
  unfold unbindZero
  split <;> rfl
@[simp] theorem weightClear_mir (dst : Nat) : (weightClear s dst).2.2.mir = s.mir := by
  unfold weightClear
  split
  · rfl
  · split
    · rfl
    · (repeat' split) <;> simp
@[simp] theorem isoCommit_mirState : (isoCommit s).2.2.mir.state = s.mir.state := by
  simp [isoCommit, downRights, foldl_mirState]

end

/-! ## Requests with the administrator's session (R112) -/

section
variable (s : State) (sess : Option Nat)

theorem adminTakes_iff : adminTakes s sess = true ↔
    secServes s = true ∧ s.flt.recovery = false ∧ secAuth s sess = true ∧ s.mir.state = 0 := by
  simp [adminTakes, and_assoc]
theorem pairHeld_solo (h : s.mir.state = 0) : pairHeld s = false := by simp [pairHeld, h]

/-- Outside a pair a request has no standby to go to: it is answered where it is carried out. -/
theorem secRequest_solo (req : Nat) (forward : Option (List Byte)) (f : State → Nat × List Byte × State) (hadmin : adminTakes s sess = true)
    (hsolo : (f s).2.2.mir.state = s.mir.state) : secRequest s sess req forward f = answered (framed sess) req (f s) := by
  obtain ⟨hserves, hidle, hauth, hstate⟩ := (adminTakes_iff s sess).mp hadmin
  have hstays : (f s).2.2.mir.state ≠ 1 := by omega
  cases forward <;> simp [secRequest, answered, hserves, hidle, hauth, hstate, hstays, pairHeld_solo s hstate]
theorem secRequest_noSession (req : Nat) (forward : Option (List Byte)) (f : State → Nat × List Byte × State) (hserves : secServes s = true)
    (hidle : s.flt.recovery = false) (hauth : secAuth s sess = false) :
    secRequest s sess req forward f = respond s (framed sess) req rNO_SESSION := by
  simp [secRequest, hserves, hidle, hauth]

/-! ## ISO_COMMIT (R117) -/

theorem exec_isoCommit_waits (hwaits : commitWaits s sess = true) : exec (.isoCommit sess) s = .next (intEval (drainDma s)) :=
  congrArg done (if_pos hwaits)
theorem exec_isoCommit_free (hfree : commitWaits s sess = false) :
    exec (.isoCommit sess) s = .next (intEval (secRequest s sess 0x21 (some []) isoCommit)) :=
  congrArg done (if_neg (ne_true_of_eq_false hfree))
/-- Only a commit of the administrator waits. -/
theorem commitWaits_noSession (hauth : secAuth s sess = false) : commitWaits s sess = false := by simp [commitWaits, hauth]

/-! ## WEIGHT_UNWRAP (R126) -/

section
variable (src dst : W64) (hid : Nat) (t : State)

/-- An unwrap that begins answers with its last chunk; outside a pair nothing is sent. -/
theorem exec_weightUnwrap_begins (hadmin : adminTakes s sess = true)
    (hunwrap : weightUnwrap s (framed sess) src.toNat dst.toNat hid = (none, t)) (hsolo : t.mir.state = 0) :
    exec (.weightUnwrap sess src dst hid) s = .next (intEval t) := by
  obtain ⟨hserves, hidle, hauth, hstate⟩ := (adminTakes_iff s sess).mp hadmin
  change execWeightUnwrap sess src dst hid s = _
  simp [execWeightUnwrap, done, hserves, hidle, hauth, hstate, pairHeld_solo s hstate, hunwrap, hsolo]
theorem exec_weightUnwrap_answered (code : Nat) (hadmin : adminTakes s sess = true)
    (hunwrap : weightUnwrap s (framed sess) src.toNat dst.toNat hid = (some code, t)) :
    exec (.weightUnwrap sess src dst hid) s = .next (intEval (respond t (framed sess) 0x31 code)) := by
  obtain ⟨hserves, hidle, hauth, hstate⟩ := (adminTakes_iff s sess).mp hadmin
  change execWeightUnwrap sess src dst hid s = _
  simp [execWeightUnwrap, done, hserves, hidle, hauth, hstate, pairHeld_solo s hstate, hunwrap]
theorem exec_weightUnwrap_noSession (hserves : secServes s = true) (hidle : s.flt.recovery = false) (hauth : secAuth s sess = false) :
    exec (.weightUnwrap sess src dst hid) s = .next (intEval (respond s (framed sess) 0x31 rNO_SESSION)) := by
  change execWeightUnwrap sess src dst hid s = _
  simp [execWeightUnwrap, done, hserves, hidle, hauth]

end

end

/-- Settles O35: the administrator's requests by what each does on a part that stays outside a pair, and without a session by the check of it. -/
theorem administratorRequestsRun : Obligations.AdministratorRequestsRun := by
  refine ⟨fun s sess hadmin => ?admitted, fun s sess hserves hidle hauth => ?refused⟩
  case admitted =>
    have hrow (req : Nat) (forward : Option (List Byte)) (f : State → Nat × List Byte × State) (hsolo : (f s).2.2.mir.state = s.mir.state) :=
      congrArg done (secRequest_solo s sess req forward f hadmin hsolo)
    exact ⟨fun h e => hrow 0x10 _ _ (by simp), fun h => hrow 0x11 _ _ (by simp), fun h r x => hrow 0x20 _ _ (by simp),
      fun hfree => (exec_isoCommit_free s sess hfree).trans (hrow 0x21 _ _ (isoCommit_mirState s)), exec_isoCommit_waits s sess,
      fun m => hrow 0x30 _ _ (by simp), fun d => hrow 0x32 _ _ (by simp), fun f n => hrow 0x40 _ _ (by simp),
      fun src dst hid t hbegins hsolo => exec_weightUnwrap_begins s sess src dst hid t hadmin hbegins hsolo,
      fun src dst hid code t hends => exec_weightUnwrap_answered s sess src dst hid t code hadmin hends⟩
  case refused =>
    have hrow (req : Nat) (forward : Option (List Byte)) (f : State → Nat × List Byte × State) :=
      congrArg done (secRequest_noSession s sess req forward f hserves hidle hauth)
    exact ⟨fun h e => hrow 0x10 _ _, fun h => hrow 0x11 _ _, fun h r x => hrow 0x20 _ _,
      (exec_isoCommit_free s sess (commitWaits_noSession s sess hauth)).trans (hrow 0x21 _ _), fun m => hrow 0x30 _ _,
      fun a b h => exec_weightUnwrap_noSession s sess a b h hserves hidle hauth, fun d => hrow 0x32 _ _, fun f n => hrow 0x40 _ _⟩

end Sys2Proof.Machine
end

section
/-! What the administrator's requests and the chunks of a weight image write (R113-R117, R125, R126, R393). -/
namespace Sys2Proof.Machine

/-! ## The shadow copies (R113-R116) -/

/-- The active copies of both tables. -/
def activeTables (s : State) : Tab HostE × Tab Grant := (s.iso.hostsA, s.iso.grantsA)

section
variable (s : State) (hid rid : Nat)

@[simp] theorem hostSet_activeTables (e : BitVec 256) : activeTables (hostSet s hid e).2.2 = activeTables s := by
  unfold hostSet
  dsimp only
  split <;> rfl
@[simp] theorem hostClear_activeTables : activeTables (hostClear s hid).2.2 = activeTables s := by
  unfold hostClear
  split <;> rfl
@[simp] theorem grantSet_activeTables (x : Rights) : activeTables (grantSet s hid rid x).2.2 = activeTables s := by
  unfold grantSet
  dsimp only
  (repeat' split) <;> rfl

section
variable (hhid : hid ≤ 65535)
include hhid

/-- HOST_CLEAR of an identity that the shadow lists invalidates it, and its grants go. -/
theorem hostClear_listed (old : HostE) (hold : tabFind s.iso.hostsS hid = some old) :
    (hostClear s hid).2.2.iso.hostsS = tabIns s.iso.hostsS hid { old with valid := false } := by
  simp only [hostClear, if_neg (Nat.not_lt.mpr hhid), hold]
theorem hostClear_grants (g : Nat × Grant) (hg : g ∈ (hostClear s hid).2.2.iso.grantsS) : g.2.host ≠ hid := by
  simp only [hostClear, if_neg (Nat.not_lt.mpr hhid), List.mem_filter, bne_iff_ne] at hg
  exact hg.2

variable (x : Rights) (hrid : rid < 2 ^ 20) (hunbound : tabFind s.iso.bound rid = none)
include hrid hunbound

/-- A request on a grant that the shadow has changes it, or with no rights removes it. -/
theorem grantSet_known (i : Nat) (hslot : grantSlot s.iso.grantsS hid rid = some i) :
    (grantSet s hid rid x).2.2.iso.grantsS =
      if x = 0 then tabDel s.iso.grantsS i else tabIns s.iso.grantsS i { host := hid, rid := rid, rights := x } := by
  simp only [grantSet, hunbound, Nat.not_lt.mpr hhid, Nat.not_le.mpr hrid, hslot, decide_false, Bool.or_self, Bool.false_eq_true, if_false]
/-- A new grant takes a free place of its buckets. -/
theorem grantSet_new (hx : x ≠ 0) (hslot : grantSlot s.iso.grantsS hid rid = none) (i : Nat)
    (hfree : (grantSlots hid rid).find? (fun i => (tabFind s.iso.grantsS i).isNone) = some i) :
    (grantSet s hid rid x).2.2.iso.grantsS = tabIns s.iso.grantsS i { host := hid, rid := rid, rights := x } := by
  have hplace : placeGrant s.iso.grantsS { host := hid, rid := rid, rights := x } =
      some (tabIns s.iso.grantsS i { host := hid, rid := rid, rights := x }) := by simp only [placeGrant, hfree]
  simp only [grantSet, hunbound, Nat.not_lt.mpr hhid, Nat.not_le.mpr hrid, hslot, hplace, if_neg hx, decide_false, Bool.or_self,
    Bool.false_eq_true, if_false]

end

end

/-! ## WEIGHT_CHUNK_COMPLETE (R125, R126) -/

section
variable (s : State) (u : Unwrap)

/-- The guard of a chunk on SEC and on the lines that were translated before the binding passes. -/
theorem chunk_unheld (hserves : secServes s = true) (hfree : u.next = 0 → destBusy s u = false) :
    (!secServes s || (decide (u.next = 0) && destBusy s u)) = false := by
  by_cases h0 : u.next = 0
  · simp [hserves, hfree h0]
  · simp [hserves, h0]

variable (hu : s.iso.unwrap = some u)
include hu

theorem exec_weightChunkComplete_next : exec (.weightChunkComplete u.rid u.next) s = .next (intEval (weightChunk s)) :=
  congrArg done (if_pos (by simp [hu]))

section
variable (hserves : secServes s = true) (hfree : u.next = 0 → destBusy s u = false)
include hserves hfree

theorem weightChunk_lost (hdown : tierUp s (ppaCream (u.dstPpa + u.next * 2 ^ 22)) (ppaPart (u.dstPpa + u.next * 2 ^ 22)) = false) :
    weightChunk s = unwrapLost s u := by
  simp only [weightChunk, hu, chunk_unheld s u hserves hfree, hdown, Bool.not_false, Bool.false_eq_true, if_false, if_true]

variable (v : State) (bs : List Byte) (hup : tierUp s (ppaCream (u.dstPpa + u.next * 2 ^ 22)) (ppaPart (u.dstPpa + u.next * 2 ^ 22)) = true)
  (hread : readGran s u.host (chunkAt u) (chunkLen u + 16) = (.ok bs, v))
include hup hread

/-- A bad tag zeroes the destination. -/
theorem weightChunk_bad (hopen : openChunk v u bs = none) : weightChunk s = unwrapEnd (unbindZero v u.rid) rBAD_IMAGE := by
  simp only [weightChunk, hu, chunk_unheld s u hserves hfree, hup, hread, hopen, Bool.not_true, Bool.false_eq_true, if_false]

variable (plain : List Byte) (hopen : openChunk v u bs = some plain)
include hopen

/-- The last chunk that opens ends the unwrap, and one before it makes the next due. -/
theorem weightChunk_last (hlast : u.length ≤ u.next * 2 ^ 22 + chunkLen u) :
    weightChunk s = unwrapEnd (secWrite v (u.dstPpa + u.next * 2 ^ 22) plain) rSUCCESS := by
  simp only [weightChunk, hu, chunk_unheld s u hserves hfree, hup, hread, hopen, if_pos hlast, Bool.not_true, Bool.false_eq_true, if_false]
theorem weightChunk_more (hmore : u.next * 2 ^ 22 + chunkLen u < u.length) :
    weightChunk s = { secWrite v (u.dstPpa + u.next * 2 ^ 22) plain with
      iso := { (secWrite v (u.dstPpa + u.next * 2 ^ 22) plain).iso with unwrap := some { u with next := u.next + 1 } } } := by
  simp only [weightChunk, hu, chunk_unheld s u hserves hfree, hup, hread, hopen, if_neg (Nat.not_le.mpr hmore), Bool.not_true,
    Bool.false_eq_true, if_false]

end

end

/-! ## FORWARDED_TENANT_REQUEST (R393) -/

theorem forwarded_solo (s : State) (code : Nat) (bs : List Byte) (h : s.mir.state = 0) : forwarded s code bs = s := by
  simp [forwarded, h]
theorem forwarded_grantSet (s : State) (bs : List Byte) (h : s.mir.state = 2) :
    forwarded s 0x20 bs = (grantSet s (leAt bs 0 2) (leAt bs 2 3) (BitVec.ofNat 3 (leAt bs 5 1))).2.2 := by
  simp [forwarded, h]

/-- Settles O36: the tables by what a request does to each copy, a chunk by its destination and its tag, and a forwarded request by the
member's state. -/
theorem administratorTablesChange : Obligations.AdministratorTablesChange := by
  refine ⟨fun s hid rid e x => ?tables, fun s v u bs hu => ⟨fun hserves hfree => ⟨?lost, fun hup hread => ?read⟩, ?standby, ?solo⟩⟩
  case tables =>
    obtain ⟨hsetHosts, hsetGrants⟩ := Prod.mk.inj (hostSet_activeTables s hid e)
    obtain ⟨hclearHosts, hclearGrants⟩ := Prod.mk.inj (hostClear_activeTables s hid)
    obtain ⟨hgrantHosts, hgrantGrants⟩ := Prod.mk.inj (grantSet_activeTables s hid rid x)
    exact ⟨hsetHosts, hsetGrants, hclearHosts, hclearGrants, hgrantHosts, hgrantGrants,
      fun hhid old hold => ⟨hostClear_listed s hid hhid old hold, hostClear_grants s hid hhid⟩,
      fun hhid hrid hunbound => grantSet_known s hid rid hhid x hrid hunbound,
      fun hhid hrid hunbound => grantSet_new s hid rid hhid x hrid hunbound, rfl⟩
  case lost => exact fun hdown => (exec_weightChunkComplete_next s u hu).trans (congrArg done (weightChunk_lost s u hu hserves hfree hdown))
  case read =>
    have hrow := exec_weightChunkComplete_next s u hu
    exact ⟨fun plain hopen hlast => hrow.trans (congrArg done (weightChunk_last s u hu hserves hfree v bs hup hread plain hopen hlast)),
      fun plain hopen hmore => hrow.trans (congrArg done (weightChunk_more s u hu hserves hfree v bs hup hread plain hopen hmore)),
      fun hopen => hrow.trans (congrArg done (weightChunk_bad s u hu hserves hfree v bs hup hread hopen))⟩
  case standby => exact fun h => congrArg done (forwarded_grantSet s bs h)
  case solo => exact fun h => congrArg done (forwarded_solo s 0x20 bs h)

end Sys2Proof.Machine
end

section
/-! The SPDM responder: connections, sessions and their seals (R112, R127, R129). -/
namespace Sys2Proof.Machine

/-! ## Requests on a transport (R127) -/

section
variable (s : State) (p : SpdmPath) (hserves : secServes s = true)
include hserves

/-- A request on a connection that has come to its stage is carried out. -/
theorem spdmRequest_staged (req need : Nat) (f : State → State) (hstage : need ≤ tabGet 0 s.iso.spdm (spdmIx p)) :
    spdmRequest s p req need f = f s := by
  simp only [spdmRequest, hserves, if_neg (Nat.not_lt.mpr hstage), Bool.not_true, Bool.false_eq_true, if_false]
/-- A request that changes no session puts its connection at its stage, and is answered with a body that is a free value. -/
theorem spdmPlain_staged (req rsp need stage : Nat) (body : List Byte) (hstage : need ≤ tabGet 0 s.iso.spdm (spdmIx p)) :
    spdmPlain s p req rsp need stage body = { s with
      iso := { s.iso with spdm := tabSet 0 s.iso.spdm (spdmIx p) stage }
      out := s.out ++ [.sec (.transport p) req rsp (Config.spdmBody req body s.free)], free := s.free + 1 } :=
  spdmRequest_staged s p hserves req need _ hstage
theorem exec_getMeasurements_one (i : Nat) (hfirst : 1 ≤ i) (hlast : i ≤ 5) (hstage : 3 ≤ tabGet 0 s.iso.spdm (spdmIx p)) :
    exec (.getMeasurements p i) s = .next (intEval (spdmSend s (.transport p) 0xE0 0x60 (1 :: BitVec.ofNat 8 i :: Config.sha384 (measured s i)))) := by
  refine congrArg done ((spdmRequest_staged s p hserves 0xE0 3 _ hstage).trans ?_)
  rw [if_neg (Nat.ne_of_gt hfirst), if_pos hlast]

/-! ## KEY_EXCHANGE and FINISH (R112) -/

theorem exec_keyExchange_room (bs : List Byte) (hstage : 3 ≤ tabGet 0 s.iso.spdm (spdmIx p)) (hroom : tabGap s.iso.sessions 0 < 32) :
    exec (.keyExchange p bs) s = .next (intEval (spdmSend
      (setSession { s with iso := { s.iso with sessNo := s.iso.sessNo + 1 } } (tabGap s.iso.sessions 0) { serial := s.iso.sessNo + 1 })
      (.transport p) 0xE4 0x64 (BitVec.ofNat 8 (tabGap s.iso.sessions 0) :: Config.spdmBody 0xE4 bs s.free))) :=
  congrArg done ((spdmRequest_staged s p hserves 0xE4 3 _ hstage).trans (if_neg (Nat.not_le.mpr hroom)))

/-- What FINISH establishes: the session with the requester's key, and the seal of its host. -/
def finished (s : State) (n : Nat) (x : Session) (key : Option (List Byte)) : State :=
  let y := { x with established := true, mutualKey := key }
  beginSeal (setSession s n y) y

section
variable (n : Nat) (x : Session) (hsess : tabFind s.iso.sessions n = some x) (hnew : x.established = false)
  (hstage : 3 ≤ tabGet 0 s.iso.spdm (spdmIx p)) (key proof : List Byte)
include hsess hnew hstage

theorem exec_finish_good (hgood : Config.finishOk key proof n = true) :
    exec (.finish p n (some key) proof) s = .next (intEval (spdmSend (finished s n x (some key)) (.transport p) 0xE5 0x65 [])) := by
  refine congrArg done ((spdmRequest_staged s p hserves 0xE5 3 _ hstage).trans ?_)
  simp only [hsess, hnew, hgood, Bool.false_eq_true, if_false, if_true, finished]
/-- Without a key of the requester there is no proof to check. -/
theorem exec_finish_keyless :
    exec (.finish p n none proof) s = .next (intEval (spdmSend (finished s n x none) (.transport p) 0xE5 0x65 [])) := by
  refine congrArg done ((spdmRequest_staged s p hserves 0xE5 3 _ hstage).trans ?_)
  simp only [hsess, hnew, Bool.false_eq_true, if_false, if_true, finished]
theorem exec_finish_bad (hbad : Config.finishOk key proof n = false) :
    exec (.finish p n (some key) proof) s = .next (intEval (spdmError { s with iso := { s.iso with sessions := tabDel s.iso.sessions n } }
      (.transport p) 0xE5 0x06)) := by
  refine congrArg done ((spdmRequest_staged s p hserves 0xE5 3 _ hstage).trans ?_)
  simp only [hsess, hnew, hbad, Bool.false_eq_true, if_false]

end

/-! ## Requests in a session (R112) -/

theorem sessionRequest_established (n req : Nat) (x : Session) (f : Session → State) (hsess : tabFind s.iso.sessions n = some x)
    (hest : x.established = true) : sessionRequest s n req f = f x := by
  simp only [sessionRequest, hserves, hsess, hest, Bool.not_true, Bool.false_eq_true, if_false, if_true]

end

/-! ## Seals (R129) -/

/-- The host of a session seals under its key, and counts both ways from the start. -/
theorem beginSeal_host (s : State) (x : Session) (h : Nat) (hhost : Config.sessionHost x.serial x.mutualKey = some h) :
    tabFind (beginSeal s x).iso.sealKey h = some (x.serial, x.keyGen) ∧ tabFind (beginSeal s x).iso.sealIn h = none ∧
      tabFind (beginSeal s x).iso.sealOut h = none := by
  simp only [beginSeal, hhost, tabFind_tabIns_same, tabFind_tabDel_same, and_self]

/-- Settles O37: each request by the stage of its connection, or by its session; and the seal by the host of the session. -/
theorem sessionsAndAttestation : Obligations.SessionsAndAttestation := by
  refine ⟨fun s p n x hserves hsess => ⟨fun hstage => ⟨?exchange, ?good, ?keyless, ?bad⟩, fun hest => ⟨?heartbeat, ?update, ?ended⟩⟩,
    fun s p hserves => ?attestation, beginSeal_host⟩
  case exchange => exact fun bs hroom => exec_keyExchange_room s p hserves bs hstage hroom
  case good => exact fun key proof hnew hgood => exec_finish_good s p hserves n x hsess hnew hstage key proof hgood
  case keyless => exact fun proof hnew => exec_finish_keyless s p hserves n x hsess hnew hstage proof
  case bad => exact fun key proof hnew hbad => exec_finish_bad s p hserves n x hsess hnew hstage key proof hbad
  case heartbeat => exact congrArg done (sessionRequest_established s hserves n 0xE8 x _ hsess hest)
  case update => exact congrArg done (sessionRequest_established s hserves n 0xE9 x _ hsess hest)
  case ended => exact congrArg done (sessionRequest_established s hserves n 0xEC x _ hsess hest)
  case attestation =>
    have hplain (req rsp need stage : Nat) (body : List Byte) (hstage : need ≤ tabGet 0 s.iso.spdm (spdmIx p)) :=
      congrArg done (spdmPlain_staged s p hserves req rsp need stage body hstage)
    exact ⟨hplain 0x84 0x04 0 1 [] (Nat.zero_le _), hplain 0xE1 0x61 1 2 [], hplain 0xE3 0x63 2 3 [], hplain 0x81 0x01 3 3 [],
      fun hstage slot off len => hplain 0x82 0x02 3 3 _ hstage, fun hstage nonce => hplain 0x83 0x03 3 3 nonce hstage,
      fun hstage i hfirst hlast => exec_getMeasurements_one s p hserves i hfirst hlast hstage⟩

end Sys2Proof.Machine
end

section
/-! TDISP and IDE key requests (R128). -/
namespace Sys2Proof.Machine

/-! ## TDISP -/

/-- The state of an interface, and the part with it changed. -/
def tdispOf (s : State) (i : Nat) : Nat := tabGet 0 s.iso.tdisp i
def tdispPut (s : State) (i v : Nat) : State := { s with iso := { s.iso with tdisp := tabSet 0 s.iso.tdisp i v } }

section
variable (s : State) (i : Nat)

theorem exec_tdispRequest (m : TdispMsg) (hi : i ≤ 16) : exec (.tdispRequest i m) s = .next (intEval (tdispRequest s i m)) :=
  onInst_next _ _ (decide_eq_true hi)
theorem tdispRequest_lock (h : tdispOf s i = 0) : tdispRequest s i .lock = tdispPut s i 1 := if_pos h
theorem tdispRequest_start (h : tdispOf s i = 1) : tdispRequest s i .start = tdispPut s i 2 := if_pos h
theorem tdispRequest_stop : tdispRequest s i .stop = tdispPut s i 0 := rfl
theorem tdispRequest_error (h : tdispOf s i ≠ 0) :
    tdispRequest s i .error = (ifaceRings s i).foldl stopAndCancel (tdispPut s i 3) := if_neg h

end

/-! ## IDE_KM -/

section
variable (s : State)

/-- In an established session the request is carried out. -/
theorem exec_ideKmRequest (n : Nat) (x : Session) (stream : Option Nat) (on : Bool) (hserves : secServes s = true)
    (hsess : tabFind s.iso.sessions n = some x) (hest : x.established = true) :
    exec (.ideKmRequest (some n) stream on) s = .next (intEval (ideKm s stream on)) := by
  change execIdeKmRequest (some n) stream on s = _
  simp [execIdeKmRequest, done, hserves, hsess, hest]
theorem ideKm_link (on : Bool) : ideKm s none on = { s with iso := { s.iso with linkIde := on } } := rfl
theorem ideKm_stream (k : Nat) (hroom : (s.iso.streams.filter (· != k)).length < 16) :
    ideKm s (some k) true = { s with iso := { s.iso with streams := s.iso.streams.filter (· != k) ++ [k] } } := by
  simp only [ideKm, Bool.not_true, Bool.false_eq_true, if_false, if_neg (Nat.not_le.mpr hroom)]

end

/-- Settles O38: each message by the state of its interface, and each key request by what it sets up. -/
theorem confidentialHostRequestsRun : Obligations.ConfidentialHostRequestsRun := by
  intro s i n x hi hsess hest hserves
  have htdisp (m : TdispMsg) := exec_tdispRequest s i m hi
  have hide (stream : Option Nat) (on : Bool) := exec_ideKmRequest s n x stream on hserves hsess hest
  refine ⟨fun h => ?lock, fun h => ?start, ?stop, fun h => ?error, fun on => ?link, fun k hroom => ?stream⟩
  case lock => exact (htdisp .lock).trans (congrArg done (tdispRequest_lock s i h))
  case start => exact (htdisp .start).trans (congrArg done (tdispRequest_start s i h))
  case stop => exact (htdisp .stop).trans (congrArg done (tdispRequest_stop s i))
  case error => exact (htdisp .error).trans (congrArg done (tdispRequest_error s i h))
  case link => exact (hide none on).trans (congrArg done (ideKm_link s on))
  case stream => exact (hide (some k) true).trans (congrArg done (ideKm_stream s k hroom))

end Sys2Proof.Machine
end

section
/-! The pins, the power and the device reset (R111, R499-R509). -/
namespace Sys2Proof.Machine

/-! ## What a device reset leaves of the rings (R506) -/

/-- What holds of the default and of all that `f` gives holds of every entry of a table that `f` was applied to. -/
theorem tabGet_tabMapD {α : Type} [DecidableEq α] (P : α → Prop) (d : α) (f : Nat → α → α) (hd : P d) (hf : ∀ k v, P (f k v)) (t : Tab α) (n : Nat) :
    P (tabGet d (tabMapD d f t) n) := by
  induction t with
  | nil => exact hd
  | cons e t ih =>
    rw [tabMapD, tabMap, List.map_cons, List.filter_cons]
    split
    · rw [tabGet]
      split
      · exact hf _ _
      · exact ih
    · exact ih

theorem resetUnits_ringOff (s : State) (n : Nat) : ((resetUnits s).ring n).en = false :=
  tabGet_tabMapD (·.en = false) {} _ rfl (fun _ _ => rfl) s.rings n

/-! ## RESET_N (R500, R506, R508, R509) -/

section
variable (s : State) (hsaf : s.pins.vddSaf = true)
include hsaf

theorem resetAssert_high (hhigh : s.pins.resetN = true) :
    resetAssert s = { deviceReset s with
      pins := { (deviceReset s).pins with resetN := false, resetLowAt := s.now - 1000 }, saf := { (deviceReset s).saf with resetHeld := false } } := by
  simp only [resetAssert, hsaf, hhigh, Bool.not_true, Bool.or_self, Bool.false_eq_true, if_false]
  rfl

/-- RESET_N rises: bit 0 of the status byte ends. -/
def resetRisen (s : State) : State :=
  { s with pins := { s.pins with resetN := true }, saf := { s.saf with statusByte := s.saf.statusByte &&& 0xFE } }
theorem resetRelease_low (hlow : s.pins.resetN = false) : resetRelease s = tryRelease (resetRisen s) := by
  simp only [resetRelease, hsaf, hlow, Bool.not_true, Bool.not_false, Bool.false_eq_true, if_false, if_true, resetRisen]

theorem exec_resetHeld_second (hlow : s.pins.resetN = false) (hpwr : s.pins.pwrgd = true) (hlong : s.pins.resetLowAt + 1000000000 ≤ s.now) :
    exec .resetHeld s = .next (intEval { s with saf := { s.saf with resetHeld := true, statusByte := s.saf.statusByte ||| 1 } }) := by
  change execResetHeld s = _
  simp only [execResetHeld, done, ms, hsaf, hlow, hpwr, hlong, Bool.not_false, Bool.and_self, decide_true, if_true]

end

theorem tryRelease_ok (s : State) (hreset : s.boot.inReset = true) (hok : releaseOk s = true) : tryRelease s = effectiveRelease s := by
  simp only [tryRelease, hreset, hok, Bool.not_true, Bool.false_eq_true, if_false, if_true]
theorem tryRelease_kept (s : State) (hreset : s.boot.inReset = true) (hok : releaseOk s = false) :
    tryRelease s = { s with boot := { s.boot with releasePend := true } } := by
  simp only [tryRelease, hreset, hok, Bool.not_true, Bool.false_eq_true, if_false]

/-! ## Power (R501, R502, R509) -/

section
variable (s : State)

theorem pwrgdFall_high (hsaf : s.pins.vddSaf = true) (hpwr : s.pins.pwrgd = true) :
    pwrgdFall s = { deviceReset s with
      pins := { (deviceReset s).pins with pwrgd := false, pwrgdLowAt := s.now - 1000 }, boot := { (deviceReset s).boot with releasePend := s.pins.resetN } } := by
  simp only [pwrgdFall, hsaf, hpwr, Bool.not_true, Bool.or_self, Bool.false_eq_true, if_false]
  rfl
/-- 100 ms without PWRGD clear a trip. -/
theorem pwrgdRise_clears (hsaf : s.pins.vddSaf = true) (hpwr : s.pins.pwrgd = false) (htrip : s.saf.tripped = true)
    (hlong : s.pins.pwrgdLowAt + 100000000 ≤ s.now) :
    pwrgdRise s = { s with
      pins := { s.pins with pwrgd := true, pwrgdHighAt := s.now, thermtripN := true }, saf := { s.saf with tripped := false } } := by
  simp [pwrgdRise, ms, hsaf, hpwr, htrip, hlong]
/-- A shorter low leaves it. -/
theorem pwrgdRise_leaves (hsaf : s.pins.vddSaf = true) (hpwr : s.pins.pwrgd = false) (hshort : s.now < s.pins.pwrgdLowAt + 100000000) :
    pwrgdRise s = { s with pins := { s.pins with pwrgd := true, pwrgdHighAt := s.now } } := by
  simp [pwrgdRise, ms, hsaf, hpwr, Nat.not_le.mpr hshort]
theorem vddSafLoss_up (hsaf : s.pins.vddSaf = true) :
    vddSafLoss s = { resetUnits s with
      mem := { (resetUnits s).mem with bytes := [], err := [] }, saf := {}
      pins := { vddSaf := false, pwrgd := false, resetN := false, perstN := s.pins.perstN } } := by
  simp only [vddSafLoss, hsaf, Bool.not_true, Bool.false_eq_true, if_false]
  rfl
theorem powerUp_down (hsaf : s.pins.vddSaf = false) :
    powerUp s = { resetUnits s with
      saf := {}
      pins := { vddSaf := true, pwrgd := false, resetN := false, perstN := s.pins.perstN, resetLowAt := s.now, pwrgdLowAt := s.now } } := by
  simp only [powerUp, hsaf, Bool.false_eq_true, if_false]
  rfl

/-! ## The SMBus target and the PCIe reset (R507, R508) -/

theorem exec_smbusReceiveByte (hsaf : s.pins.vddSaf = true) :
    exec .smbusReceiveByte s = .next (intEval { s with out := s.out ++ [.smbus s.saf.statusByte] }) :=
  congrArg done (if_pos hsaf)
theorem exec_smbusSendByte_clear (hsaf : s.pins.vddSaf = true) :
    exec (.smbusSendByte 0xFF) s = .next (intEval { s with saf := { s.saf with statusByte := s.saf.statusByte &&& 0xF3 } }) := by
  change execSmbusSendByte 0xFF s = _
  simp only [execSmbusSendByte, done, hsaf, BEq.rfl, Bool.and_self, if_true]
theorem exec_perstNAssert_up (hup : pcieUp s = true) :
    exec .perstNAssert s = .next (intEval (ringsReset { s with pins := { s.pins with perstN := false } })) :=
  congrArg done (if_pos hup)
theorem exec_functionLevelReset_up (hup : pcieUp s = true) : exec .functionLevelReset s = .next (intEval (ringsReset s)) :=
  congrArg done (if_pos hup)

end

/-- Settles O39: each pin by the level it had, a release by whether it may take effect, and the reset by its value of every unit. -/
theorem pinEventsRun : Obligations.PinEventsRun := by
  refine ⟨fun s => ⟨fun hsaf => ⟨?fall, ?rise, exec_resetHeld_second s hsaf, ?pwrgdFall, ?pwrgdRise, exec_smbusReceiveByte s hsaf,
    exec_smbusSendByte_clear s hsaf, ?loss⟩, ?powerUp, exec_perstNAssert_up s, rfl, exec_functionLevelReset_up s⟩, fun s => rfl, fun s => ?resets⟩
  case fall =>
    rintro hhigh d rfl
    exact congrArg done (resetAssert_high s hsaf hhigh)
  case rise =>
    rintro hlow hreset p rfl a rfl
    have hrow : exec .resetNRelease s = .next (intEval (tryRelease (resetRisen s))) := congrArg done (resetRelease_low s hsaf hlow)
    exact ⟨fun hok => hrow.trans (congrArg done (tryRelease_ok (resetRisen s) hreset hok)),
      fun hno => hrow.trans (congrArg done (tryRelease_kept (resetRisen s) hreset hno))⟩
  case pwrgdFall =>
    rintro hpwr d rfl
    exact congrArg done (pwrgdFall_high s hsaf hpwr)
  case pwrgdRise =>
    intro hpwr htrip
    exact ⟨fun hlong => congrArg done (pwrgdRise_clears s hsaf hpwr htrip hlong), fun hshort => congrArg done (pwrgdRise_leaves s hsaf hpwr hshort)⟩
  case loss =>
    rintro d rfl
    exact congrArg done (vddSafLoss_up s hsaf)
  case powerUp =>
    rintro hsaf d rfl
    exact congrArg done (powerUp_down s hsaf)
  case resets =>
    exact ⟨rfl, rfl, rfl, rfl, rfl, rfl, rfl, rfl, rfl, rfl, rfl, rfl, rfl, rfl, rfl, rfl, rfl, rfl, rfl, rfl, rfl, rfl, rfl, rfl, rfl, rfl,
      resetUnits_ringOff s⟩

end Sys2Proof.Machine
end

section
/-! Quality of service: the meters, limits and weights that commands write, the service of a free memory stop, and the sampled histograms
(R141, R146, R147, R149-R152). -/
namespace Sys2Proof.Machine

/-! ## QoS commands (R146, R147, R150) -/

theorem meterSetAct_eq (t : State) (k : Nat) (y : Cmd) (h : t.cmd k = some y) :
    meterSetAct t k = settle (finish (t.setMeter (y.par 16 2)
      { unmetered := y.par 18 1 == 1, cir := y.par 20 4, pir := y.par 24 4, cbs := y.par 28 4, pbs := y.par 32 4
        tc := y.par 28 4 * 1024000, tp := y.par 32 4 * 1024000, last := t.now }) k stOK) := by simp only [meterSetAct, h]
/-- A metered meter answers with its buckets filled to now. -/
theorem meterQueryAct_metered (t : State) (k : Nat) (y : Cmd) (h : t.cmd k = some y) (hmet : (t.meter (y.par 16 2)).unmetered = false) :
    meterQueryAct t k =
      let m := t.meter (y.par 16 2)
      let b := m.fill t.now
      settle (finish t k stOK 0 (b.tc / 1000 % 2 ^ 32 + 2 ^ 32 * (b.tp / 1000 % 2 ^ 32) + 2 ^ 64 * m.red + 2 ^ 96 * m.yellow) []
        (m.red = 2 ^ 32 - 1 || m.yellow = 2 ^ 32 - 1)) := by
  simp only [meterQueryAct, h, hmet, Bool.false_eq_true, if_false]
theorem channelSetAct_eq (t : State) (k : Nat) (y : Cmd) (h : t.cmd k = some y) :
    channelSetAct t k = settle (finish
      (if y.par 16 1 = 0 then t.setRing (y.par 20 4) { t.ring (y.par 20 4) with prioMax := y.par 17 1 }
       else t.setChan (.rank (y.par 20 4)) { t.chan (.rank (y.par 20 4)) with prioMax := y.par 17 1, creditMax := y.par 18 1 }) k stOK) := by
  simp only [channelSetAct, h]
theorem tcWeightsAct_eq (t : State) (k : Nat) (y : Cmd) (h : t.cmd k = some y) :
    tcWeightsAct t k = settle (finish { t with qos := { t.qos with
      weights := [y.par 16 1, y.par 17 1, y.par 18 1, y.par 19 1, y.par 20 1] } } k stOK) := by
  simp only [tcWeightsAct, h]
  rfl

/-! ## A free memory stop (R141) -/

theorem exec_schedSelect_stop (s : State) (pt : Nat) (hpt : pt < 80) : exec (.schedSelect pt) s = .next (intEval (stopSelect s pt)) :=
  (onInst_next _ _ (decide_eq_true (by omega))).trans (by rw [if_pos hpt])

section
variable (s : State) (pt : Nat) (i : QItem)

theorem stopSelect_idle (h : stopNext s (stopNow s pt) = none) : stopSelect s pt = s := by simp only [stopSelect, h]
/-- A hardware opcode that waits at the stop runs. -/
theorem stopSelect_cmd (k : Nat) (c : Cmd) (h : stopNext s (stopNow s pt) = some i) (hwork : i.work = .cmd k) (hc : s.cmd k = some c)
    (hst : c.st = .queued) :
    stopSelect s pt = memService ((s.setPoint pt ((stopNow s pt).take i)).setCmd k { c with st := .running }) k := by
  have hslot : (s.setPoint pt ((stopNow s pt).take i)).cmd k = some c := hc
  simp only [stopSelect, h, hwork, hslot, hst, BEq.rfl, if_true]
theorem stopSelect_burst (n : Nat) (l : List ChReq) (h : stopNext s (stopNow s pt) = some i) (hwork : i.work = .burst n l) :
    stopSelect s pt = pushLines (s.setPoint pt ((stopNow s pt).take i)) l := by simp only [stopSelect, h, hwork]
theorem stopSelect_coh (code : Nat) (m : CohMsg) (h : stopNext s (stopNow s pt) = some i) (hwork : i.work = .coh code m) :
    stopSelect s pt = cohGo (s.setPoint pt ((stopNow s pt).take i)) code m (m.token != 0) := by simp only [stopSelect, h, hwork]

end

/-! ## Samples and histograms (R149-R152) -/

/-- The sample of one period: each of the 760 queues counts in its bins (R149). -/
theorem exec_queueSample_due (s : State) (hen : s.qos.histEn = true) (hdue : s.qos.ticks < s.now / 1000) :
    exec .queueSample s = .next (intEval
      (let t := (List.range 760).foldl sampleQueue s
       { t with qos := { t.qos with samples := satAdd 32 t.qos.samples 1, ticks := t.now / 1000 } })) := by
  have hsample : (s.qos.histEn && decide (s.qos.ticks < s.now / 1000)) = true := by simp [hen, hdue]
  exact congrArg done (if_pos hsample)
/-- Without HIST_EN, or in a period that has its sample, nothing is counted. -/
theorem exec_queueSample_skips (s : State) (h : s.qos.histEn = false ∨ s.now / 1000 ≤ s.qos.ticks) :
    exec .queueSample s = .next (intEval s) := by
  have hskip : ¬ (s.qos.histEn && decide (s.qos.ticks < s.now / 1000)) = true := by
    obtain hoff | hdone := h
    · simp [hoff]
    · simp [Nat.not_lt.mpr hdone]
  exact congrArg done (if_neg hskip)

/-- A write of `QOS_HIST_SEL` that names a queue with SNAP selects it and copies its bins. -/
theorem histSel_snap (s : State) (v : Nat) (hq : v % 1024 ≤ 759) (hsnap : bitOf v 31 = true) :
    histSel s v = { s with qos := { s.qos with
      sel := v % 1024, snapValid := false, snapBusy := true
      snapDepth := (List.range 16).map fun i => tabGet 0 s.qos.bins (32 * (v % 1024) + i)
      snapDelay := (List.range 16).map fun i => tabGet 0 s.qos.bins (32 * (v % 1024) + 16 + i) } } := by
  simp only [histSel, if_pos hq, hsnap, if_true, Nat.add_zero]
theorem exec_histSnapshotDone_busy (s : State) (h : s.qos.snapBusy = true) :
    exec .histSnapshotDone s = .next (intEval { s with qos := { s.qos with snapValid := true, snapBusy := false } }) :=
  congrArg done (if_pos h)
theorem qosCfg_clear (s : State) (v : Nat) (hclear : bitOf v 1 = true) :
    qosCfg s v = { s with qos := { s.qos with histEn := bitOf v 0, bins := [], samples := 0 } } := if_pos hclear

theorem onBar_open (s t : State) (w : Nat) (h : barWrite s w = true) : onBar s w t = t := if_pos h

/-- Settles O11: each command by its act, a stop by the work of the item it serves, and the histograms by what a sample or a write meets. -/
theorem qosRun : Obligations.QosRun := by
  refine ⟨fun c => ⟨?meterSet, ?meterQuery, ?channelSet, ?weights⟩, fun s pt i v =>
    ⟨?served, ?idle, exec_queueSample_due s, exec_queueSample_skips s, ?snap, exec_histSnapshotDone_busy s, ?clear⟩⟩
  case meterSet =>
    exact actsAs_row fun t k y h _ _ _ => meterSetAct_eq t k y h
  case meterQuery =>
    exact actsAs_row fun t k y h _ _ hmet => meterQueryAct_metered t k y h hmet
  case channelSet =>
    exact actsAs_row fun t k y h _ _ _ => channelSetAct_eq t k y h
  case weights =>
    exact actsAs_row fun t k y h _ _ _ => tcWeightsAct_eq t k y h
  case served =>
    intro hpt hnext
    rw [exec_schedSelect_stop s pt hpt]
    refine ⟨fun k c hwork hc hst => ?cmd, fun n l hwork => ?burst, fun code m hwork => ?coh⟩
    case cmd => rw [stopSelect_cmd s pt i k c hnext hwork hc hst]
    case burst => rw [stopSelect_burst s pt i n l hnext hwork]
    case coh => rw [stopSelect_coh s pt i code m hnext hwork]
  case idle =>
    intro hpt hnone
    rw [exec_schedSelect_stop s pt hpt, stopSelect_idle s pt hnone]
  case snap =>
    intro hopen hq hsnap
    exact congrArg done ((onBar_open _ _ _ hopen).trans (histSel_snap s v.toNat hq hsnap))
  case clear =>
    intro hopen hclear
    exact congrArg done ((onBar_open _ _ _ hopen).trans (qosCfg_clear s v.toNat hclear))

end Sys2Proof.Machine
end

section
/-! Tile instructions that move PC, loop counters, scalars and scratch (R155, R157, R160, R162, R178). -/
namespace Sys2Proof.Machine

/-! ## How a row of the table stands in its tile (R160) -/

/-- A row that is the issue of an instruction with effect `f`. -/
theorem tileDoes_row {mk : Nat → TI → Instr} {op : Nat} {f : State → Nat → TI → State}
    (h : ∀ s n i, exec (mk n i) s = issue n op i (fun s => f s n i) s := by exact fun _ _ _ => rfl) : tileDoes mk op f :=
  tileDoes_of mk op f h
/-- A row that changes its tile alone, by `g`. -/
theorem tileSets_row {mk : Nat → TI → Instr} {op : Nat} {g : TI → Tile → Tile}
    (h : ∀ s n i, exec (mk n i) s = issueReg n op i (g i) s := by exact fun _ _ _ => rfl) : tileSets mk op g := tileDoes_of mk op _ h

/-- The instruction that a tile issues does what the effect of its row comes to. -/
theorem exec_of_tileDoes {mk : Nat → TI → Instr} {op : Nat} {f : State → Nat → TI → State} (hdoes : tileDoes mk op f) {s t : State}
    {n : Nat} {i : TI} (hn : n < 10240) (hi : issues s n op i = true) (hf : f s n i = t) : exec (mk n i) s = .next (intEval t) := by
  rw [(hdoes s n i hn).1 hi, hf]

/-! ## Operands -/

/-- IMM modulo a power of two is a field of its low bits. -/
theorem imm_mod (i : TI) (hi m : Nat) (h : m = 2 ^ (hi + 1) := by rfl) : i.imm.toNat % m = immBits i hi 0 := by simp [immBits, field, h]

/-- The conditions of BCC (R160). -/
theorem bccHolds_iff (cond : Nat) (x y : W64) : bccHolds cond x y = true ↔
    (cond = 0 ∧ x = y) ∨ (cond = 1 ∧ x ≠ y) ∨ (cond = 2 ∧ x < y) ∨ (cond = 3 ∧ y ≤ x) ∨ (cond = 4 ∧ x.toInt < y.toInt)
      ∨ (5 ≤ cond ∧ y.toInt ≤ x.toInt) := by
  match cond with
  | 0 => simp [bccHolds]
  | 1 => simp [bccHolds]
  | 2 => simp [bccHolds, BitVec.ult, BitVec.lt_def]
  | 3 => simp [bccHolds, BitVec.ult, BitVec.le_def]
  | 4 => simp [bccHolds, BitVec.slt]
  | n + 5 => simp [bccHolds, BitVec.slt]

/-! ## Control and scalars (R157, R160) -/

/-- Settles O24: each row is the issue of its effect, with the fields of IMM read as numbers. -/
theorem controlAndScalarInstructions : Obligations.ControlAndScalarInstructions := by
  refine ⟨tileSets_row, tileDoes_row, tileDoes_row ?bcc, tileSets_row, tileSets_row, tileDoes_row, tileSets_row, tileSets_row, tileSets_row,
    tileSets_row, tileSets_row, tileSets_row, tileSets_row, ?shl, ?shr, ?sra, tileSets_row, tileSets_row, tileDoes_row ?gets,
    tileDoes_row ?trap⟩
  case bcc =>
    intro s n i
    simp only [← bccHolds_iff]
    rfl
  case shl | shr | sra =>
    refine tileSets_row fun s n i => ?_
    rw [imm_mod i 5 64]
    rfl
  case gets =>
    intro s n i
    rw [imm_mod i 3 16]
    rfl
  case trap =>
    intro s n i
    rw [imm_mod i 15 65536]
    rfl

/-! ## Scratch accesses (R155, R162, R178) -/

section
variable (s : State) (n : Nat) (i : TI) (w o : Nat)

theorem scratchLoad_moves (put : Tile → Nat → Tile) (ha : scratchAddr (s.tile n) i w = some o)
    (hgood : scratchBad (s.tile n) ((s.tile n).scrAt + o) w = false) :
    scratchLoad n i w put s = (mendScratch s n ((s.tile n).scrAt + o) w).setTile n
      (put ((mendScratch s n ((s.tile n).scrAt + o) w).tile n) (scratchGet (s.tile n) o w)).next := by
  simp only [scratchLoad, ha, hgood, Bool.false_eq_true, if_false]
theorem scratchLoad_misplaced (put : Tile → Nat → Tile) (ha : scratchAddr (s.tile n) i w = none) :
    scratchLoad n i w put s = settle (trapTile s n 2 0) := by simp only [scratchLoad, ha]
theorem scratchLoad_uncorrectable (put : Tile → Nat → Tile) (ha : scratchAddr (s.tile n) i w = some o)
    (hbad : scratchBad (s.tile n) ((s.tile n).scrAt + o) w = true) :
    scratchLoad n i w put s = settle (trapTile s n 4 0 (BitVec.ofNat 64 o)) := by simp only [scratchLoad, ha, hbad, if_true]
theorem scratchStore_moves (get : Tile → Nat) (ha : scratchAddr (s.tile n) i w = some o) :
    scratchStore n i w get s = s.setTile n (scratchPut (s.tile n) o w (get (s.tile n))).next := by simp only [scratchStore, ha]
theorem scratchStore_misplaced (get : Tile → Nat) (ha : scratchAddr (s.tile n) i w = none) :
    scratchStore n i w get s = settle (trapTile s n 2 0) := by simp only [scratchStore, ha]

/-- Where no word that an access reads has a single-bit error there is nothing to mend. -/
theorem mendScratch_clean (h : scratchSingles (s.tile n) o w = []) : mendScratch s n o w = s := by rw [mendScratch, h, List.foldl_nil]

end

/-- Which scratch accesses are in order (R162). -/
theorem scratchAddr_eq_some_iff (t : Tile) (i : TI) (w o : Nat) : scratchAddr t i w = some o ↔
    o = ((t.S i.a).toNat + i.imm.toNat % 65536) % 2 ^ 64 ∧ w ∣ o ∧ o + w ≤ t.seg.2.2.2.2 * 1024 := by
  have hadmits (a : Nat) : (a % w = 0 && decide (a + w ≤ t.scrLen)) = true ↔ w ∣ a ∧ a + w ≤ t.seg.2.2.2.2 * 1024 := by
    rw [Bool.and_eq_true, decide_eq_true_iff, decide_eq_true_iff, Nat.dvd_iff_mod_eq_zero, Tile.scrLen]
  rw [imm_mod i 15 65536]
  simp only [scratchAddr, Option.ite_none_right_eq_some, hadmits, Option.some.injEq]
  constructor
  · rintro ⟨hspan, rfl⟩
    exact ⟨rfl, hspan⟩
  · rintro ⟨rfl, hspan⟩
    exact ⟨hspan, rfl⟩

theorem vld_loads : tileDoes .vld 0x20 fun s n i => scratchLoad n i 64 (fun t x => t.setV i.d (BitVec.ofNat 512 x)) s := tileDoes_row
theorem ald_loads : tileDoes .ald 0x22 fun s n i => scratchLoad n i 64 (fun t x => t.setA i.d (BitVec.ofNat 512 x)) s := tileDoes_row
theorem sld_loads : tileDoes .sld 0x24 fun s n i => scratchLoad n i 8 (fun t x => t.setS i.d (BitVec.ofNat 64 x)) s := tileDoes_row
theorem vst_stores : tileDoes .vst 0x21 fun s n i => scratchStore n i 64 (fun t => (t.V i.d).toNat) s := tileDoes_row
theorem ast_stores : tileDoes .ast 0x23 fun s n i => scratchStore n i 64 (fun t => (t.A i.d).toNat) s := tileDoes_row
theorem sst_stores : tileDoes .sst 0x25 fun s n i => scratchStore n i 8 (fun t => (t.S i.d).toNat) s := tileDoes_row

/-- Settles O25: each load and store by its address and the words that it reads. -/
theorem scratchInstructions : Obligations.ScratchInstructions := by
  refine ⟨fun s n o i hn => ⟨?vectorLoads, ?vectorStores, ?scalarLoad, ?scalarStore, ?misplaced, ?uncorrectable⟩,
    fun s n a w => mendScratch_clean s n w a, fun t i w o _ => scratchAddr_eq_some_iff t i w o⟩
  case vectorLoads =>
    intro ha hgood
    exact ⟨fun hi => exec_of_tileDoes vld_loads hn hi (scratchLoad_moves s n i 64 o _ ha hgood),
      fun hi => exec_of_tileDoes ald_loads hn hi (scratchLoad_moves s n i 64 o _ ha hgood)⟩
  case vectorStores =>
    intro ha
    exact ⟨fun hi => exec_of_tileDoes vst_stores hn hi (scratchStore_moves s n i 64 o _ ha),
      fun hi => exec_of_tileDoes ast_stores hn hi (scratchStore_moves s n i 64 o _ ha)⟩
  case scalarLoad =>
    intro ha hgood _ hi
    exact exec_of_tileDoes sld_loads hn hi (scratchLoad_moves s n i 8 o _ ha hgood)
  case scalarStore =>
    intro ha hi
    exact exec_of_tileDoes sst_stores hn hi (scratchStore_moves s n i 8 o _ ha)
  case misplaced =>
    intro ha
    exact ⟨fun hi => exec_of_tileDoes vld_loads hn hi (scratchLoad_misplaced s n i 64 _ ha),
      fun hi => exec_of_tileDoes vst_stores hn hi (scratchStore_misplaced s n i 64 _ ha)⟩
  case uncorrectable =>
    intro ha hbad hi
    exact exec_of_tileDoes vld_loads hn hi (scratchLoad_uncorrectable s n i 64 o _ ha hbad)

end Sys2Proof.Machine
end

section
/-! Tile instructions of the matrix array, of conversion and of vectors (R159, R160, R163-R168, R219, R220, R225). -/
namespace Sys2Proof.Machine

/-! ## Elements of a register (R156, R159) -/

/-- Two registers element by element. -/
theorem zipWith_elems {α : Type} (w : Nat) (f : Nat → Nat → α) (x y : Nat) : List.zipWith f (elems w x) (elems w y) =
    (List.range (512 / w)).map fun k => f (x / 2 ^ (w * k) % 2 ^ w) (y / 2 ^ (w * k) % 2 ^ w) := by
  rw [elems, elems, List.zipWith_map, List.zipWith_self]
theorem elems_getD (w x k : Nat) (h : k < 512 / w) : (elems w x).getD k 0 = x / 2 ^ (w * k) % 2 ^ w := by
  rw [elems, List.getD_eq_getElem?_getD, List.getElem?_map, List.getElem?_range h, Option.map_some, Option.getD_some]
/-- The bytes of a register. -/
theorem elems_byte (x : Nat) : elems 8 x = (List.range 64).map fun k => x / 256 ^ k % 256 :=
  List.map_congr_left fun k _ => congrArg (x / · % 256) (Nat.pow_mul 2 8 k)
/-- Element k of an accumulator tile in the order of its register. -/
theorem accElem_index (x : W512) (k : Nat) : accElem x (k / 4) (k % 4) = x.toNat / 2 ^ (32 * k) % 2 ^ 32 := by
  rw [accElem, Nat.div_add_mod]

/-! ## The matrix array (R163, R164, R216, R225) -/

theorem mma_does : tileDoes .mma 0x40 fun s n i => match mmaCheck s (s.tile n) i with
    | none => s.setTile n { ((s.tile n).setA i.d (mmaTile (s.tile n) i)).next with mmas := (s.tile n).mmas + 1 }
    | some p => settle (trapTile (cluMac s (cluOf n)) n 0x0A 0 0 p) := by
  refine tileDoes_row fun s n i => ?_
  change execMma n i s = _
  refine congrArg (issue n 0x40 i · s) (funext fun u => ?_)
  dsimp only
  cases mmaCheck u (u.tile n) i <;> rfl

theorem aadd_sets : tileSets .aadd 0x42 fun i t => t.setA i.d (vecOf 32 ((List.range 16).map fun k =>
    let x := (t.A i.a).toNat / 2 ^ (32 * k) % 2 ^ 32
    let y := (t.A i.b).toNat / 2 ^ (32 * k) % 2 ^ 32
    if i.fmt = 8 then (x + y) % 2 ^ 32 else f32Add x y)) := by
  refine tileSets_row fun s n i => ?_
  change execAadd n i s = _
  simp only [execAadd, zipWith_elems]

theorem amulv_sets : tileSets .amulv 0x43 fun i t => t.setA i.d (vecOf 32 ((List.range 16).map fun k =>
    f32Mul (f32Mul ((t.A i.a).toNat / 2 ^ (32 * k) % 2 ^ 32) ((t.V i.b).toNat / 2 ^ (32 * (k / 4)) % 2 ^ 32))
      ((t.V i.b).toNat / 2 ^ (32 * (4 + k % 4)) % 2 ^ 32))) := by
  refine tileSets_row fun s n i => ?_
  change execAmulv n i s = _
  refine congrArg (issueReg n 0x43 i · s) (funext fun t => ?_)
  refine congrArg (fun l => t.setA i.d (vecOf 32 l)) ((List.map_map ..).trans (List.map_congr_left fun k hk => ?_))
  have hk16 : k < 16 := List.mem_range.mp hk
  simp only [Function.comp_apply, accElem_index]
  rw [elems_getD 32 _ (k / 4) (by omega), elems_getD 32 _ (4 + k % 4) (by omega)]

theorem exec_macCheck (s : State) (n : Nat) (b : Bool) (hn : n < 10240) (hact : (s.tile n).st.active = true)
    (hrun : (s.tile n).run.isSome = true) :
    exec (.macCheck n b) s = .next (intEval (settle (trapTile (cluMac s (cluOf n)) n 0x0A 0 0 (if b then 5 else 4)))) := by
  have hruns : ((s.tile n).st.active && (s.tile n).run.isSome) = true := by rw [hact, hrun, Bool.and_self]
  exact (onInst_next _ _ (decide_eq_true hn)).trans (congrArg (Host.Outcome.next ∘ intEval) (if_pos hruns))

/-- Settles O26: each row is the issue of its effect, element by element. -/
theorem matrixAndConversionInstructions : Obligations.MatrixAndConversionInstructions := by
  refine ⟨⟨mma_does, tileSets_row, aadd_sets, amulv_sets, tileSets_row, tileSets_row, exec_macCheck⟩, ⟨tileSets_row, tileSets_row⟩,
    tileSets_row, tileSets_row, ?scale, tileSets_row, tileSets_row, tileSets_row, tileSets_row, tileSets_row⟩
  refine tileSets_row fun s n i => ?_
  rw [imm_mod i 0 2]
  rfl

/-! ## Vectors (R160, R168) -/

theorem vsel_sets : tileSets .vsel 0x61 fun i t => t.setV i.d (vecOf 8 ((List.range 64).map fun k =>
    if (t.V i.c).toNat / 256 ^ k % 256 = 0 then (t.V i.b).toNat / 256 ^ k % 256 else (t.V i.a).toNat / 256 ^ k % 256)) := by
  refine tileSets_row fun s n i => ?_
  change execVsel n i s = _
  simp only [execVsel, elems_byte, List.zip_map', List.zipWith_map, List.zipWith_self]

/-- Settles O27: each row is the issue of its effect, element by element. -/
theorem vectorInstructions : Obligations.VectorInstructions := by
  refine ⟨?vcmp, vsel_sets, tileSets_row, tileSets_row, tileSets_row, tileSets_row, tileSets_row, ?vred, ?arow⟩
  case vcmp =>
    refine tileSets_row fun s n i => ?_
    rw [imm_mod i 2 8]
    rfl
  case vred | arow =>
    refine tileSets_row fun s n i => ?_
    rw [imm_mod i 1 4]
    rfl

end Sys2Proof.Machine
end

section
/-! Tile instructions of the stream engines and of synchronisation (R169-R176). -/
namespace Sys2Proof.Machine

/-! ## Transfers (R169) -/

/-- The tile after its instruction has queued a transfer in the engine that it names. -/
def withXfer (t : Tile) (i : TI) (x : Xfer) : Tile :=
  let e := immBits i 8 8 == 1
  (t.setEng e { t.eng e with queue := (t.eng e).queue ++ [x] }).next

section
variable (s : State) (n : Nat) (i : TI) (load : Bool) (x : Xfer)

theorem queueXfer_queues (hx : xferOf (s.tile n) i load = some x) (hroom : ((s.tile n).eng (immBits i 8 8 == 1)).queue.length < 8) :
    queueXfer n i load s = s.setTile n (withXfer (s.tile n) i x) := by
  simp only [queueXfer, hx, Nat.not_le.mpr hroom, if_false, withXfer]
/-- With eight transfers queued the instruction stalls: it does nothing, and the tile issues it again. -/
theorem queueXfer_stalls (hx : xferOf (s.tile n) i load = some x) (hfull : 8 ≤ ((s.tile n).eng (immBits i 8 8 == 1)).queue.length) :
    queueXfer n i load s = s := by simp only [queueXfer, hx, hfull, if_true]
theorem queueXfer_badOperands (hx : xferOf (s.tile n) i load = none) : queueXfer n i load s = settle (trapTile s n 2 0) := by
  simp only [queueXfer, hx]

end

theorem dld_queues : tileDoes .dld 0x30 fun s n i => queueXfer n i true s := tileDoes_row
theorem dst_queues : tileDoes .dst 0x31 fun s n i => queueXfer n i false s := tileDoes_row

/-! ## Synchronisation objects (R174) -/

theorem exec_ssig_issues {s : State} {n k : Nat} {c : Cmd} {i : TI} (hn : n < 10240) (hrun : runOf s n = some (k, c))
    (hi : issues s n 0x79 i = true) :
    exec (.ssig n i) s = .next (intEval (postUpd (s.setTile n (s.tile n).next) (c.runSync (i.imm.toNat % 16))
      (.signal (if immBits i 5 5 = 1 then (s.tile n).S i.a else 1)))) := by
  change execSsig n i s = _
  rw [execSsig, issue_next n 0x79 i _ s hn hi, imm_mod i 3 16]
  simp only [hrun]
theorem exec_sread_issues {s : State} {n k : Nat} {c : Cmd} {i : TI} (hn : n < 10240) (hrun : runOf s n = some (k, c))
    (hi : issues s n 0x7A i = true) :
    exec (.sread n i) s = .next (intEval
      (s.setTile n ((s.tile n).setS i.d (s.obj (c.runSync (i.imm.toNat % 16))).count).next)) := by
  change execSread n i s = _
  rw [execSread, issue_next n 0x7A i _ s hn hi, imm_mod i 3 16]
  simp only [hrun]

/-- Settles O28: a transfer by its operands and the room in its engine, and the others as the issue of their effect. -/
theorem streamInstructions : Obligations.StreamInstructions := by
  refine ⟨fun s n i x hn => ⟨?load, ?store, ?stall, ?bad⟩, tileDoes_row, tileDoes_row, tileDoes_row ?dwait, tileDoes_row ?swait,
    fun s n k c i hn hrun => ⟨exec_ssig_issues hn hrun, exec_sread_issues hn hrun⟩⟩
  case load =>
    intro hx hroom hi
    exact exec_of_tileDoes dld_queues hn hi (queueXfer_queues s n i true x hx hroom)
  case store =>
    intro hx hroom hi
    exact exec_of_tileDoes dst_queues hn hi (queueXfer_queues s n i false x hx hroom)
  case stall =>
    intro hx hfull hi
    exact exec_of_tileDoes dld_queues hn hi (queueXfer_stalls s n i true x hx hfull)
  case bad =>
    intro hx hi
    exact exec_of_tileDoes dld_queues hn hi (queueXfer_badOperands s n i true hx)
  case dwait | swait =>
    intro s n i
    rw [imm_mod i 3 16]
    rfl

end Sys2Proof.Machine
end

section
/-! Programs of the tiles: their commands (R183, R191, R192) and the start of a run (R187, R190, R471). -/
namespace Sys2Proof.Machine

/-! ## Commands on programs (R183, R191, R192) -/

/-- The program that an image makes for its host on the tiles that it is placed on. -/
def progOf (host : Nat) (img : List Byte) (tiles : List Nat) : Prog :=
  { host := host, image := img, codeN := leAt img 8 2, scrKib := leAt img 10 2, initLen := leAt img 12 2, syncN := leAt img 14 2
    maxCyc := leAt img 16 8, restart := leAt img 6 2 == 1, tiles := tiles }
/-- The part with the image loaded on the places `l`, as the program of handle `h`. -/
def withProg (host : Nat) (img : List Byte) (l : List (Nat × Nat × Nat)) (h : Nat) (s : State) : State :=
  let v := l.foldl (loadTile h (leAt img 8 2) (leAt img 10 2) (imageCode img (leAt img 8 2))) s
  { v with churn := { v.churn with progs := tabIns v.churn.progs h (progOf host img (l.map (·.1))) } }

theorem progLoadAct_loads (t u : State) (k : Nat) (y : Cmd) (img : List Byte) (l : List (Nat × Nat × Nat)) (h : t.cmd k = some y)
    (hread : readGran t y.host (y.par 16 8) (y.par 24 4) = (.ok img, u)) (hok : imageOk img = true)
    (hplace : placeTiles u (y.par 28 2) (y.par 30 1) (leAt img 8 2) (leAt img 10 2) = some l) (hfree : tabGap u.churn.progs 1 ≤ 4095)
    (hroom : ((l.map fun e => tilePart e.1).eraseDups.any fun p => decide (2 ^ 24 < progStore u p + img.length)) = false)
    (hpower : powerFits u (y.par 28 2 * tilePower 0) = true) :
    progLoadAct t k = settle (finish (withProg y.host img l (tabGap u.churn.progs 1) u) k stOK 0 (tabGap u.churn.progs 1 + 2 ^ 32 * l.length)) := by
  have hfits : (decide (4095 < tabGap u.churn.progs 1)
      || (l.map fun e => tilePart e.1).eraseDups.any fun p => decide (2 ^ 24 < progStore u p + img.length)) = false := by
    rw [decide_eq_false (Nat.not_lt.mpr hfree), hroom, Bool.or_self]
  simp only [progLoadAct, h, hread, hok, hplace, hfits, hpower, Bool.not_true, Bool.false_eq_true, if_false]
  rfl
theorem progUnloadAct_closes (t : State) (k : Nat) (y : Cmd) (p : Prog) (h : t.cmd k = some y) (hp : t.prog (y.par 16 2) = some p)
    (hopen : p.unload = none) :
    progUnloadAct t k = tellAccepted (settle (State.setCmd { t with churn := { t.churn with
      progs := tabIns t.churn.progs (y.par 16 2) { p with state := 2, unload := some k } } } k { y with st := .finishing })) k := by
  simp [progUnloadAct, h, hp, hopen]
theorem progQueryAct_eq (t : State) (k : Nat) (y : Cmd) (p : Prog) (h : t.cmd k = some y) (hp : t.prog (y.par 16 2) = some p) :
    progQueryAct t k = settle (finish t k stOK 0 (p.state + 2 ^ 32 * p.tiles.length + 2 ^ 64 * runsOf t (y.par 16 2))) := by
  simp only [progQueryAct, h, hp]

/-- Settles O12: each command by its act on the programs. -/
theorem programCommandsRun : Obligations.ProgramCommandsRun := by
  intro c
  refine ⟨fun img u l => ?load, fun p => ?unload, fun p => ?query⟩
  case load =>
    refine actsAs_row fun t k y h _ _ hfits => ?_
    obtain ⟨hread, hok, hplace, hfree, hroom, hpower⟩ := hfits
    exact progLoadAct_loads t u k y img l h hread hok hplace hfree hroom hpower
  case unload =>
    exact actsAs_row fun t k y h _ _ ⟨hp, hopen⟩ => progUnloadAct_closes t k y p h hp hopen
  case query =>
    exact actsAs_row fun t k y h _ _ hp => progQueryAct_eq t k y p h hp

/-! ## The start of a run (R187, R190, R470, R471) -/

/-- The energy that a run of the program may use, in mJ (R471). -/
def runEnergy (p : Prog) : Nat := p.tiles.length * tilePower 0 * (p.maxCyc / 600) / 1000000000

/-- The part with the run of slot `k` begun on the tiles of its program, at its power floor (R187, R470). -/
def runBegun (s : State) (k : Nat) (c : Cmd) (p : Prog) : State :=
  let t := (p.tiles.zip (List.range p.tiles.length)).foldl (startTile k p c.runHandle c.progress)
    (s.setCmd k { c with st := .running, started := true, startedAt := s.now, opState := c.progress })
  let u := ((p.tiles.map cluOf).eraseDups).foldl cluRun t
  setLevels { u with pwr := { u.pwr with runLvl := tabSet 0 u.pwr.runLvl k 0 } }

/-- A run that is ready or pre-empted: its partition went offline, it waits, its tiles are taken, its energy does not fit, or it begins. -/
theorem runStart_eq (s : State) (k : Nat) (c : Cmd) (p : Prog) (hc : s.cmd k = some c) (hop : opcodeOf c.raw = 0x0381)
    (hst : c.st = .ready ∨ c.st = .preempted) (hp : s.prog c.runHandle = some p) :
    runStart s k =
      if p.state = 3 then settle (finish s k stOFFLINE c.progress)
      else if (s.pwr.hold || !ctlServes s p.tiles || earlierRun s k c p.tiles) = true then s
      else if p.tiles.any (tileTaken s) = true then preemptRuns s c p.tiles
      else if (!c.started && !energyFits s (runEnergy p)) = true then settle (finish (energyRefused s) k stENERGY)
      else runBegun s k c p := by
  have hstarts : (opcodeOf c.raw != 0x0381 || !(c.st == .ready || c.st == .preempted)) = false := by
    obtain hready | hpreempted := hst
    · simp [hop, hready]
    · simp [hop, hpreempted]
  simp only [runStart, hc, hstarts, hp, Bool.false_eq_true, if_false]
  rfl

/-- Settles O30: RUN_START by the branch of `runStart` that the run meets. -/
theorem runsStart : Obligations.RunsStart := by
  intro s k c p hc hop hst hp
  have hrow : exec (.runStart k) s = .next (intEval (runStart s k)) := rfl
  rw [hrow, runStart_eq s k c p hc hop hst hp]
  refine ⟨fun hoff => ?offline, fun hon hhold => ?held, fun hon hhold hserves hfirst => ?goes⟩
  case offline => rw [if_pos hoff]
  case held => rw [if_neg hon, if_pos (by rw [hhold, Bool.true_or, Bool.true_or])]
  case goes =>
    have hgoes : (s.pwr.hold || !ctlServes s p.tiles || earlierRun s k c p.tiles) = false := by rw [hhold, hserves, hfirst]; rfl
    rw [if_neg hon, if_neg (ne_true_of_eq_false hgoes)]
    refine ⟨fun htaken => by rw [if_pos htaken], fun hfree => ?free⟩
    rw [if_neg (ne_true_of_eq_false hfree)]
    refine ⟨fun hfits => ?begun, fun hnew hshort => ?refused⟩
    case begun =>
      have henergy : (!c.started && !energyFits s (runEnergy p)) = false := by
        obtain hstarted | hfits := hfits
        · rw [hstarted]; rfl
        · rw [runEnergy, hfits, Bool.not_true, Bool.and_false]
      rw [if_neg (ne_true_of_eq_false henergy)]
      rfl
    case refused =>
      have henergy : (!c.started && !energyFits s (runEnergy p)) = true := by rw [runEnergy, hnew, hshort]; rfl
      rw [if_pos henergy]

end Sys2Proof.Machine
end

section
/-! The commands of synchronisation objects (R229, R232). -/
namespace Sys2Proof.Machine

/-! ## The update that a command sends (R229) -/

theorem updOf_config (y : Cmd) (hop : opcodeOf y.raw = 0x0600) :
    updOf y = .config (BitVec.ofNat 32 (srcOf y.raw)) (BitVec.ofNat 32 (tagOf y.raw)) (y.par 18 2) (bitOf (y.par 20 1) 0) (bitOf (y.par 20 1) 1)
      (BitVec.ofNat 64 (y.par 24 8)) (BitVec.ofNat 32 (y.par 32 4)) := by simp only [updOf, hop]
theorem updOf_set (y : Cmd) (hop : opcodeOf y.raw = 0x0602) :
    updOf y = .set (BitVec.ofNat 32 (srcOf y.raw)) (BitVec.ofNat 32 (tagOf y.raw)) (bitOf (y.par 18 1) 0) (bitOf (y.par 18 1) 1)
      (BitVec.ofNat 64 (y.par 24 8)) (BitVec.ofNat 32 (y.par 32 4)) := by simp only [updOf, hop]
theorem updOf_add (y : Cmd) (hop : opcodeOf y.raw = 0x0603) :
    updOf y = .add (BitVec.ofNat 32 (srcOf y.raw)) (BitVec.ofNat 32 (tagOf y.raw)) (BitVec.ofNat 64 (y.par 24 8)) := by simp only [updOf, hop]
theorem updOf_release (y : Cmd) (hop : opcodeOf y.raw = 0x0601) : updOf y = .release := by simp only [updOf, hop]

/-! ## What the commands do -/

/-- A command that changes an object sends its update and waits for it. -/
theorem syncAct_sends (t : State) (k : Nat) (y : Cmd) (u : SyncUpd) (h : t.cmd k = some y) (hupd : updOf y = u) :
    syncAct t k = postUpd (t.setCmd k { y with st := .finishing }) (y.par 16 2) u := by simp only [syncAct, h, hupd]
theorem syncReadAct_eq (t : State) (k : Nat) (y : Cmd) (h : t.cmd k = some y) :
    syncReadAct t k = settle (finish t k stOK 0 ((t.obj (y.par 16 2)).count.toNat + 2 ^ 64 * (t.obj (y.par 16 2)).thr.toNat
      + 2 ^ 96 * (flag (t.obj (y.par 16 2)).err 0 + flag (t.obj (y.par 16 2)).sat 1) + 2 ^ 104 * (t.obj (y.par 16 2)).errCnt) []
      ((t.obj (y.par 16 2)).sat || (t.obj (y.par 16 2)).errCnt == 255)) := by simp only [syncReadAct, h]

/-- Settles O8: each command by the update that its opcode sends, and SYNC_READ by the object that it reads. -/
theorem syncCommandsRun : Obligations.SyncCommandsRun := by
  intro c
  refine ⟨?config, ?set, ?add, ?release, ?read⟩
  case config =>
    exact actsAs_row fun t k y h hop _ _ => syncAct_sends t k y _ h (updOf_config y hop)
  case set =>
    exact actsAs_row fun t k y h hop _ _ => syncAct_sends t k y _ h (updOf_set y hop)
  case add =>
    exact actsAs_row fun t k y h hop _ _ => syncAct_sends t k y _ h (updOf_add y hop)
  case release =>
    exact actsAs_row fun t k y h hop _ _ => syncAct_sends t k y _ h (updOf_release y hop)
  case read =>
    exact actsAs_row fun t k y h _ _ _ => syncReadAct_eq t k y h

end Sys2Proof.Machine
end

section
/-! The granules of FILL and of COPY (R238, R239). -/
namespace Sys2Proof.Machine

section
variable (s : State) (k : Nat) (c : Cmd)

/-- A granule of a FILL whose ink is written is done, and ends the operation where it is the last. -/
theorem fillStep_writes (u : State) (h : s.cmd k = some c) (hseq : c.mirSeq = 0)
    (hwrite : writeAll (accessing s) c.host (fillDst c + granOff (fillDst c) c.progress)
      ((List.range (granLen (fillDst c) (fillLen c) c.progress)).map fun i => fillByte c (granOff (fillDst c) c.progress + i)) = (.ok (), u)) :
    fillStep s k = accessed (endIfLast (granDone u k (granLen (fillDst c) (fillLen c) c.progress)) k fun _ => 0) := by
  simp only [fillStep, h, underSeq_untokened c _ s hseq, hwrite]
/-- A granule of a COPY that is read and written is done: it has moved its bytes twice. -/
theorem copyStep_writes (u v : State) (bs : List Byte) (h : s.cmd k = some c) (hseq : c.mirSeq = 0)
    (hread : readAll (accessing s) c.host (c.par 24 8 + granOff (c.par 16 8) c.progress) (granLen (c.par 16 8) (c.par 32 8) c.progress) = (.ok bs, u))
    (hwrite : writeAll u c.host (c.par 16 8 + granOff (c.par 16 8) c.progress) bs = (.ok (), v)) :
    copyStep s k = accessed (endIfLast (granDone v k (2 * granLen (c.par 16 8) (c.par 32 8) c.progress)) k fun _ => 0) := by
  simp only [copyStep, h, underSeq_untokened c _ s hseq, hread, hwrite]

/-- A granule of a running operation that has its turn: what its opcode's step does, and then what follows every granule. -/
theorem exec_granuleComplete_turn (sp : OpSpec) (f : State → Nat → State) (t : State) (h : s.cmd k = some c) (hrun : halted s = false)
    (hst : c.st = .running) (hturn : granTurn s k c = true) (hown : ownRows (opcodeOf c.raw) = false)
    (hsp : specOf (opcodeOf c.raw) = some sp) (hstep : sp.step = some f) (hf : f s k = t) :
    exec (.granuleComplete k) s = .next (intEval (advance (afterUnit c (granPace c t k) k))) := by
  rw [← hf]
  exact congrArg done (granuleComplete_turn s k c sp f h hrun (.inl hst) hown hsp hstep hturn)

end

/-- Settles O23: each operation's granule by what it reads and writes. -/
theorem fillAndCopyGranules : Obligations.FillAndCopyGranules := by
  intro s k c u v bs h hrun hst hseq hturn
  refine ⟨fun hop hwrite => ?fill, fun hop hread hwrite => ?copy⟩
  case fill =>
    exact exec_granuleComplete_turn s k c specFill fillStep _ h hrun hst hturn (by rw [hop]; rfl) (by rw [hop]; rfl) rfl
      (fillStep_writes s k c u h hseq hwrite)
  case copy =>
    exact exec_granuleComplete_turn s k c specCopy copyStep _ h hrun hst hturn (by rw [hop]; rfl) (by rw [hop]; rfl) rfl
      (copyStep_writes s k c u v bs h hseq hread hwrite)

end Sys2Proof.Machine
end

section
/-! Reduction slots: their commands (R243, R244, R251), the contributions of a step (R246), its granules (R248), its end (R247) and its
limit (R250). -/
namespace Sys2Proof.Machine

/-! ## The commands (R243, R244, R251) -/

/-- The part with the slot of number `i` opened, as a command describes it, on the places `l`. -/
def withSlot (y : Cmd) (i : Nat) (l : List (Nat × Nat × Nat)) (t : State) : State :=
  (l.foldl (loadTile (0x10000 + i) 0 0 []) t).setSlot i { slotOf y with tiles := l.map (·.1) }

/-- A slot can be opened that has a number, its tiles, its regions and its power (R244, R245). -/
theorem redOpenStop_none (t : State) (y : Cmd) (hplace : (placeTiles t (slotOf y).ntiles (y.par 14 1) 0 0).isSome = true)
    (hfree : tabGap t.work.slots 0 ≤ 255) (hregions : regionsOk t (slotOf y) = true) (hpower : powerFits t (slotPower (slotOf y)) = true) :
    redOpenStop t y = none := by
  have hplaced : (placeTiles t (slotOf y).ntiles (y.par 14 1) 0 0).isNone = false := by rw [Option.isNone_eq_false_iff, hplace]
  have hnumber : decide (255 < tabGap t.work.slots 0) = false := decide_eq_false (Nat.not_lt.mpr hfree)
  simp only [redOpenStop, hnumber, hplaced, hregions, hpower, Bool.not_true, Bool.or_self, Bool.false_eq_true, if_false]
theorem redOpenAct_opens (t : State) (k : Nat) (y : Cmd) (l : List (Nat × Nat × Nat)) (h : t.cmd k = some y)
    (hplace : placeTiles t (slotOf y).ntiles (y.par 14 1) 0 0 = some l) (hgoes : redOpenStop t y = none) :
    redOpenAct t k = settle (finish (withSlot y (tabGap t.work.slots 0) l t) k stOK 0 (tabGap t.work.slots 0)) := by
  simp only [redOpenAct, h, hgoes, hplace]
  rfl
theorem redCloseAct_closes (t : State) (k : Nat) (y : Cmd) (x : Slot) (h : t.cmd k = some y) (hx : t.slot (y.par 16 1) = some x)
    (hopen : x.closing = none) :
    redCloseAct t k = tellAccepted
      (closeSlot ((t.setCmd k { y with st := .finishing }).setSlot (y.par 16 1) { x with closing := some k }) (y.par 16 1)) k := by
  simp only [redCloseAct, h, hx, hopen, Option.isSome_none, Bool.false_eq_true, if_false]
theorem redQueryAct_eq (t : State) (k : Nat) (y : Cmd) (x : Slot) (h : t.cmd k = some y) (hx : t.slot (y.par 16 1) = some x) :
    redQueryAct t k = settle (finish t k stOK 0 (x.k % 2 ^ 32 + 2 ^ 32 * x.marked.length
      + 2 ^ 64 * (if x.running then 3 else if x.marked = [] then 1 else 2))) := by simp only [redQueryAct, h, hx]

/-! ## CONTRIBUTION_ARRIVE (R246) -/

/-- The contribution once its row is deposited, `u` being the part that the deposit leaves (R139, R145, R407). -/
def depositedCmd (u : State) (c : Cmd) : Cmd := notePoints u { c with disputed := u.mir.saw, color := if c.par 32 1 = 1 then c.color else 1 }
/-- The slot with an index more marked; the first mark of a step begins its limit (R250). -/
def Slot.mark (x : Slot) (index now : Nat) : Slot :=
  { x with marked := index :: x.marked, firstAt := if x.marked = [] then now else x.firstAt }

section
variable (s : State) (i : Nat) (x : Slot)

theorem contributionArrive_marks (index k : Nat) (c : Cmd) (t : State) (hx : s.slot i = some x)
    (hfind : (contribs s i x.k).find? (fun e => e.2.par 18 2 == index && e.2.st == .ready) = some (k, c))
    (hnew : x.marked.contains index = false) (hidle : x.running = false) (hseq : c.mirSeq = 0)
    (hdeposit : deposit (accessing s) x c = (none, t)) :
    contributionArrive s i index =
      tryStep (postUpd (((chargeReserved (accessed t) c.host (depositBytes x (c.par 32 1))).setCmd k (depositedCmd (accessed t) c)).setSlot i
        (x.mark index s.now)) x.arrive (.signal 1)) i := by
  have hgoes : (x.marked.contains index || x.running) = false := by rw [hnew, hidle, Bool.or_self]
  have huntokened : (if c.mirSeq = 0 then none else some c.mirInt) = none := if_pos hseq
  rw [accessing, accessed] at hdeposit
  simp only [contributionArrive, hx, hfind, hgoes, huntokened, hdeposit, Bool.false_eq_true, if_false]
  rfl

/-! ## The granules of a step (R248) -/

/-- The slot after a granule of its running step that gave the blocks `q` and `sat` saturations. -/
def Slot.reduced (x : Slot) (q : List QBlock) (sat : Nat) : Slot :=
  { x with
    scales := x.scales ++ q.map fun e => BitVec.ofNat 8 e.scale
    poisoned := x.poisoned + (q.filter (·.scale == 255)).length
    under := x.under + (q.filter fun b => decide (x.ufNum * 32 < b.flush * 16)).length
    sat := satAdd 32 x.sat sat }

/-- Contributions without an order token give the step none. -/
theorem foldl_max_mirSeq_eq_zero (cs : List (Nat × Cmd)) (h : cs.all (·.2.mirSeq == 0) = true) :
    cs.foldl (fun m e => max m e.2.mirSeq) 0 = 0 := by
  induction cs with
  | nil => rfl
  | cons e cs ih =>
    rw [List.all_cons, Bool.and_eq_true, beq_iff_eq] at h
    rw [List.foldl_cons, h.1, Nat.max_self, ih h.2]

/-- A granule of the lead of a running step that reads its deposits and writes its result is done, and all contributions count it. -/
theorem slotStep_reduces (k : Nat) (c : Cmd) (rows : List (List Byte)) (t u : State) (h : s.cmd k = some c) (hx : s.slot (c.par 16 2) = some x)
    (hrunning : x.running = true) (hlead : (stepLead s (c.par 16 2) x.k).map (·.1) = some k) (hmore : c.progress < x.l / 1024)
    (hseq : (contribs s (c.par 16 2) x.k).all (·.2.mirSeq == 0) = true)
    (hread : readMany x.host (granReads x c.progress) (accessing s) [] = (.ok rows, t))
    (hwrite : writeMany t x.host (granWrites x c.progress (granResult x c.progress rows).1 (granResult x c.progress rows).2.1) = (.ok (), u)) :
    slotStep s k = accessed (spreadLead ((granDone u k (granSize x c.progress)).setSlot (c.par 16 2)
      (x.reduced (granResult x c.progress rows).1 (granResult x c.progress rows).2.2)) (c.par 16 2) x.k k) := by
  have hgoes : (!x.running || (stepLead s (c.par 16 2) x.k).map (·.1) != some k || decide (x.l / 1024 ≤ c.progress)) = false := by
    rw [hrunning, hlead, bne_self_eq_false, decide_eq_false (Nat.not_le.mpr hmore)]; rfl
  simp only [slotStep, h, hx, hgoes, foldl_max_mirSeq_eq_zero _ hseq, underSeq_untokened, hread, hwrite, Bool.false_eq_true, if_false]
  rfl

/-! ## The end of a step (R247) -/

/-- Has the running lead of the step done all its granules (R247)? -/
def leadDone : Bool :=
  (stepLead s i x.k).any fun e => e.2.st == .running && decide (x.l / 1024 ≤ e.2.progress)

theorem exec_reductionStepComplete (hi : i < 256) (hx : s.slot i = some x) :
    exec (.reductionStepComplete i) s = .next (intEval (if (x.running && leadDone s i x) = true then closeSlot (stepDone s i x) i else s)) := by
  refine (onInst_next _ _ (decide_eq_true hi)).trans (congrArg done ?_)
  simp only [stepComplete, hx]
  rfl

/-! ## The limit of a step (R250) -/

/-- Is the step one that an index is missing to at its limit? -/
def stepOverdue : Bool :=
  !pairHeld s && !x.running && x.marked != [] && decide (x.marked.length < x.n) && decide (x.firstAt + ms x.limitMs ≤ s.now)
theorem stepOverdue_eq_true_iff : stepOverdue s x = true ↔
    pairHeld s = false ∧ x.running = false ∧ x.marked ≠ [] ∧ x.marked.length < x.n ∧ x.firstAt + 1000000 * x.limitMs ≤ s.now := by
  have hms : ms x.limitMs = 1000000 * x.limitMs := rfl
  rw [← hms]
  simp [stepOverdue, and_assoc]

theorem exec_stepLimitExpiry (hi : i < 256) (hx : s.slot i = some x) :
    exec (.stepLimitExpiry i) s = .next (intEval (if stepOverdue s x = true then abandonStep s i x.k stWAIT_EXPIRED true else s)) := by
  refine (onInst_next _ _ (decide_eq_true hi)).trans (congrArg done ?_)
  simp only [hx]
  rfl

end

/-- Settles O13: each command by its act on the slots, a contribution by its deposit, a granule by what it reads and writes, and the end and
the limit of a step by whether they have come. -/
theorem reductionSlotsRun : Obligations.ReductionSlotsRun := by
  refine ⟨fun c => ⟨fun l => ?opens, fun x => ?closes, fun x => ?query⟩, fun s i index x hi hx =>
    ⟨?arrives, ?granule, ?ended, ?unended, ?overdue, ?early⟩⟩
  case opens =>
    refine actsAs_row fun t k y h _ _ hfits => ?_
    obtain ⟨hplace, hfree, hregions, hpower⟩ := hfits
    exact redOpenAct_opens t k y l h hplace (redOpenStop_none t y (by rw [hplace]; rfl) hfree hregions hpower)
  case closes =>
    exact actsAs_row fun t k y h _ _ ⟨hx, hopen⟩ => redCloseAct_closes t k y x h hx hopen
  case query =>
    exact actsAs_row fun t k y h _ _ hx => redQueryAct_eq t k y x h hx
  case arrives =>
    intro k c t hfind hnew hidle hseq hdeposit
    exact (onInst_next _ _ (decide_eq_true hi)).trans
      (congrArg done (contributionArrive_marks s i x index k c t hx hfind hnew hidle hseq hdeposit))
  case granule =>
    intro k g c rows t u hrunning _ h _ hslot hlead hg hmore hseq hread hwrite
    subst hslot hg
    exact slotStep_reduces s x k c rows t u h hx hrunning hlead hmore hseq hread hwrite
  case ended =>
    intro hrunning hdone
    have hends : (x.running && leadDone s i x) = true := Bool.and_eq_true_iff.mpr ⟨hrunning, hdone⟩
    rw [exec_reductionStepComplete s i x hi hx, if_pos hends]
  case unended =>
    intro hnot
    have hgoesOn : (x.running && leadDone s i x) = false := Bool.and_eq_false_iff.mpr hnot
    rw [exec_reductionStepComplete s i x hi hx, if_neg (ne_true_of_eq_false hgoesOn)]
  case overdue =>
    intro hfree hidle hsome hmissing hdue
    rw [exec_stepLimitExpiry s i x hi hx, if_pos ((stepOverdue_eq_true_iff s x).mpr ⟨hfree, hidle, hsome, hmissing, hdue⟩)]
  case early =>
    intro hnot
    have hwaits : ¬ stepOverdue s x = true := by
      rw [stepOverdue_eq_true_iff]
      rintro ⟨-, -, -, hmissing, hdue⟩
      omega
    rw [exec_stepLimitExpiry s i x hi hx, if_neg hwaits]

end Sys2Proof.Machine
end

section
/-! Checkpoint galleys: their commands (R275, R279, R290, R291), the start of a lock-up (R281, R288), and its chunks and commit (R285, R287). -/
namespace Sys2Proof.Machine

/-! ## The commands (R275, R279, R290, R291) -/

/-- The galley that a GAL_OPEN opens: as its descriptor says, with the extents of its GAL region. -/
def openedGalley (t : State) (y : Cmd) : Galley := { galOf y with ext := galExtents t y.host (galOf y) }

/-- A galley can be opened that has a handle, its chunks, its ingest rate and its power (R277, R469). -/
theorem galStop_none (t : State) (g : Galley) (hfree : tabGap t.work.gals 1 ≤ 16)
    (hchunks : t.work.gals.foldl (fun n e => n + e.2.chunks) g.chunks ≤ 65536) (hing : ingFits t g = true)
    (hpower : powerFits t Config.galPower = true) : galStop t g = none := by
  have hhandle : decide (16 < tabGap t.work.gals 1) = false := decide_eq_false (Nat.not_lt.mpr hfree)
  have htotal : decide (65536 < t.work.gals.foldl (fun n e => n + e.2.chunks) g.chunks) = false := decide_eq_false (Nat.not_lt.mpr hchunks)
  simp only [galStop, hhandle, htotal, hing, hpower, Bool.not_true, Bool.or_self, Bool.false_eq_true, if_false]
/-- A fresh galley that nothing waits for or stops is opened once its head line is cleared. -/
theorem galOpenAct_opens (t u : State) (k : Nat) (y : Cmd) (h : t.cmd k = some y) (hsettled : galWaits t (openedGalley t y) = false)
    (hranges : galRangesOk t y.host (openedGalley t y) = true) (hgoes : galStop t (openedGalley t y) = none)
    (hfresh : bitOf (y.par 12 1) 0 = false) (hseq : y.mirSeq = 0)
    (hwrite : writeAll (accessing t) y.host (openedGalley t y).head (List.replicate 64 0) = (.ok (), u)) :
    galOpenAct t k = accessed (settle (finish (repin (u.setGalley (tabGap t.work.gals 1) (openedGalley t y))) k stOK 0
      (tabGap t.work.gals 1))) := by
  rw [openedGalley] at hsettled hranges hgoes hwrite
  simp only [galOpenAct, h, hsettled, hranges, hgoes, hfresh, underSeq_untokened _ _ _ hseq, hwrite, Bool.not_true, Bool.false_eq_true, if_false]
  rfl
theorem galBeginAct_begins (t : State) (k : Nat) (y : Cmd) (g : Galley) (h : t.cmd k = some y) (hg : t.galley (y.par 16 1) = some g)
    (hunlocked : g.state ≠ 3) :
    galBeginAct t k =
      settle (finish (t.setGalley (y.par 16 1) { g with state := 2, used := y.par 20 4 }) k stOK 0 (2 ^ 64 * (g.ckpt + 1))) := by
  simp only [galBeginAct, h, hg, hunlocked, if_false]
theorem galQueryAct_eq (t : State) (k : Nat) (y : Cmd) (g : Galley) (h : t.cmd k = some y) (hg : t.galley (y.par 16 1) = some g) :
    galQueryAct t k = settle (finish t k stOK 0 (g.state + 2 ^ 32 * g.used + 2 ^ 64 * g.ckpt)) := by simp only [galQueryAct, h, hg]
theorem galCloseAct_closes (t : State) (k : Nat) (y : Cmd) (g : Galley) (h : t.cmd k = some y) (hg : t.galley (y.par 16 1) = some g)
    (hopen : g.closing = none) :
    galCloseAct t k =
      tellAccepted (settle ((t.setCmd k { y with st := .finishing }).setGalley (y.par 16 1) { g with closing := some k })) k := by
  simp only [galCloseAct, h, hg, hopen, Option.isSome_none, Bool.false_eq_true, if_false]

/-! ## LOCKUP_READY (R281, R288) -/

/-- The galley in LOCKUP under the command of slot `k`, before its first chunk. -/
def Galley.lockedBy (g : Galley) (k : Nat) : Galley := { g with state := 3, lock := some k, prev := none, leaves := [], table := [], changed := 0 }

section
variable (s : State) (i k : Nat) (c : Cmd) (g : Galley)

/-- A lock-up that nothing holds, whose energy and load fit, locks a galley in INGEST once no write to it is left. -/
theorem lockupReady_locks (u t : State) (hg : s.galley i = some g) (hseq : c.mirSeq = 0) (hnext : nextLockup s i = some (k, c))
    (hingest : g.state = 2) (hpwr : s.pwr.hold = false) (hserves : serving s = true) (hunheld : heldOn s c = false)
    (henergy : energyFits s (lockEnergy s c) = true) (hdrain : drainGal s g = (false, u))
    (hstart : startOp u k { c with total := g.used, progress := 0 } = some t) :
    lockupReady s i = t.setGalley i (g.lockedBy k) := by
  have hunlocked : (decide (g.state = 3) || s.pwr.hold || !serving s || heldOn s c) = false := by
    rw [hingest, hpwr, hserves, hunheld]; rfl
  have huntokened : (c.mirSeq != 0 && t.mir.state == 1 && t.mir.inStep) = false := by rw [hseq]; rfl
  have hopen : ¬ g.state = 1 := by omega
  simp only [lockupReady, hg, hnext, hunlocked, hopen, henergy, hdrain, hstart, huntokened, Bool.not_true, Bool.false_eq_true, if_false]
  rfl

theorem exec_lockupReady (hi : 1 ≤ i ∧ i ≤ 16) (hfree : pairHeld s = false) :
    exec (.lockupReady i) s = .next (intEval (lockupReady s i)) :=
  (onInst_next _ _ (by simp [hi])).trans (by rw [if_neg (ne_true_of_eq_false hfree)])

/-! ## CHUNK_HASH_COMPLETE (R285, R287) -/

/-- The galley with the leaves and slots of the checkpoint before at hand (R285). -/
def Galley.withProof (g : Galley) (pl : List (List Byte)) (ps : List Nat) : Galley := { g with prev := some (pl, ps) }
theorem Galley.withProof_eq_self (pl : List (List Byte)) (ps : List Nat) (h : g.prev = some (pl, ps)) : g.withProof pl ps = g := by
  rw [Galley.withProof, ← h]

section
variable (u : State) (pl : List (List Byte)) (ps : List Nat) (fresh : Nat)

/-- The running lock-up of a galley goes on by one unit with the proof that it has read or reads now. -/
theorem chunkHash_of_proofAt (hg : s.galley i = some g) (hseq : c.mirSeq = 0) (hlock : g.lock = some k) (h : s.cmd k = some c)
    (hst : c.st = .running) (hproof : proofAt s g pl ps u fresh) :
    chunkHash s i = afterUnit c (accessed (chunkHash.lockStep u k i (g.withProof pl ps) pl ps fresh)) k := by
  have hruns : (c.st != .running && c.st != .stopping) = false := by rw [hst]; rfl
  obtain ⟨hprev, rfl, rfl⟩ | ⟨hprev, hread, rfl⟩ := hproof
  · rw [g.withProof_eq_self pl ps hprev]
    simp only [chunkHash, hg, hlock, h, hruns, hprev, underSeq_untokened _ _ _ hseq, Bool.false_eq_true, if_false]
  · simp only [chunkHash, hg, hlock, h, hruns, hprev, hread, Galley.withProof, underSeq_untokened _ _ _ hseq, Bool.false_eq_true, if_false]

/-- With all chunks done, the unit is the commit. -/
theorem lockStep_commits (hdone : g.used ≤ g.leaves.length) :
    chunkHash.lockStep u k i g pl ps fresh = lockupCommit (u.setGalley i g) k i g := by
  simp only [chunkHash.lockStep, Nat.not_lt.mpr hdone, if_false]
/-- Otherwise it is the next chunk, and the commit too where that chunk was the last. -/
theorem lockStep_chunk (g1 : Galley) (hmore : g.leaves.length < g.used)
    (hg1 : (lockChunk (u.setGalley i g) k i g pl ps fresh).galley i = some g1) :
    chunkHash.lockStep u k i g pl ps fresh =
      if g1.leaves.length = g1.used ∧ g1.lock = some k then lockupCommit (lockChunk (u.setGalley i g) k i g pl ps fresh) k i g1
      else lockChunk (u.setGalley i g) k i g pl ps fresh := by
  simp only [chunkHash.lockStep, hmore, if_true, hg1, Bool.and_eq_true, decide_eq_true_eq, beq_iff_eq]

end

theorem exec_chunkHashComplete (hi : 1 ≤ i ∧ i ≤ 16) : exec (.chunkHashComplete i) s = .next (intEval (chunkHash s i)) :=
  onInst_next _ _ (by simp [hi])

end

/-- Settles O14: each command by its act on the galleys, a lock-up by what its start meets, and a unit of it by the chunks that are left. -/
theorem galleysRun : Obligations.GalleysRun := by
  refine ⟨fun c => ⟨fun u => ?opens, fun g => ?begins, fun g => ?query, fun g => ?closes⟩, fun s i k c g hi1 hi16 hg hseq =>
    ⟨fun u t hfree hnext hingest hpwr hserves hunheld henergy hdrain hstart => ?locks, fun pl ps u fresh hlock h hst hproof => ?unit⟩⟩
  case opens =>
    refine actsAs_row fun t k y h _ _ hfits => ?_
    obtain ⟨hsettled, hranges, hfree, hchunks, hing, hpower, hfresh, hseq, hwrite⟩ := hfits
    exact galOpenAct_opens t u k y h hsettled hranges (galStop_none t (openedGalley t y) hfree hchunks hing hpower) hfresh hseq hwrite
  case begins =>
    exact actsAs_row fun t k y h _ _ ⟨hg, hunlocked⟩ => galBeginAct_begins t k y g h hg hunlocked
  case query =>
    exact actsAs_row fun t k y h _ _ hg => galQueryAct_eq t k y g h hg
  case closes =>
    exact actsAs_row fun t k y h _ _ ⟨hg, hopen⟩ => galCloseAct_closes t k y g h hg hopen
  case locks =>
    exact (exec_lockupReady s i ⟨hi1, hi16⟩ hfree).trans
      (congrArg done (lockupReady_locks s i k c g u t hg hseq hnext hingest hpwr hserves hunheld henergy hdrain hstart))
  case unit =>
    have hunit : exec (.chunkHashComplete i) s =
        .next (intEval (afterUnit c (accessed (chunkHash.lockStep u k i (g.withProof pl ps) pl ps fresh)) k)) := by
      rw [exec_chunkHashComplete s i ⟨hi1, hi16⟩, chunkHash_of_proofAt s i k c g u pl ps fresh hg hseq hlock h hst hproof]
    rw [hunit]
    refine ⟨fun hdone => ?commits, fun g1 t hmore ht hg1 => ?chunk⟩
    case commits =>
      rw [lockStep_commits i k (g.withProof pl ps) u pl ps fresh hdone]
      rfl
    case chunk =>
      subst ht
      rw [lockStep_chunk i k (g.withProof pl ps) u pl ps fresh g1 hmore hg1]
      refine ⟨fun hleft => ?goesOn, fun hlast hlock1 => ?last⟩
      case goesOn =>
        rw [if_neg fun hend => Nat.ne_of_lt hleft hend.1]
        rfl
      case last =>
        rw [if_pos ⟨hlast, hlock1⟩]
        rfl

end Sys2Proof.Machine
end

section
/-! The commands of coherent windows: WIN_OPEN, WIN_CLOSE, WIN_REOPEN and WIN_QUERY (R306, R308-R310). -/
namespace Sys2Proof.Machine

section
variable (t : State) (k : Nat) (y : Cmd) (h : t.cmd k = some y)

/-! ## WIN_OPEN (R308) -/

/-- The window that a WIN_OPEN opens: as its descriptor says, over the translations of this moment (R293). -/
def openedWindow (t : State) (y : Cmd) : Window :=
  { host := y.host, base := y.par 0 8, ext := spanExts t y.host (y.par 0 8) (y.par 8 8), len := y.par 8 8
    dirRa := y.par 16 8, dirExt := spanExts t y.host (y.par 16 8) (y.par 8 8 / 16)
    agents := winAgents y, snoopUs := winSnoopUs y, state := 1 }

include h in
/-- A permitted window whose ranges are at rest, whose place is fit and whose tiers are up takes the free number. -/
theorem winOpenAct_opens (i p d r1 r2 : Nat) (hfree : freeWindow t = some i)
    (hspan : checkRa t y.host (y.par 0 8) (rRead ||| rWrite) = .ok p r1) (hdir : checkRa t y.host (y.par 16 8) (rRead ||| rWrite) = .ok d r2)
    (hspanRest : unsettledRange t r1 = false) (hdirRest : unsettledRange t r2 = false) (hplace : winPlaceOk t y = true)
    (hspanUp : tierUp t (ppaCream p) (ppaPart p) = true) (hdirUp : tierUp t true (ppaPart d) = true) :
    winOpenAct t k = settle (finish (repin ((dirClear (granStart (beginAccess t) k (y.par 8 8 / 16)) (openedWindow t y)).setWin i
      (openedWindow t y))) k stOK 0 i) := by
  simp only [winOpenAct, h, hspan, hdir, hfree, hspanRest, hdirRest, hplace, hspanUp, hdirUp, Bool.not_true, Bool.or_self,
    Bool.false_eq_true, if_false]
  rfl

/-! ## WIN_CLOSE (R306, R309) -/

include h in
theorem winCloseAct_down (hdown : (t.win (y.par 16 1)).state = 3) :
    winCloseAct t k = settle (finish (freeWin t (y.par 16 1)) k stOK) := by simp [winCloseAct, h, hdown]

/-- The part as the close in slot `k` begins: the requests that wait at the window are answered DOWN, and the window is CLOSING. -/
def closeBegun (t : State) (k : Nat) (y : Cmd) : State :=
  let w := t.win (y.par 16 1)
  let u := (granStart (beginAccess t) k (w.len / 16)).setCmd k { y with st := .finishing, color := 1 }
  let u := downQueued (w.waits.foldl (fun s x => sendCoh s (y.par 16 1) 0xF x.agent x.line x.txn 0 none false) u) (y.par 16 1)
  u.setWin (y.par 16 1) { w with state := 2, closeKey := some k, wrote := 0, tokens := [], waits := [] }

include h in
theorem winCloseAct_open (hopen : (t.win (y.par 16 1)).state = 1) :
    winCloseAct t k = settle ((dirLines (closeBegun t k y) (t.win (y.par 16 1))).foldl (fun s l => closeLine s (y.par 16 1) l)
      (closeBegun t k y)) := by
  have hcloseable : ¬ ((t.win (y.par 16 1)).state = 0 ∨ (t.win (y.par 16 1)).state = 2) := by omega
  have hnotDown : (t.win (y.par 16 1)).state ≠ 3 := by omega
  simp only [winCloseAct, h, Bool.or_eq_true, decide_eq_true_eq, hcloseable, hnotDown, if_false]
  rfl

/-! ## WIN_REOPEN and WIN_QUERY (R307, R310) -/

include h in
theorem winReopenAct_reopens (hdown : (t.win (y.par 16 1)).state = 3)
    (hup : ∀ e ∈ (t.win (y.par 16 1)).ext ++ (t.win (y.par 16 1)).dirExt, tierUp t (ppaCream e.1) (ppaPart e.1) = true) :
    winReopenAct t k = settle (finish ((dirClear (granStart (beginAccess t) k ((t.win (y.par 16 1)).len / 16)) (t.win (y.par 16 1))).setWin
      (y.par 16 1) { t.win (y.par 16 1) with state := 1 }) k stOK) := by
  have honline : (((t.win (y.par 16 1)).ext ++ (t.win (y.par 16 1)).dirExt).any fun e => !tierUp t (ppaCream e.1) (ppaPart e.1)) = false := by
    rw [List.any_eq_false]
    exact fun e he => by rw [hup e he]; exact Bool.false_ne_true
  simp only [winReopenAct, h, hdown, honline, bne_self_eq_false, Bool.false_eq_true, if_false]

include h in
theorem winQueryAct_eq :
    winQueryAct t k = settle (finish t k stOK 0 ((t.win (y.par 16 1)).state + 2 ^ 8 * (t.win (y.par 16 1)).cause
      + 2 ^ 16 * (t.win (y.par 16 1)).agents.length + 2 ^ 32 * liveTokens t (t.win (y.par 16 1)) (y.par 16 1))) := by
  simp only [winQueryAct, h]

end

/-- Settles O15: each command by its act on the window that it names or takes. -/
theorem windowCommandsRun : Obligations.WindowCommandsRun := by
  refine fun c => ⟨fun i p d r1 r2 => ?opens, ?closesDown, ?closesOpen, ?reopens, ?query⟩
  case opens =>
    exact actsAs_row fun t k y h _ _ ⟨hfree, hspan, hdir, hspanRest, hdirRest, hplace, hspanUp, hdirUp⟩ =>
      winOpenAct_opens t k y h i p d r1 r2 hfree hspan hdir hspanRest hdirRest hplace hspanUp hdirUp
  case closesDown => exact actsAs_row fun t k y h _ _ hdown => winCloseAct_down t k y h hdown
  case closesOpen => exact actsAs_row fun t k y h _ _ hopen => winCloseAct_open t k y h hopen
  case reopens => exact actsAs_row fun t k y h _ _ ⟨hdown, hup⟩ => winReopenAct_reopens t k y h hdown hup
  case query => exact actsAs_row fun t k y h _ _ _ => winQueryAct_eq t k y h

end Sys2Proof.Machine
end

section
/-! Answers of coherent agents (R299, R300), their time-outs (R304), and the end of tokens (R302). -/
namespace Sys2Proof.Machine

/-! ## Write-backs and snoop answers (R299, R300) -/

theorem cohInst_next {m : CohMsg} {t u : State} (hwin : m.win < 64) (h : t = u) : cohInst m t = .next (intEval u) := by
  rw [cohInst, onInst_next _ _ (decide_eq_true hwin), h]

/-- The part after the message of an agent is charged to its host (R303). -/
def cohCharged (s : State) (m : CohMsg) : State := chargeReserved s (agentHost s (s.win m.win) m.agent) 64

section
variable (s : State) (m : CohMsg) (hpair : pairHeld s = false) (hopen : (s.win m.win).state = 1)
  (hlisted : agentListed (s.win m.win) m = true)
include hpair hopen hlisted

/-- A write-back of the recorded owner that crosses no snoop is written, acknowledged, and leaves the line UNCACHED. -/
theorem cohWb_owner (e : DirE) (u : State) (hline : m.line < (s.win m.win).len / 64) (hquiet : snooped (s.win m.win) m.line m.agent = false)
    (hread : dirRead (cohCharged s m) (s.win m.win) m.line = (some e, u)) (howned : e.st = 2) (howner : e.ptrs = [m.agent])
    (hstays : ((cohWrite u (s.win m.win) m).win m.win).state = 1) :
    cohWb s m = settle (dirWrite (sendCoh ((cohWrite u (s.win m.win) m).setWin m.win ((cohWrite u (s.win m.win) m).win m.win))
      m.win 0xB m.agent m.line m.txn 0 none false) (s.win m.win) m.line { st := 0, ptrs := [] }) := by
  rw [cohCharged] at hread
  have huncounted : ¬ ((cohWrite u (s.win m.win) m).win m.win).state = 2 := by omega
  simp [cohWb, hpair, hopen, hlisted, Nat.not_le.mpr hline, hquiet, hread, howned, howner, huncounted]

/-- An answer to an outstanding snoop without data, unless it is the one that a write-back made void (R300). -/
theorem cohAnswer_clean (np : Bool) (hsnooped : snooped (s.win m.win) m.line m.agent = true)
    (hvalid : (np && (s.win m.win).discards.contains (m.line, m.agent)) = false) :
    cohAnswer s m np false = settle (dropSnoop (cohCharged s m) m.win m.line m.agent (!np)) := by
  simp only [cohAnswer, hpair, hopen, hlisted, hsnooped, hvalid, cohCharged]
  rfl
/-- An answer with data: the line is written first. -/
theorem cohAnswer_data (hsnooped : snooped (s.win m.win) m.line m.agent = true) :
    cohAnswer s m false true = settle (dropSnoop ((cohWrite (cohCharged s m) (s.win m.win) m).setWin m.win
      { (cohWrite (cohCharged s m) (s.win m.win) m).win m.win with wrote := (s.win m.win).wrote }) m.win m.line m.agent true) := by
  simp [cohAnswer, hpair, hopen, hlisted, hsnooped, cohCharged]
/-- An answer that nobody asked for is a protocol error (R304). -/
theorem cohAnswer_unasked (np data : Bool) (hquiet : snooped (s.win m.win) m.line m.agent = false)
    (hvalid : (np && (s.win m.win).discards.contains (m.line, m.agent)) = false) :
    cohAnswer s m np data = settle (windowDown (cohCharged s m) m.win 2) := by
  simp only [cohAnswer, hpair, hopen, hlisted, hquiet, hvalid, cohCharged]
  rfl

end

section
variable (s : State) (wi : Nat)

/-! ## Time-outs (R302, R304) -/

/-- The snoop of the agent for the line has been out for SNOOP_US. -/
def snoopDue (agent : Nat) (t : Trans) : Bool :=
  t.snoops.any fun y => y.agent == agent && decide (y.at_ + us (s.win wi).snoopUs ≤ s.now)

theorem snoopTimeout_due (line agent : Nat) (t : Trans) (htrans : tabFind (s.win wi).trans line = some t)
    (hdue : snoopDue s wi agent t = true) (hopen : (s.win wi).state = 1) : snoopTimeout s wi line agent = settle (windowDown s wi 1) := by
  rw [snoopDue] at hdue
  have hnotClosing : (s.win wi).state ≠ 2 := by omega
  simp only [snoopTimeout, htrans, hdue, hnotClosing, Bool.not_true, Bool.false_eq_true, if_false]
theorem snoopTimeout_early (line agent : Nat) (t : Trans) (htrans : tabFind (s.win wi).trans line = some t)
    (hearly : snoopDue s wi agent t = false) : snoopTimeout s wi line agent = s := by
  rw [snoopDue] at hearly
  simp only [snoopTimeout, htrans, hearly, Bool.not_false, if_true]

variable (x : CohTok) (honly : (s.win wi).tokens = [x])
include honly

/-- A token whose request never came goes when it is over, and the line goes on. -/
theorem cohTokenExpiry_over (hwaits : (s.win wi).waits = []) (hqueued : tokQueued s wi x.value = false) (hover : x.expiry ≤ s.now) :
    cohTokenExpiry s wi x.value = settle (drainLine wi x.line 1 (dropTok s wi x.value)) := by
  have hdead : x.live s (s.win wi) wi = false := by simp [CohTok.live, hwaits, hqueued, hover]
  simp [cohTokenExpiry, honly, hwaits, hdead, hover]
theorem cohTokenExpiry_early (hearly : s.now < x.expiry) : cohTokenExpiry s wi x.value = s := by
  simp [cohTokenExpiry, honly, Nat.not_le.mpr hearly]

end

theorem exec_snoopTimeout (s : State) (wi line agent : Nat) (hwin : wi < 64) :
    exec (.snoopTimeout wi line agent) s = .next (intEval (snoopTimeout s wi line agent)) := onInst_next _ _ (decide_eq_true hwin)
theorem exec_cohTokenExpiry (s : State) (wi v : Nat) (hwin : wi < 64) :
    exec (.cohTokenExpiry wi v) s = .next (intEval (cohTokenExpiry s wi v)) := onInst_next _ _ (decide_eq_true hwin)

/-- Settles O33: an answer by what is outstanding at its line, a time-out by whether it is due. -/
theorem coherentAnswers : Obligations.CoherentAnswers := by
  refine ⟨fun s m hwin hpair hopen hlisted => ⟨?writeBack, fun hsnooped => ⟨?ack, fun hvalid => ?notPresent, ?data⟩, fun hquiet _ => ?unasked⟩,
    fun s wi line agent t x hwin => ⟨fun htrans hdue hopen => ?snoopDue, fun htrans hearly => ?snoopEarly,
      fun honly hwaits hqueued hover => ?tokenOver, fun honly hearly => ?tokenEarly⟩⟩
  case writeBack =>
    intro hline hquiet e u hread howned howner hstays
    exact cohInst_next hwin (cohWb_owner s m hpair hopen hlisted e u hline hquiet hread howned howner hstays)
  case ack => exact cohInst_next hwin (cohAnswer_clean s m hpair hopen hlisted false hsnooped rfl)
  case notPresent => exact cohInst_next hwin (cohAnswer_clean s m hpair hopen hlisted true hsnooped hvalid)
  case data => exact cohInst_next hwin (cohAnswer_data s m hpair hopen hlisted hsnooped)
  case unasked => exact cohInst_next hwin (cohAnswer_unasked s m hpair hopen hlisted false false hquiet rfl)
  case snoopDue => rw [exec_snoopTimeout s wi line agent hwin, snoopTimeout_due s wi line agent t htrans hdue hopen]
  case snoopEarly => rw [exec_snoopTimeout s wi line agent hwin, snoopTimeout_early s wi line agent t htrans hearly]
  case tokenOver => rw [exec_cohTokenExpiry s wi x.value hwin, cohTokenExpiry_over s wi x honly hwaits hqueued hover]
  case tokenEarly => rw [exec_cohTokenExpiry s wi x.value hwin, cohTokenExpiry_early s wi x honly hearly]

end Sys2Proof.Machine
end

section
/-! Flits that arrive on a link (R312, R315, R317-R319, R323, R326, R329). -/
namespace Sys2Proof.Machine

/-! ## The header of a good flit (R317, R318, R323) -/

section
variable (l : Link) (h now : Nat)

/-- An ACK of no more than is held takes what it names from the front of the replay buffer. -/
theorem linkAck_within (hle : ackCount l h ≤ l.replayBuf.length) : ∃ u, linkAck l (field h 35 20) now = some u ∧
    u.e = l.e ∧ u.txSeq = l.txSeq ∧ u.replayBuf = l.replayBuf.drop (ackCount l h) ∧
    u.credits = l.credits ∧ u.partAlloc = l.partAlloc ∧ u.lastCnt = l.lastCnt := by
  have hcount : (field h 35 20 + 65536 + l.replayBuf.length - l.txSeq) % 65536 = ackCount l h := rfl
  rw [linkAck, hcount, if_neg (Nat.not_lt.mpr hle)]
  split
  case isTrue hnone => simp [hnone]
  case isFalse => simp

/-- A credit of no more than the partner's buffers have is added to its type; of a type that there is not, nothing is taken. -/
theorem linkCredit_within (t c : Nat)
    (hle : 5 < t ∨ l.credits.getD t 0 + (c + 4096 - l.lastCnt.getD t 0) % 4096 ≤ l.partAlloc.getD t 0) : ∃ u, linkCredit l t c = some u ∧
    u.e = l.e ∧ u.txSeq = l.txSeq ∧ u.replayBuf = l.replayBuf ∧
    u.credits = if t < 6 then l.credits.set t (l.credits.getD t 0 + (c + 4096 - l.lastCnt.getD t 0) % 4096) else l.credits := by
  by_cases ht : 5 < t
  · simp [linkCredit, ht, Nat.not_lt.mpr ht]
  · have hroom := hle.resolve_left ht
    have hlisted : t < 6 := by omega
    rw [linkCredit, if_neg ht, if_neg (Nat.not_lt.mpr hroom)]
    simp [hlisted]

end

/-- A fold whose every step leaves its start alone comes to that start. -/
theorem foldl_of_fixed {σ α : Type} (g : σ → α → σ) (b : σ) (l : List α) (h : ∀ x ∈ l, g b x = b) : l.foldl g b = b := by
  induction l with
  | nil => rfl
  | cons x l ih => rw [List.foldl_cons, h x List.mem_cons_self, ih fun y hy => h y (List.mem_cons_of_mem x hy)]
/-- Packets without a token among them change nothing when they are acknowledged. -/
theorem ackTokens_plain (s : State) (ps : List Pkt) (hplain : ∀ q ∈ ps, q.ptype ≠ 8) : ackTokens s ps = s := by
  have hnoAnswer : ps.filter (fun q => q.ptype == 8 && leAt q.body 0 1 == 7) = [] := by
    simp only [List.filter_eq_nil_iff, Bool.and_eq_true, beq_iff_eq]
    exact fun q hq h => hplain q hq h.1
  have hnoToken : ps.foldl (fun m q => if q.ptype = 8 && leAt q.body 0 1 = 1 then max m (leAt q.body 8 8) else m) s.mir.acked = s.mir.acked :=
    foldl_of_fixed _ _ _ fun q hq => by simp [hplain q hq]
  simp only [ackTokens, hnoAnswer, List.length_nil, sendAnswers, List.take_zero, List.foldl_nil, List.drop_zero, hnoToken, if_true]

/-- Of a header that is no protocol error, the link takes the ACK and the credit, and the packets that are acknowledged follow. -/
theorem takeHeader_within (s : State) (p h : Nat) (hok : headerOk (s.link p) h = true) : ∃ u ps,
    takeHeader s p h = (true, ackTokens (s.setLink p u) ps) ∧ (∀ q ∈ ps, ∃ k ∈ (s.link p).replayBuf, k.pkt = some q) ∧
    u.e = (s.link p).e ∧ u.txSeq = (s.link p).txSeq ∧ u.replayBuf = (s.link p).replayBuf.drop (ackCount (s.link p) h) ∧
    u.credits = if h / 2 ^ 4 % 8 < 6
      then (s.link p).credits.set (h / 2 ^ 4 % 8) ((s.link p).credits.getD (h / 2 ^ 4 % 8) 0 + creditCount (s.link p) h)
      else (s.link p).credits := by
  simp only [headerOk, Bool.and_eq_true, Bool.or_eq_true, decide_eq_true_eq] at hok
  obtain ⟨hheld, hroom⟩ := hok
  obtain ⟨v, hack, hve, hvseq, hvbuf, hvcr, hvalloc, hvcnt⟩ := linkAck_within (s.link p) h s.now hheld
  rw [← hvcr, ← hvalloc, creditCount, ← hvcnt] at hroom
  obtain ⟨u, hcredit, hue, huseq, hubuf, hucr⟩ := linkCredit_within v (field h 6 4) (field h 19 8) hroom
  refine ⟨u, _, by simp only [takeHeader, hack, hcredit]; rfl, fun q hq => ?gone, hue.trans hve, huseq.trans hvseq, hubuf.trans hvbuf, ?credits⟩
  case gone =>
    obtain ⟨k, hk, hpkt⟩ := List.mem_filterMap.mp hq
    exact ⟨k, List.mem_of_mem_take hk, hpkt⟩
  case credits =>
    rw [hucr, hvcr, hvcnt]
    rfl
theorem takeHeader_taken (s : State) (p h : Nat) (hok : headerOk (s.link p) h = true) : takeHeader s p h = (true, (takeHeader s p h).2) := by
  obtain ⟨u, ps, htake, -⟩ := takeHeader_within s p h hok
  rw [htake]

/-! ## Rows and kinds (R312, R314, R315) -/

/-- The header of a flit, its payload, and whether its CRC is right under a seed. -/
def flitHeader (bs : List Byte) : Nat := leAt bs 0 8
def flitPayload (bs : List Byte) : List Byte := (bs.drop 8).take 240
def flitGood (bs : List Byte) (seed : Nat) : Bool := leAt bs 248 8 == crc64 seed (bs.take 248)

/-- KIND stands in the first byte of the header. -/
theorem leAt_kind (bs : List Byte) : leAt bs 0 1 % 16 = flitHeader bs % 16 := by
  cases bs with
  | nil => rfl
  | cons b bs => simp only [flitHeader, leAt, List.drop_zero, List.take_succ_cons, List.take_zero, leNat]; omega
theorem flitRow_received (s : State) (p kind : Nat) (bs : List Byte) (hlen : bs.length = 256) (hkind : flitHeader bs % 16 = kind) :
    flitRow p bs kind s = rx arrivePkt s p bs := by
  simp [flitRow, leAt_kind, hlen, hkind]

/-- A flit of its row's kind comes to its reception. -/
theorem exec_flitRow {s t : State} {p kind : Nat} {bs : List Byte} {i : Instr} (hp : p < 14) (hlen : bs.length = 256) (hkind : flitHeader bs % 16 = kind)
    (hrow : exec i s = onInst (decide (p < 14)) (flitRow p bs kind s)) (h : rx arrivePkt s p bs = t) : exec i s = .next (intEval t) := by
  rw [hrow, onInst_next _ _ (decide_eq_true hp), flitRow_received s p kind bs hlen hkind, h]

/-! ## Reception (R317) -/

/-- What a good Sequence flit brings after its header. -/
def takeSequence (deliver : State → Nat → List Byte → State) (s : State) (p kind h : Nat) (pay : List Byte) : State :=
  match kind with
  | 0 => takeData deliver (s.onLink p fun l => { l with e := (l.e + 1) % 65536 }) p h pay
  | 1 => takeIdle s p pay
  | 5 => takeReq s p pay
  | _ => takeAckMsg s p pay

/-- A REPLAY_MARK of at most 1,024 flits ends DISCARD and says where the replay begins. -/
theorem takeFixed_mark (s : State) (p : Nat) (pay : List Byte) (hrange : ((s.link p).e + 65536 - leAt pay 0 2) % 65536 ≤ 1024) :
    takeFixed s p 2 pay = s.setLink p
      { s.link p with discard := false, replayPos := if leAt pay 0 2 = (s.link p).e then none else some (leAt pay 0 2) } := by
  simp only [takeFixed, Nat.not_lt.mpr hrange, if_false]
theorem takeFixed_nak (s : State) (p : Nat) (pay : List Byte) : takeFixed s p 3 pay = startReplay s p 1 := rfl

section
variable (deliver : State → Nat → List Byte → State) (s t : State) (p : Nat) (bs : List Byte)

theorem rx_init_exchanging (hstate : (s.link p).state = 2) (hkind : flitHeader bs % 16 = 4) (hgood : flitGood bs fixedSeed = true) :
    rx deliver s p bs = takeInit s p (flitPayload bs) := by
  rw [flitHeader] at hkind
  rw [flitGood] at hgood
  simp [rx, hstate, hkind, hgood, flitPayload]

variable (hactive : (s.link p).state = 3)
include hactive

theorem rx_init_active (hkind : flitHeader bs % 16 = 4) (hgood : flitGood bs fixedSeed = true) :
    rx deliver s p bs = sendInit s p := by
  rw [flitHeader] at hkind
  rw [flitGood] at hgood
  simp [rx, hactive, hkind, hgood, takeFixed, takeInit]

/-- REPLAY_MARK and NAK are taken in every state of reception. -/
theorem rx_fixed (hkind : flitHeader bs % 16 = 2 ∨ flitHeader bs % 16 = 3) (hgood : flitGood bs fixedSeed = true)
    (htake : takeHeader s p (flitHeader bs) = (true, t)) : rx deliver s p bs = takeFixed t p (flitHeader bs % 16) (flitPayload bs) := by
  rw [flitHeader] at hkind htake
  rw [flitGood] at hgood
  obtain hkind | hkind := hkind <;> simp [rx, hactive, hkind, hgood, htake, flitHeader, flitPayload]

theorem rx_discarding (hmark : flitHeader bs % 16 ≠ 2) (hnak : flitHeader bs % 16 ≠ 3) (hinit : flitHeader bs % 16 ≠ 4)
    (hdiscard : (s.link p).discard = true) : rx deliver s p bs = s := by
  rw [flitHeader] at hmark hnak hinit
  simp [rx, hactive, hmark, hnak, hinit, hdiscard]

variable (hdiscard : (s.link p).discard = false)
include hdiscard

/-- In a replay a DATA flit under the number that comes next goes on by one number, up to the number expected. -/
theorem rx_replayed (r : Nat) (hreplay : (s.link p).replayPos = some r) (hkind : flitHeader bs % 16 = 0) (hgood : flitGood bs r = true)
    (htake : takeHeader s p (flitHeader bs) = (true, t)) :
    rx deliver s p bs = t.onLink p fun l => { l with replayPos := if (r + 1) % 65536 = l.e then none else some ((r + 1) % 65536) } := by
  rw [flitHeader] at hkind htake
  rw [flitGood] at hgood
  simp [rx, hactive, hkind, hgood, hdiscard, hreplay, htake]

variable (hnext : (s.link p).replayPos = none)
include hnext

theorem rx_sequence (hkind : flitHeader bs % 16 ∈ [0, 1, 5, 6]) (hgood : flitGood bs (s.link p).e = true)
    (htake : takeHeader s p (flitHeader bs) = (true, t)) :
    rx deliver s p bs = takeSequence deliver t p (flitHeader bs % 16) (flitHeader bs) (flitPayload bs) := by
  simp only [List.mem_cons, List.not_mem_nil, or_false] at hkind
  rw [flitHeader] at hkind htake
  rw [flitGood] at hgood
  obtain hkind | hkind | hkind | hkind := hkind <;>
    simp [rx, takeSequence, hactive, hkind, hgood, hdiscard, hnext, htake, flitHeader, flitPayload]

/-- A DATA flit that is good under neither seed leads to one NAK and DISCARD. -/
theorem rx_error (hkind : flitHeader bs % 16 = 0) (hbad : flitGood bs (s.link p).e = false) :
    rx deliver s p bs = s.setLink p { bumpCrc (s.link p) with nakDue := true, discard := true, replayPos := none } := by
  rw [flitHeader] at hkind
  rw [flitGood] at hbad
  simp [rx, hactive, hkind, hbad, hdiscard, hnext, flitError, State.onLink, bumpCrc]

end

/-- Settles O41: each flit by the branch of its reception, after the header's ACK and credit where it takes them. -/
theorem flitsArrive : Obligations.FlitsArrive := by
  intro s p f hp hlen l h pay good t
  have hnextState {i : Instr} {kind : Nat} {u : State} (hkind : h % 16 = kind)
      (hrow : exec i s = onInst (decide (p < 14)) (flitRow p f kind s)) (hrx : rx arrivePkt s p f = u) : exec i s = .next (intEval u) :=
    exec_flitRow hp hlen hkind hrow hrx
  refine ⟨fun hactive hok => ⟨fun hplain => ?header, fun hgood hd hn => ?sequence, fun r hgood hd hr hkind => ?replayed, fun hgood => ?fixed⟩,
    fun hgood hkind => ?init, fun hactive hd hmark hnak hinit => ?discarding, fun hactive hbad hbadFixed hd hn hkind => ?error⟩
  case header =>
    obtain ⟨u, ps, htake, hgone, he, hseq, hbuf, hcredits⟩ := takeHeader_within s p h hok
    refine ⟨u, ?_, he, hseq, hbuf, hcredits⟩
    have hps : ∀ q ∈ ps, q.ptype ≠ 8 := fun q hq => by
      obtain ⟨k, hk, hpkt⟩ := hgone q hq
      exact hplain k hk q hpkt
    exact (congrArg Prod.snd htake).trans (ackTokens_plain _ ps hps)
  case sequence =>
    have htaken (kind : Nat) (hkind : h % 16 = kind) (hmem : kind ∈ [0, 1, 5, 6]) :
        rx arrivePkt s p f = takeSequence arrivePkt t p kind h pay := by
      subst hkind
      exact rx_sequence arrivePkt s t p f hactive hd hn hmem hgood (takeHeader_taken s p h hok)
    exact ⟨fun hkind => hnextState hkind rfl (htaken 0 hkind (by decide)), fun hkind => hnextState hkind rfl (htaken 1 hkind (by decide)),
      fun hkind => hnextState hkind rfl (htaken 5 hkind (by decide)), fun hkind => hnextState hkind rfl (htaken 6 hkind (by decide))⟩
  case replayed =>
    exact hnextState hkind rfl (rx_replayed arrivePkt s t p f hactive hd r hr hkind hgood (takeHeader_taken s p h hok))
  case fixed =>
    have htaken (hkind : h % 16 = 2 ∨ h % 16 = 3) : rx arrivePkt s p f = takeFixed t p (h % 16) pay :=
      rx_fixed arrivePkt s t p f hactive hkind hgood (takeHeader_taken s p h hok)
    refine ⟨fun hkind hrange => hnextState hkind rfl ((htaken (.inl hkind)).trans ?mark),
      fun hkind => hnextState hkind rfl ((htaken (.inr hkind)).trans ?nak)⟩
    case mark => rw [hkind, takeFixed_mark t p pay hrange]
    case nak => rw [hkind, takeFixed_nak]
  case init =>
    exact ⟨fun hactive => hnextState hkind rfl (rx_init_active arrivePkt s p f hactive hkind hgood),
      fun hstate => hnextState hkind rfl (rx_init_exchanging arrivePkt s p f hstate hkind hgood)⟩
  case discarding =>
    have hsame := rx_discarding arrivePkt s p f hactive hmark hnak hinit hd
    exact ⟨fun hkind => hnextState hkind rfl hsame, fun hkind => hnextState hkind rfl hsame⟩
  case error => exact hnextState hkind rfl (rx_error arrivePkt s p f hactive hd hn hkind hbad)

end Sys2Proof.Machine
end

section
/-! Flits that an ACTIVE port sends (R316, R318, R319, R323). -/
namespace Sys2Proof.Machine

section
variable (s : State) (p : Nat)

/-- The port as it sends, and the part with it: the types without credit are noted first (R324). -/
def sending : Link := noteStarved (s.link p) s.now
def sendingState : State := s.setLink p (sending s p)

@[simp] theorem link_sendingState : (sendingState s p).link p = sending s p := State.link_setLink ..

theorem onLink_noteStarved : s.onLink p (fun l => noteStarved l s.now) = sendingState s p := rfl

/-- An IDLE with the six counts of what was freed and the length of the replay buffer. -/
def sendIdle (u : State) : State :=
  (sendSeq u p 1 (leBytes 9 ((List.range 6).foldl (fun n t => n + 2 ^ (12 * t) * ((sending s p).freed.getD t 0 % 4096)) 0)
    ++ leBytes 2 (sending s p).replayBuf.length)).onLink p fun l => { l with run := 0 }
/-- A DATA flit, one more in a row. -/
def sendData (u : State) (f : TxFlit) : State :=
  (sendFlit u p 0 f.seq f.vc f.sop f.eop f.bytes.length f.bytes).onLink p fun l => { l with run := l.run + 1 }
/-- A new flit takes its number, a credit of its type and a place in the replay buffer. -/
def numbered (l : Link) (now i : Nat) (f : TxFlit) : Link :=
  { l with
    waiting := l.waiting.eraseIdx i, credits := l.credits.set f.vc (l.credits.getD f.vc 0 - 1), txSeq := (l.txSeq + 1) % 65536
    replayBuf := l.replayBuf ++ [{ f with seq := l.txSeq }], timerAt := if l.replayBuf = [] then now else l.timerAt }

variable (hactive : (sending s p).state = 3)
include hactive

theorem flitTransmit_nak (hnak : (sending s p).nakDue = true) : flitTransmit s p =
    (sendFixed (sendingState s p) p 3 (leBytes 2 (sending s p).e)).onLink p fun l => { l with nakDue := false, run := 0 } := by
  simp [flitTransmit, onLink_noteStarved, hactive, hnak]

variable (hnoNak : (sending s p).nakDue = false)
include hnoNak

theorem flitTransmit_mark (r : Nat) (hmark : (sending s p).markDue = some r) : flitTransmit s p =
    (sendFixed (sendingState s p) p 2 (leBytes 2 (nextSeq (sending s p)) ++ leBytes 1 r)).onLink p fun l => { l with markDue := none, run := 0 } := by
  simp [flitTransmit, onLink_noteStarved, hactive, hnoNak, hmark]

variable (hnoMark : (sending s p).markDue = none)
include hnoMark

theorem flitTransmit_idleDue (hrun : 47 ≤ (sending s p).run) : flitTransmit s p = sendIdle s p (sendingState s p) := by
  simp [flitTransmit, onLink_noteStarved, hactive, hnoNak, hnoMark, hrun, sendIdle]

variable (hrun : (sending s p).run < 47)
include hrun

theorem flitTransmit_replayed (f : TxFlit) (rest : List TxFlit) (hreplay : (sending s p).replaying = f :: rest) :
    flitTransmit s p = sendData p ((sendingState s p).setLink p { sending s p with replaying := rest }) f := by
  simp [flitTransmit, onLink_noteStarved, hactive, hnoNak, hnoMark, Nat.not_le.mpr hrun, hreplay, sendData]

variable (hreplayed : (sending s p).replaying = [])
include hreplayed

theorem flitTransmit_new (i : Nat) (f : TxFlit) (hroom : (sending s p).replayBuf.length < 1024) (hready : readyFlit (sending s p) = some i)
    (hwaits : (sending s p).waiting[i]? = some f) : flitTransmit s p =
    sendData p ((sendingState s p).setLink p (numbered (sending s p) s.now i f)) { f with seq := (sending s p).txSeq } := by
  simp [flitTransmit, onLink_noteStarved, hactive, hnoNak, hnoMark, Nat.not_le.mpr hrun, hreplayed, Nat.not_le.mpr hroom,
    hready, hwaits, sendData, numbered, sendingState]

theorem flitTransmit_nothing (hnone : 1024 ≤ (sending s p).replayBuf.length ∨ readyFlit (sending s p) = none) :
    flitTransmit s p = sendIdle s p (sendingState s p) := by
  by_cases hfull : 1024 ≤ (sending s p).replayBuf.length
  · simp [flitTransmit, onLink_noteStarved, hactive, hnoNak, hnoMark, Nat.not_le.mpr hrun, hreplayed, hfull, sendIdle]
  · simp [flitTransmit, onLink_noteStarved, hactive, hnoNak, hnoMark, Nat.not_le.mpr hrun, hreplayed, hfull, hnone.resolve_left hfull, sendIdle]

end

theorem exec_flitTransmit {s t : State} {p : Nat} (hp : p < 14) (h : flitTransmit s p = t) : exec (.flitTransmit p) s = .next (intEval t) := by
  rw [← h]
  exact onInst_next _ _ (decide_eq_true hp)

/-- Settles O42: the flit of a slot by the first of what is due, what is replayed and what is new. -/
theorem flitsTransmit : Obligations.FlitsTransmit := by
  intro s p hp hstate l u x
  have hactive : (sending s p).state = 3 := hstate
  refine ⟨fun hnak => ?nak, fun r hnoNak hmark => ?mark, fun f rest hnoNak hnoMark hrun hreplay => ?replayed,
    fun i f hnoNak hnoMark hrun hreplayed hroom hready hwaits => ?new, fun hnoNak hnoMark hidle => ?idle⟩
  case nak => exact exec_flitTransmit hp (flitTransmit_nak s p hactive hnak)
  case mark => exact exec_flitTransmit hp (flitTransmit_mark s p hactive hnoNak r hmark)
  case replayed => exact exec_flitTransmit hp (flitTransmit_replayed s p hactive hnoNak hnoMark hrun f rest hreplay)
  case new => exact exec_flitTransmit hp (flitTransmit_new s p hactive hnoNak hnoMark hrun hreplayed i f hroom hready hwaits)
  case idle =>
    obtain hrun | hrun := Nat.lt_or_ge l.run 47
    · obtain ⟨hreplayed, hnone⟩ := hidle.resolve_left (Nat.not_le.mpr hrun)
      exact exec_flitTransmit hp (flitTransmit_nothing s p hactive hnoNak hnoMark hrun hreplayed hnone)
    · exact exec_flitTransmit hp (flitTransmit_idleDue s p hactive hnoNak hnoMark hrun)

end Sys2Proof.Machine
end

section
/-! The timers and registers of a link, and its going down (R319, R320, R324-R326, R330). -/
namespace Sys2Proof.Machine

section
variable (s : State) (p : Nat)

/-! ## The replay timer (R319, R320) -/

/-- The timer has run out on a link that holds flits. -/
def replayDue (s : State) (p : Nat) : Bool :=
  (s.link p).state = 3 && (s.link p).replayBuf != [] && decide ((s.link p).timerAt + 100 * (s.link p).replayTimer ≤ s.now)

theorem replayDue_iff : replayDue s p = true ↔
    (s.link p).state = 3 ∧ (s.link p).replayBuf ≠ [] ∧ (s.link p).timerAt + 100 * (s.link p).replayTimer ≤ s.now := by
  simp [replayDue, and_assoc]

theorem exec_replayTimerExpiry (hp : p < 14) :
    exec (.replayTimerExpiry p) s = .next (intEval (if replayDue s p then startReplay s p 0 else s)) := onInst_next _ _ (decide_eq_true hp)

/-- Below the limit a replay resends all that is held, after a mark with its REASON. -/
theorem startReplay_held (reason : Nat) (hheld : (s.link p).replayBuf ≠ []) (hfew : (s.link p).replayCnt + 1 < (s.link p).replayLimit) :
    startReplay s p reason = s.setLink p (bumpReplays { s.link p with
      replaying := (s.link p).replayBuf, markDue := some reason, timerAt := s.now, replayCnt := (s.link p).replayCnt + 1 }) := by
  simp [startReplay, hheld, Nat.not_le.mpr hfew]

/-! ## Credit, INIT and HOLDOFF (R324-R326) -/

theorem exec_creditTimeout (ty t : Nat) (hp : p < 14) (hty : ty < 6) (hactive : (s.link p).state = 3)
    (hstarved : (s.link p).starved.getD ty none = some t) :
    exec (.creditTimeout p ty) s = .next (intEval (if t + 1000 * (s.link p).creditToUs ≤ s.now then linkDown s p 0 else s)) := by
  change execCreditTimeout p ty s = _
  simp only [execCreditTimeout, hstarved, hactive, decide_true, Bool.true_and, decide_eq_true_eq]
  exact onInst_next _ _ (Bool.and_eq_true_iff.mpr ⟨decide_eq_true hp, decide_eq_true hty⟩)

theorem exec_initTimer (hp : p < 14) (hinit : (s.link p).state = 2) : exec (.initTimer p) s = .next (intEval
    (if (s.link p).initAt + 1000 ≤ s.now then sendInit (s.setLink p { s.link p with initAt := s.now }) p else s)) := by
  change execInitTimer p s = _
  simp only [execInitTimer, hinit, decide_true, Bool.true_and, decide_eq_true_eq]
  exact onInst_next _ _ (decide_eq_true hp)

theorem exec_holdoffEnd (hp : p < 14) : exec (.holdoffEnd p) s = .next (intEval (holdoffEnd s p)) := onInst_next _ _ (decide_eq_true hp)

theorem holdoffEnd_early (hearly : s.now < (s.link p).holdAt + 1000000000) : holdoffEnd s p = s := by
  have hms : s.now < (s.link p).holdAt + ms 1000 := hearly
  simp [holdoffEnd, hms]

theorem holdoffEnd_over (hhold : (s.link p).state = 5) (hover : (s.link p).holdAt + 1000000000 ≤ s.now) : holdoffEnd s p =
    (if (s.lanePort p).tstate = 0 && 2 ≤ (lanesWhere (s.lanePort p) (·.signal)).length then detectStart (s.setLink p { s.link p with state := 0 }) p
      else s.setLink p { s.link p with state := 0 }) := by
  have hms : ¬ s.now < (s.link p).holdAt + ms 1000 := Nat.not_lt.mpr hover
  simp only [holdoffEnd, hhold, hms, bne_self_eq_false, decide_false, Bool.or_self, Bool.false_eq_true, if_false]
  rfl

/-! ## Commands and retrains (R325, R354) -/

theorem exec_rflCtrl {i : Instr} {t : State} (hp : p < 14) (hopen : barWrite s 0x20 = true)
    (hrow : exec i s = onInst (decide (p < 14)) (onBar s 0x20 t)) : exec i s = .next (intEval t) := by
  rw [hrow, onInst_next _ _ (decide_eq_true hp), onBar_open s t _ hopen]

theorem exec_retrainTimeout (hp : p < 14) (hstate : (s.link p).state = 4) (hretrain : (s.lanePort p).retrain = true) :
    exec (.retrainTimeout p) s = .next (intEval (if (s.link p).retrainAt + 5000000 ≤ s.now then linkDown s p 7 else s)) := by
  change execRetrainTimeout p s = _
  simp only [execRetrainTimeout, hstate, hretrain, decide_true, Bool.true_and, decide_eq_true_eq]
  exact onInst_next _ _ (decide_eq_true hp)

/-! ## Going down (R330) -/

theorem lanePort_setLanePort_other (q : Nat) (x : PortLanes) (h : q ≠ p) : (s.setLanePort p x).lanePort q = s.lanePort q := by
  simp [State.lanePort, State.setLanePort, tabGet_tabSet_other _ _ _ _ _ h]
@[simp] theorem link_setLanePort (q : Nat) (x : PortLanes) : (s.setLanePort p x).link q = s.link q := rfl
@[simp] theorem lanePort_setLink (q : Nat) (x : Link) : (s.setLink p x).lanePort q = s.lanePort q := rfl

variable (cause : Nat)

@[simp] theorem link_lanesOff (q : Nat) : (lanesOff s p cause).link q = s.link q := rfl
theorem lanePort_lanesOff_other (q : Nat) (h : q ≠ p) : (lanesOff s p cause).lanePort q = s.lanePort q := lanePort_setLanePort_other s p q _ h
theorem lanePort_lanesOff : ((lanesOff s p cause).lanePort p).tstate = 0 ∧ ((lanesOff s p cause).lanePort p).failCause = cause := by
  simp [lanesOff]

theorem linkDown_idle (h : (s.link p).state = 0 ∨ (s.link p).state = 5) : linkDown s p cause = s := by
  obtain h | h := h <;> simp [linkDown, linkDownBy, h]
/-- A port in training has no packets and no ranks: its lanes go off, and its link waits in HOLDOFF with nothing in its buffers. -/
theorem linkDown_training (htraining : (s.link p).state = 1) : ∃ u, linkDown s p cause = (lanesOff s p cause).setLink p u ∧
    u.state = 5 ∧ u.holdAt = s.now ∧ u.replayBuf = [] ∧ u.waiting = [] := by
  simp only [linkDown, linkDownBy, htraining]
  exact ⟨_, rfl, rfl, rfl, rfl, rfl⟩

end

/-- Settles O43: each timer by whether its moment has come, each register by its row, and the going down by the state of the link. -/
theorem linkTimersRun : Obligations.LinkTimersRun := by
  refine ⟨fun s p ty t hp => ⟨fun hactive hheld hdue => ?replay, fun hidle => ?replayIdle, fun hty hactive hstarved => ?credit,
      fun hinit hdue => ?init, fun hinit hearly => ?initEarly, fun hhold hover => ?holdoff, fun _ hearly => ?holdoffEarly,
      fun hopen => ?registers, fun hstate hretrain => ?retrain⟩,
    fun s p cause => ⟨fun hdown => linkDown_idle s p cause hdown, fun htraining => ?training⟩⟩
  case replay =>
    have hdue : replayDue s p = true := (replayDue_iff s p).mpr ⟨hactive, hheld, hdue⟩
    have hstart : exec (.replayTimerExpiry p) s = .next (intEval (startReplay s p 0)) := by rw [exec_replayTimerExpiry s p hp, if_pos hdue]
    exact ⟨hstart, fun hfew => by rw [hstart, startReplay_held s p 0 hheld hfew]⟩
  case replayIdle =>
    have hidle : ¬ replayDue s p = true := fun hdue => by
      obtain ⟨-, hheld, hlate⟩ := (replayDue_iff s p).mp hdue
      exact hidle.elim hheld (Nat.not_lt.mpr hlate)
    rw [exec_replayTimerExpiry s p hp, if_neg hidle]
  case credit =>
    have hrow := exec_creditTimeout s p ty t hp hty hactive hstarved
    exact ⟨fun hdue => by rw [hrow, if_pos hdue], fun hearly => by rw [hrow, if_neg (Nat.not_le.mpr hearly)]⟩
  case init => rw [exec_initTimer s p hp hinit, if_pos hdue]
  case initEarly => rw [exec_initTimer s p hp hinit, if_neg (Nat.not_le.mpr hearly)]
  case holdoff =>
    rw [exec_holdoffEnd s p hp, holdoffEnd_over s p hhold hover]
    exact ⟨fun hfew => by simp [Nat.not_le.mpr hfew], fun hoff hseen => by simp [hoff, hseen]⟩
  case holdoffEarly => rw [exec_holdoffEnd s p hp, holdoffEnd_early s p hearly]
  case registers => exact ⟨exec_rflCtrl s p hp hopen rfl, exec_rflCtrl s p hp hopen rfl, exec_rflCtrl s p hp hopen rfl⟩
  case retrain =>
    have hrow := exec_retrainTimeout s p hp hstate hretrain
    exact ⟨fun hdue => by rw [hrow, if_pos hdue], fun hearly => by rw [hrow, if_neg (Nat.not_le.mpr hearly)]⟩
  case training =>
    obtain ⟨u, hdown, hstate, hat, hbuf, hwaits⟩ := linkDown_training s p cause htraining
    obtain ⟨hoff, hcause⟩ := lanePort_lanesOff s p cause
    rw [hdown, State.link_setLink]
    exact ⟨hstate, hat, hbuf, hwaits, hoff, hcause, fun q hq => ⟨State.link_setLink_other _ p q u hq, lanePort_lanesOff_other s p cause q hq⟩⟩

end Sys2Proof.Machine
end

section
/-! Routing requests, drains and remote reads (R337-R343). -/
namespace Sys2Proof.Machine

section
variable (s : State)

/-! ## What the routing requests leave of the member's place in its pair -/

@[simp] theorem shadowed_mir (f : Fabric) : (shadowed f s).mir = s.mir := by
  unfold shadowed
  (repeat' split) <;> rfl
@[simp] theorem rankSet_mir (r : Nat) (e : BitVec 192) : (rankSet s r e).2.2.mir = s.mir := by
  unfold rankSet
  extract_lets
  (repeat' split) <;> simp
@[simp] theorem rankClear_mir (r : Nat) : (rankClear s r).2.2.mir = s.mir := by
  unfold rankClear
  (repeat' split) <;> simp
@[simp] theorem cktSet_mir (p i : Nat) (e : BitVec 192) : (cktSet s p i e).2.2.mir = s.mir := by
  unfold cktSet
  extract_lets
  (repeat' split) <;> simp
@[simp] theorem cktClear_mir (p i : Nat) : (cktClear s p i).2.2.mir = s.mir := by
  unfold cktClear
  split <;> simp
@[simp] theorem selfRank_mir (r : Nat) : (selfRank s r).2.2.mir = s.mir := by
  unfold selfRank
  split <;> rfl

/-! ## ROUTE_COMMIT and its drain (R343) -/

section
variable (sess : Option Nat) (hadmin : adminTakes s sess = true)
include hadmin

theorem exec_routeCommit_begins (hfree : s.fab.drain = none) : exec (.routeCommit sess) s = .next (intEval { s with fab := { s.fab with
    drain := some { ranks := changedRanks s, since := s.now, back := false, via := framed sess } } }) := by
  obtain ⟨hserves, hidle, hauth, -⟩ := (adminTakes_iff s sess).mp hadmin
  change execRouteCommit sess s = _
  simp [execRouteCommit, done, hserves, hidle, hauth, hfree]
theorem exec_routeCommit_busy (d : Drain) (hdrain : s.fab.drain = some d) :
    exec (.routeCommit sess) s = .next (intEval (respond s (framed sess) 0x54 rBUSY)) := by
  obtain ⟨hserves, hidle, hauth, -⟩ := (adminTakes_iff s sess).mp hadmin
  change execRouteCommit sess s = _
  simp [execRouteCommit, done, hserves, hidle, hauth, hdrain]

end

section
variable {d : Drain} (hdrain : s.fab.drain = some d)
include hdrain

theorem drainComplete_waits (hleft : drained s d = false) : drainComplete s = s := by simp [drainComplete, hdrain, hleft]

variable (hcommit : d.back = false)
include hcommit

theorem drainComplete_publishes (hdrained : drained s d = true) :
    drainComplete s = nextBack (respond (routePublish s) d.via 0x54 rSUCCESS) := by simp [drainComplete, hdrain, hdrained, hcommit]
theorem drainTimeout_late (hlate : d.since + 1000 * s.fab.drainUs ≤ s.now) :
    drainTimeout s = nextBack (respond (releaseHeld s) d.via 0x54 rBUSY) := by
  have hlate : ¬ s.now < d.since + us s.fab.drainUs := Nat.not_lt.mpr hlate
  simp [drainTimeout, hdrain, hcommit, hlate]

end

theorem exec_rankMoveBackRetry_due (r t : Nat) (hretry : tabFind s.fab.retryBack r = some t) (hdue : t + 1000000000 ≤ s.now) :
    exec (.rankMoveBackRetry r) s = .next (intEval (nextBack { s with fab := { s.fab with retryBack := tabDel s.fab.retryBack r } })) := by
  have hdue : t + ms 1000 ≤ s.now := hdue
  change execRankMoveBackRetry r s = _
  simp only [execRankMoveBackRetry, done, hretry, hdue, if_true]

/-! ## Remote reads (R341) -/

variable {k r t txn : Nat} (hread : tabFind s.work.rrds txn = some (k, r, t))
include hread

theorem rrdData_arrives (bs : List Byte) (hlen : bs.length = 4096) : rrdData s r txn bs =
    { s with work := { s.work with rrds := tabDel s.work.rrds txn, remote := tabIns s.work.remote k bs } } := by
  simp [rrdData, hread, hlen]
theorem rrdData_stranger (src : Nat) (bs : List Byte) (hsrc : src ≠ r) : rrdData s src txn bs = s := by
  simp [rrdData, hread, Ne.symm hsrc]
theorem rrdErr_ends : rrdErr s r txn = rrdFail s txn := by simp [rrdErr, hread]
theorem exec_rrdTimeout : exec (.rrdTimeout txn) s = .next (intEval (if t + 1000 * s.fab.rrdToUs ≤ s.now then rrdFail s txn else s)) := by
  change execRrdTimeout txn s = _
  simp only [execRrdTimeout, hread]
  rfl

end

/-- Settles O44: each request by what it answers on a part that stays outside a pair, each drain by whether it is done, and each answer to a
remote read by the rank that was asked. -/
theorem routingAndRemoteReads : Obligations.RoutingAndRemoteReads := by
  refine ⟨fun s sess d => ⟨fun hadmin => ?requests, fun hdrain hcommit => ?drain,
      fun r t hretry hdue => exec_rankMoveBackRetry_due s r t hretry hdue⟩,
    fun s k r t txn bs code hread => ?remote⟩
  case requests =>
    have hrow (req : Nat) (f : State → Nat × List Byte × State) (hsolo : (f s).2.2.mir.state = s.mir.state) :=
      congrArg done (secRequest_solo s sess req none f hadmin hsolo)
    exact ⟨fun r e => hrow 0x50 _ (by simp), fun r => hrow 0x51 _ (by simp), fun p i e => hrow 0x52 _ (by simp), fun p i => hrow 0x53 _ (by simp),
      fun r => hrow 0x55 _ (by simp), exec_routeCommit_begins s sess hadmin, exec_routeCommit_busy s sess hadmin d⟩
  case drain =>
    exact ⟨fun hdrained => congrArg done (drainComplete_publishes s hdrain hcommit hdrained),
      fun hleft => congrArg done (drainComplete_waits s hdrain hleft), fun hlate => congrArg done (drainTimeout_late s hdrain hcommit hlate)⟩
  case remote =>
    have htimeout := exec_rrdTimeout s hread
    exact ⟨fun hlen => congrArg done (rrdData_arrives s hread bs hlen), fun src hsrc => congrArg done (rrdData_stranger s hread src bs hsrc),
      congrArg done (rrdErr_ends s hread), fun hdue => by rw [htimeout, if_pos hdue],
      fun hearly => by rw [htimeout, if_neg (Nat.not_le.mpr hearly)]⟩

end Sys2Proof.Machine
end

section
/-! Lanes in service, and the loop-backs of a port (R327, R328, R349-R352, R355-R358). -/
namespace Sys2Proof.Machine

/-! ## What is written twice -/

theorem tabIns_tabIns {α : Type} (t : Tab α) (k : Nat) (v w : α) : tabIns (tabIns t k v) k w = tabIns t k w := by
  induction t with
  | nil => simp [tabIns]
  | cons e t ih =>
    obtain ⟨i, x⟩ := e
    by_cases hbefore : k < i
    · simp [tabIns, hbefore]
    · by_cases hat : i = k <;> simp [tabIns, hbefore, hat, ih]
theorem tabDel_tabIns {α : Type} (t : Tab α) (k : Nat) (v : α) : tabDel (tabIns t k v) k = tabDel t k := by
  induction t with
  | nil => simp [tabIns, tabDel]
  | cons e t ih =>
    obtain ⟨i, x⟩ := e
    by_cases hbefore : k < i
    · simp [tabIns, tabDel, hbefore]
    · by_cases hat : i = k <;> simp [tabIns, tabDel, hbefore, hat, ih]
/-- Of two writes at one index the second counts, where the first lists its value. -/
theorem tabSet_tabSet {α : Type} [DecidableEq α] (d : α) (t : Tab α) (k : Nat) (v w : α) (hv : v ≠ d) :
    tabSet d (tabSet d t k v) k w = tabSet d t k w := by
  simp only [tabSet, if_neg hv, tabIns_tabIns, tabDel_tabIns]

section
variable (s : State) (p n : Nat)

theorem setLanePort_setLanePort (x y : PortLanes) (hx : x.tstate ≠ 0) : (s.setLanePort p x).setLanePort p y = s.setLanePort p y := by
  have hlisted : x ≠ {} := fun h => hx (congrArg PortLanes.tstate h)
  simp only [State.setLanePort, tabSet_tabSet _ _ _ _ _ hlisted]
@[simp] theorem setLane_now (l : Lane) : (s.setLane p n l).now = s.now := rfl
@[simp] theorem lane_setLane (l : Lane) : (s.setLane p n l).lane p n = l := by simp [State.lane, State.setLane]
@[simp] theorem lanePort_setLane (l : Lane) : (s.setLane p n l).lanePort p = { s.lanePort p with lanes := tabSet {} (s.lanePort p).lanes n l } := by
  simp [State.setLane]

variable (hup : (s.lanePort p).tstate ≠ 0)
include hup

theorem setLane_setLane (l m : Lane) (hl : l.locked = true) : (s.setLane p n l).setLane p n m = s.setLane p n m := by
  have hlisted : l ≠ {} := fun h => by simp [h] at hl
  rw [State.setLane, lanePort_setLane, tabSet_tabSet _ _ _ _ _ hlisted]
  exact setLanePort_setLanePort s p _ _ hup
/-- What leaves the rest of the port as it is leaves the state as it is. -/
theorem setLane_onPort_same (l : Lane) (f : PortLanes → PortLanes)
    (hf : ∀ lanes, f { s.lanePort p with lanes := lanes } = { s.lanePort p with lanes := lanes }) :
    (s.setLane p n l).onPort p f = s.setLane p n l := by
  rw [State.onPort, lanePort_setLane, hf]
  exact setLanePort_setLanePort s p _ _ hup

end

/-- A counter that does not overflow counts what is added, and no bit of its port is set (R491). -/
theorem satAdd_fits (w x y : Nat) (h : x + y < 2 ^ w) : satAdd w x y = x + y := by rw [satAdd]; omega
theorem satOvf_fits (w x y : Nat) (h : x + y < 2 ^ w) : satOvf w x y = false := by simp [satOvf]; omega


section
variable (s : State) (p n : Nat)

/-! ## Register marks (R349-R352) -/

/-- A lane after its last mark. -/
def Lane.marked (l : Lane) (no : Nat) : Lane := { l with markNo := some no, badMarks := 0, locked := true }

theorem exec_registerMark (sy : List (BitVec 10)) (check : MarkCheck) (hp : p < 14) (hn : n < 9) : exec (.registerMark p n sy check) s =
    .next (intEval (countSer (registerMark s p n sy check.matched) p n check.corrected)) :=
  onInst_next _ _ (Bool.and_eq_true_iff.mpr ⟨decide_eq_true hp, decide_eq_true hn⟩)

@[simp] theorem countSer_zero : countSer s p n 0 = s := by simp [countSer]

/-- Symbols corrected on a lane in service, none of the 1 ms before among them, within the limit. -/
theorem countSer_first (k : Nat) (hdone : (s.lanePort p).tstate = 8) (hpos : 0 < k)
    (hlimit : k ≤ 2 ^ (s.lanePort p).serLog2) (hold : ∀ e ∈ (s.lane p n).ser, e.1 + 1000000 ≤ s.now) (hfits : (s.lane p n).ce + k < 2 ^ 32) :
    countSer s p n k = s.setLane p n { s.lane p n with ce := (s.lane p n).ce + k, ser := [(s.now, k)] } := by
  have hrecent : (s.lane p n).ser.filter (fun e => decide (s.now < e.1 + ms 1)) = [] :=
    List.filter_eq_nil_iff.mpr fun e he => by simpa [ms] using hold e he
  have hnoOvf := setLane_onPort_same s p n (by omega) { s.lane p n with ce := (s.lane p n).ce + k, ser := [(s.now, k)] }
    (fun x => { x with ovf := x.ovf ||| BitVec.ofNat 5 (flag false 3) }) fun _ => by simp [flag]
  simp only [countSer, hrecent, satAdd_fits _ _ _ hfits, satOvf_fits _ _ _ hfits, hnoOvf]
  simp [hdone, Nat.ne_of_gt hpos, Nat.not_lt.mpr hlimit]

/-- The same of symbols corrected at a mark that has just been taken. -/
theorem countSer_marked (l : Lane) (k : Nat) (hdone : (s.lanePort p).tstate = 8) (hlocked : l.locked = true) (hpos : 0 < k)
    (hlimit : k ≤ 2 ^ (s.lanePort p).serLog2) (hold : ∀ e ∈ l.ser, e.1 + 1000000 ≤ s.now) (hfits : l.ce + k < 2 ^ 32) :
    countSer (s.setLane p n l) p n k = s.setLane p n { l with ce := l.ce + k, ser := [(s.now, k)] } := by
  rw [countSer_first _ p n k (by rwa [lanePort_setLane]) hpos (by rwa [lanePort_setLane]) (by rwa [lane_setLane]) (by rwa [lane_setLane]),
    lane_setLane, setLane_now, setLane_setLane s p n (by omega) _ _ hlocked]

section
variable (sy : List (BitVec 10)) (hdone : (s.lanePort p).tstate = 8) (hdata : (s.lane p n).logical ≠ 15)
include hdone hdata

theorem registerMark_unmatched : registerMark s p n sy false = registerMark.markError s p n (s.lane p n) := by
  cases hmark : markOf (linkLanes (s.link p)) (s.lane p n) sy <;> simp [registerMark, hdone, hdata, hmark]
theorem registerMark_accepted (no : Nat) (hzone : (s.lane p n).logical ≠ 0) (hmoving : (s.lanePort p).moving = none)
    (hmark : markOf (linkLanes (s.link p)) (s.lane p n) sy = some no) :
    registerMark s p n sy true = s.setLane p n ((s.lane p n).marked no) := by
  simp [registerMark, hdone, hdata, hzone, hmoving, hmark, Lane.marked]

end

/-! ## The failure of a lane that carries no data (R327, R352) -/

theorem exec_laneFailure (cause : Nat) (hp : p < 14) (hn : n < 9) (h1 : 1 ≤ cause) (h4 : cause ≤ 4) :
    exec (.laneFailure p n cause) s = .next (intEval (failLane s p n cause)) :=
  onInst_next _ _ (by simp [hp, hn, h1, h4])
theorem failLane_spare (cause : Nat) (hactive : (s.link p).state = 3) (hsound : (s.lane p n).failed = false) (hspare : (s.lane p n).logical = 15) :
    failLane s p n cause = corrected ((s.setLane p n { s.lane p n with
        failed := true, cause := cause, locked := false, signal := (s.lane p n).signal && cause != 1 }).onPort p fun y =>
      { y with lanesOk := (s.lanePort p).lanesOk &&& ~~~(BitVec.ofNat 9 (2 ^ n)) }) (unitOf 0xA p) 0x08 0 0 := by
  simp [failLane, hactive, hsound, hspare]

/-! ## The PRBS checkers (R358) -/

theorem exec_prbsCheckerLock_counts (e : Nat) (hp : p < 14) (hn : n < 9) (hloop : (s.lanePort p).tstate = 9) (hchk : (s.lane p n).chk = true)
    (hpat : (s.lane p n).pat ≠ 0) (hfits : (s.lane p n).prbsErr + e < 2 ^ 32) : exec (.prbsCheckerLock p { lane := n, errors := e }) s =
    .next (intEval (s.setLane p n { s.lane p n with chkLock := true, prbsErr := (s.lane p n).prbsErr + e })) := by
  have hnoOvf := setLane_onPort_same s p n (by omega) { s.lane p n with chkLock := true, prbsErr := (s.lane p n).prbsErr + e }
    (fun x => { x with ovf := x.ovf ||| BitVec.ofNat 5 (flag false 4) }) fun _ => by simp [flag]
  change execPrbsCheckerLock p { lane := n, errors := e } s = _
  simp only [execPrbsCheckerLock, satAdd_fits _ _ _ hfits, satOvf_fits _ _ _ hfits, hnoOvf]
  simp [onInst, done, hp, hn, hloop, hchk, hpat]

/-! ## Loop-backs (R355-R357) -/

/-- A row of a MODE writes `LNE_PORT_LB` where the window is open. -/
theorem exec_loopback {i : Instr} {mode : Nat} {v : W32} (hp : p < 14) (hopen : barWrite s 0x30 = true) (hmode : v.toNat % 4 = mode)
    (hrow : exec i s = onInst (decide (p < 14)) (if v.toNat % 4 = mode then onBar s 0x30 (lbWrite s p v.toNat) else s)) :
    exec i s = .next (intEval (lbWrite s p v.toNat)) := by
  rw [hrow, onInst_next _ _ (decide_eq_true hp), if_pos hmode, onBar_open s _ _ hopen]

variable (v : Nat)

theorem lbWrite_near (hmode : v % 4 = 1 ∨ v % 4 = 2) (hoff : (s.lanePort p).tstate = 0) : lbWrite s p v =
    enter ((s.setLanePort p { s.lanePort p with lbRung := v / 4 % 4, lbMode := v % 4, lbState := 1, rung := v / 4 % 4 }).onLink p
      fun l => { l with state := 1 }) p 9 := by
  obtain hmode | hmode := hmode <;> simp [lbWrite, hmode, hoff, field]
theorem lbWrite_far (hmode : v % 4 = 3) (hoff : (s.lanePort p).tstate = 0) :
    lbWrite s p v = s.setLanePort p { s.lanePort p with lbRung := v / 4 % 4, lbMode := 3 } := by
  simp [lbWrite, hmode, hoff, field]
theorem lbWrite_leaves (hmode : v % 4 = 0) (hloop : (s.lanePort p).tstate = 9) (hown : (s.lanePort p).lbState = 1) :
    lbWrite s p v = linkDown (s.setLanePort p { s.lanePort p with lbRung := v / 4 % 4 }) p 0 := by
  simp [lbWrite, hmode, hloop, hown, field]
theorem lbWrite_cancels (hmode : v % 4 = 0) (hoff : (s.lanePort p).tstate = 0) :
    lbWrite s p v = s.setLanePort p { s.lanePort p with lbRung := v / 4 % 4, lbMode := 0 } := by
  simp [lbWrite, hmode, hoff, field]

theorem exec_farEndSignalLoss_serving (hp : p < 14) (hloop : (s.lanePort p).tstate = 9) (hserves : (s.lanePort p).lbState = 2) :
    exec (.farEndSignalLoss p) s = .next (intEval (linkDown s p 0)) := by
  change execFarEndSignalLoss p s = _
  simp [execFarEndSignalLoss, onInst, done, hp, hloop, hserves]

end

/-- Settles O46: a mark by whether it is right and matched, a failure by the lane's part in the link, and a loop-back by its MODE and the state of
the port. -/
theorem lanesInServiceAndLoopbacks : Obligations.LanesInServiceAndLoopbacks := by
  refine ⟨fun s p n sy no hp hn => ⟨fun hdone hzone hdata hmoving hmark => ?mark, fun hdone hdata => ?unmatched,
      fun cause h1 h4 => exec_laneFailure s p n cause hp hn h1 h4,
      fun cause hactive hsound hspare => failLane_spare s p n cause hactive hsound hspare,
      fun e hloop hchk hpat hfits => exec_prbsCheckerLock_counts s p n e hp hn hloop hchk hpat hfits⟩,
    fun s p v hp hopen => ⟨fun hmode hoff => ?near, fun hmode hoff => ?far, fun hmode hloop hown => ?leaves, fun hmode hoff => ?cancels,
      fun hloop hserves => exec_farEndSignalLoss_serving s p hp hloop hserves⟩⟩
  case mark =>
    have haccepted := registerMark_accepted s p n sy hdone hdata no hzone hmoving hmark
    refine ⟨?alone, fun k hpos hlimit hold hfits => ?corrected⟩
    case alone =>
      rw [exec_registerMark s p n sy _ hp hn, haccepted, countSer_zero]
      rfl
    case corrected =>
      rw [exec_registerMark s p n sy _ hp hn, haccepted, countSer_marked s p n ((s.lane p n).marked no) k hdone rfl hpos hlimit hold hfits]
      rfl
  case unmatched => rw [exec_registerMark s p n sy _ hp hn, registerMark_unmatched s p n sy hdone hdata, countSer_zero]
  case near =>
    have hwrite := lbWrite_near s p v.toNat hmode hoff
    exact ⟨fun hmode => by rw [exec_loopback s p hp hopen hmode rfl, hwrite], fun hmode => by rw [exec_loopback s p hp hopen hmode rfl, hwrite]⟩
  case far => rw [exec_loopback s p hp hopen hmode rfl, lbWrite_far s p v.toNat hmode hoff]
  case leaves => rw [exec_loopback s p hp hopen hmode rfl, lbWrite_leaves s p v.toNat hmode hloop hown]
  case cancels => rw [exec_loopback s p hp hopen hmode rfl, lbWrite_cancels s p v.toNat hmode hoff]

end Sys2Proof.Machine
end

section
/-! The interrupt line and its message (R481, R483), and a step of the queue (log 1). -/
namespace Sys2Proof.Machine

/-! ## Steps -/

theorem step_empty (s : State) : step { s with pending := [] } = .next { s with pending := [], now := s.now + 1 } := rfl
theorem step_front (s : State) (c : Instr) (rest : List Instr) : step { s with pending := c :: rest } = exec c { s with pending := rest } := rfl

/-- Settles O1: a step goes by the front of its queue. -/
theorem stepTakesCommandsInOrder : Obligations.StepTakesCommandsInOrder := ⟨step_front, step_empty⟩

/-! ## INT_N (R481) -/

/-- A row that ends by `onInst` ends with the cause tree evaluated. -/
theorem intDriven_of_endsOnInst {wf : Bool} {o : Host.Outcome State Fault Refusal} {t : State} (h : endsOnInst wf o) (ho : o = .next t) :
    intDriven t := by
  obtain ⟨ok, u, rfl, -⟩ := h
  exact intDriven_onInst ok u t ho
theorem exec_resync_next {s t : State} {ppa : W64} {bytes : List Byte} (h : exec (.resynchronisationData ppa bytes) s = .next t) :
    t = intEval (resyncData s ppa.toNat bytes) := by
  change execResynchronisationData ppa bytes s = _ at h
  unfold execResynchronisationData at h
  split at h
  case isTrue => exact done_cases _ t h
  case isFalse => exact nomatch h
/-- Every row that goes on leaves the line as R481 says, from whatever state. -/
theorem intDriven_exec (i : Instr) (s t : State) (h : exec i s = .next t) : intDriven t := by
  by_cases hr : ∃ ppa bytes, i = .resynchronisationData ppa bytes
  · obtain ⟨ppa, bytes, rfl⟩ := hr
    rw [exec_resync_next h]
    exact intDriven_intEval _
  · exact intDriven_of_endsOnInst (exec_endsOnInst i s fun ppa bytes h => hr ⟨ppa, bytes, h⟩) h

/-- Time enters neither the cause tree nor FAILED. -/
theorem intDriven_idle {s : State} (h : intDriven s) (n : Nat) : intDriven { s with now := n } := h

/-- Settles O2: a row ends with the cause tree evaluated, and an idle nanosecond changes no cause. -/
theorem everyStepKeepsIntN : Obligations.EveryStepKeepsIntN := by
  intro s t hs hstep
  unfold step at hstep
  split at hstep
  case h_1 =>
    cases hstep
    exact intDriven_idle hs _
  case h_2 c rest _ => exact intDriven_exec c _ t hstep

/-- Settles O3: no cause stands at reset. -/
theorem intNAtReset : Obligations.IntNAtReset := by
  unfold Obligations.IntNAtReset intDriven
  decide

/-! ## The interrupt message (R483) -/

theorem intEval_out (s : State) :
    (intEval s).out = s.out ++ (if s.intr.msixEn && s.intr.wasZero && intMasked s then [.msix 0 s.intr.vec] else []) := by
  simp only [intEval]
  split <;> simp
/-- What enters the cause tree and INT_N: two parts with the same summary, mask and state FAILED drive the same pins. -/
theorem intEval_pins_msixEn (s : State) (en : Bool) : (intEval { s with intr := { s.intr with msixEn := en } }).pins = (intEval s).pins := rfl
/-- Where the line stands as R481 says, its evaluation changes no pin and sends nothing. -/
theorem intEval_pins_of_intDriven {s : State} (h : intDriven s) : (intEval s).pins = s.pins := by
  simp only [intEval, ← h.1]
theorem intEval_out_of_wasZero {s : State} (h : s.intr.wasZero = !intMasked s) : (intEval s).out = s.out := by
  simp [intEval_out, h]

/-- The configuration that a write of REARM sets enters neither the summary nor its mask. -/
theorem intDriven_intCfg {s : State} (h : intDriven s) (v : Nat) : intDriven (intCfg s v) := by
  unfold intCfg
  dsimp only
  split <;> exact h
theorem intCfg_pins (s : State) (v : Nat) : (intCfg s v).pins = s.pins := by
  unfold intCfg
  dsimp only
  split <;> rfl
/-- REARM is bit 0 of its word: the enable and the vector are those of the value written. -/
theorem bitOf_rearmWord (v : W32) (i : Nat) : bitOf (v ||| 1).toNat (i + 1) = bitOf v.toNat (i + 1) := by
  simp only [bitOf, Nat.pow_succ', ← Nat.div_div_eq_div_mul, enableWord_half]
theorem field_rearmWord (v : W32) (hi lo : Nat) : field (v ||| 1).toNat hi (lo + 1) = field v.toNat hi (lo + 1) := by
  simp only [field, Nat.pow_succ', ← Nat.div_div_eq_div_mul, enableWord_half]
/-- A write with REARM set sends a message where the masked summary is not 0 and MSI-X is enabled by it. -/
theorem intCfg_rearm_out (s : State) (v : W32) :
    (intCfg s (v ||| 1).toNat).out = s.out ++ (if bitOf v.toNat 31 && intMasked s then [.msix 0 (field v.toNat 30 21)] else []) := by
  simp only [intCfg, bitOf_enableWord, bitOf_rearmWord v 30, field_rearmWord v 30 20, Bool.true_and]
  change (if bitOf v.toNat 31 && intMasked s then _ else _ : State).out = _
  split <;> simp [State.send]

/-- Settles O59: the evaluation by its guard, and a write of REARM by what it sends itself, after which the evaluation sends nothing. -/
theorem interruptMessages : Obligations.InterruptMessages := by
  intro s v en
  refine ⟨intEval_out s, intEval_pins_msixEn s en, fun hopen hs => ⟨_, exec_msixRearm_open s v hopen, ?pins, ?out⟩⟩
  case pins => rw [intEval_pins_of_intDriven (intDriven_intCfg hs _), intCfg_pins]
  case out => rw [intEval_out_of_wasZero (intDriven_intCfg hs _).2, intCfg_rearm_out]

end Sys2Proof.Machine
end

section
/-! The commands of a mirrored pair (R392, R393, R415, R416), and those of firmware and of energy budgets (R454-R456, R467). -/
namespace Sys2Proof.Machine

section
variable (t : State) (k : Nat) (y : Cmd) (h : t.cmd k = some y)

/-! ## The pair (R392) -/

/-- The active of a new pair with the partner that the command names, not yet in step. -/
def paired (u : State) (y : Cmd) : State :=
  u.onMir fun m => { m with
    state := 1, partner := BitVec.ofNat 64 (y.par 16 8), inStep := false, cause := 0, broken := false, seq := 0, acked := 0, curInt := 0,
    intervals := [], tokens := [], copies := [], due := [], cohCopies := [], disputed := [], digesting := [], divTimes := [],
    formedAt := u.now, watermark := none, cutHold := none, lastRec := u.now, lastEdge := max m.lastEdge u.now }

include h in
theorem pairFormAct_eq : pairFormAct t k = ownResync (releaseTokens (paired (settle (finish t k stOK)).bump y)) := by
  simp only [pairFormAct, h, paired]

/-! ## Firmware (R454-R456) -/

include h in
theorem fwStageAct_copies (hok : t.hostFails (y.par 16 8) (y.par 28 4) = false) :
    fwStageAct t k = settle (finish { t with fw := { t.fw with
      staging := memPutL t.fw.staging (y.par 24 4) (t.hostRead (y.par 16 8) (y.par 28 4)) } } k stOK) := by
  simp [fwStageAct, h, hok]
include h in
theorem fwCommitAct_eq : fwCommitAct t k =
    settle (finish { t with fw := { t.fw with state := 1, error := 0, totalLen := y.par 16 4, programmed := 0 } } k stOK) := by
  simp only [fwCommitAct, h]

/-- What an activation leaves: the slot preferred, and a STAGED one TRIAL with three tries. -/
def activated (x : Nat) : State :=
  { t with fw := { t.fw with
    preferred := x, slotState := if t.fw.slotState.getD x 0 = 1 then t.fw.slotState.set x 2 else t.fw.slotState
    tries := if t.fw.slotState.getD x 0 = 1 then t.fw.tries.set x 3 else t.fw.tries } }

theorem fwMayActivate_iff (x : Nat) :
    fwMayActivate t x = true ↔ fwBusy t = false ∧ (t.fw.slotState.getD x 0 = 1 ∨ t.fw.slotState.getD x 0 = 3) := by
  simp [fwMayActivate]
include h in
theorem fwActivateAct_may (hmay : fwMayActivate t (y.par 16 1) = true) :
    fwActivateAct t k = settle (finish (activated t (y.par 16 1)) k stOK) := by
  simp only [fwActivateAct, h, hmay, Bool.not_true, Bool.false_eq_true, if_false]
  by_cases hstaged : t.fw.slotState.getD (y.par 16 1) 0 = 1 <;> simp only [activated, hstaged, if_true, if_false]

/-- What a confirmation leaves: a running TRIAL slot VALID, and the minimum SVN at least that of the running image. -/
def confirmed : State :=
  { t with
    fw := { t.fw with slotState := if t.fw.slotState.getD t.fw.running 0 = 2 then t.fw.slotState.set t.fw.running 3 else t.fw.slotState }
    fuses := { t.fuses with minSvn := max t.fuses.minSvn (t.fw.svn.getD t.fw.running 0) } }

theorem fwConfirmAct_eq : fwConfirmAct t k = settle (finish (confirmed t) k stOK) := by
  by_cases htrial : t.fw.slotState.getD t.fw.running 0 = 2 <;> simp only [fwConfirmAct, confirmed, htrial, if_true, if_false]

/-! ## Energy budgets (R467) -/

include h in
theorem budgetSetAct_eq : budgetSetAct t k =
    settle (finish { t with pwr := { t.pwr with nextB := some (y.par 16 2, y.par 20 4) } } k stOK) := by
  simp only [budgetSetAct, h]

end

/-- Settles O17: PAIR_FORM by its act, and the others by definition. -/
theorem pairCommandsRun : Obligations.PairCommandsRun := by
  intro c
  exact ⟨actsAs_row fun t k y _ _ _ _ => rfl, actsAs_row fun t k y h _ _ _ => pairFormAct_eq t k y h,
    actsAs_row fun t k y _ _ _ _ => rfl, actsAs_row fun t k y _ _ _ _ => rfl⟩

/-- Settles O16: each command by its act on the slots, the fuses and the budgets. -/
theorem firmwareAndEnergyCommandsRun : Obligations.FirmwareAndEnergyCommandsRun := by
  intro c
  refine ⟨?stage, ?commit, actsAs_row fun t k y _ _ _ _ => rfl, ?activate, ?confirm, ?budget, actsAs_row fun t k y _ _ _ _ => rfl⟩
  case stage => exact actsAs_row fun t k y h _ _ hok => fwStageAct_copies t k y h hok
  case commit => exact actsAs_row fun t k y h _ _ _ => fwCommitAct_eq t k y h
  case activate =>
    refine actsAs_row fun t k y h _ _ hmay => (fwActivateAct_may t k y h ((fwMayActivate_iff t _).mpr hmay)).trans ?_
    simp only [activated, decide_eq_true_eq]
  case confirm => exact actsAs_row fun t k y _ _ _ _ => fwConfirmAct_eq t k
  case budget => exact actsAs_row fun t k y h _ _ _ => budgetSetAct_eq t k y h

end Sys2Proof.Machine
end

section
/-! Firmware updates (R455), Coleth messages and the mailbox (R457-R462). -/
namespace Sys2Proof.Machine

section
variable (s : State)

/-! ## FW_PROGRAM_COMPLETE (R455) -/

/-- The part whose update ended with an error. -/
def updateFailed (e : Nat) : State := { s with fw := { s.fw with state := 4, error := e } }

section
variable (ok : Bool)

theorem exec_fwProgramComplete_idle (h1 : s.fw.state ≠ 1) (h2 : s.fw.state ≠ 2) : exec (.fwProgramComplete ok) s = .next (intEval s) := by
  change execFwProgramComplete ok s = _
  simp [execFwProgramComplete, done, h1, h2]

variable (hruns : secRuns s = true)
include hruns

/-- The end of the verification of an image of the length that its header states. -/
theorem exec_fwProgramComplete_verified (h1 : s.fw.state = 1) (hsize : s.fw.totalLen ≤ 2 ^ 24)
    (hlen : leAt (stagedImage s s.fw.totalLen) 20 4 = s.fw.totalLen) :
    exec (.fwProgramComplete ok) s = .next (intEval
      (if imgError s (stagedImage s s.fw.totalLen) = 0 then { s with fw := { s.fw with state := 2 } }
        else updateFailed s (imgError s (stagedImage s s.fw.totalLen)))) := by
  have hfits : ¬ mib16 < s.fw.totalLen := Nat.not_lt.mpr hsize
  change execFwProgramComplete ok s = _
  simp [execFwProgramComplete, done, hruns, h1, hfits, hlen, updateFailed]
theorem exec_fwProgramComplete_programmed (h2 : s.fw.state = 2) :
    exec (.fwProgramComplete true) s = .next (intEval
      { programSlot s (1 - s.fw.running) 1 (stagedImage s s.fw.totalLen) with fw :=
        { (programSlot s (1 - s.fw.running) 1 (stagedImage s s.fw.totalLen)).fw with state := 3, programmed := s.fw.totalLen } }) := by
  change execFwProgramComplete true s = _
  simp [execFwProgramComplete, done, hruns, h2, programSlot]
theorem exec_fwProgramComplete_flashError (h2 : s.fw.state = 2) :
    exec (.fwProgramComplete false) s = .next (intEval
      { s with fw := { s.fw with state := 4, error := 5, slotState := s.fw.slotState.set (1 - s.fw.running) 4 } }) := by
  change execFwProgramComplete false s = _
  simp [execFwProgramComplete, done, hruns, h2]

end

/-! ## Messages of the sideband (R457-R460, R462) -/

section
variable (bs : List Byte)

/-- The sideband's answer to a message: its status, and a body. -/
def sidebandAnswer (t : State) (bs : List Byte) (st : Nat) (body : List Byte) : State :=
  t.send (.coleth true (colethBytes (leAt bs 2 2) 1 (leAt bs 8 4) ([BitVec.ofNat 8 st, 0, 0, 0] ++ body)))

/-- A served message reaches the row of its type; one that is not whole has none, and is taken by any. -/
theorem colethRow_serves (ty : Nat) (hserved : colethServed s (.sideband bs) = true) (hrow : colethGood bs = false ∨ leAt bs 2 2 = ty) :
    colethRow s ty (.sideband bs) = colethServe s (.sideband bs) bs := by
  have hown : ([1, 2, 3, 4].contains (leAt bs 2 2) && leAt bs 2 2 != ty && colethGood bs) = false := by
    obtain hbad | rfl := hrow
    · rw [hbad, Bool.and_false]
    · rw [bne_self_eq_false, Bool.and_false, Bool.false_and]
  simp only [colethRow, colethMsg, hserved, hown, Bool.not_true, Bool.or_self, Bool.false_eq_true, if_false]

theorem colethServe_broken (hbad : colethGood bs = false) :
    colethServe s (.sideband bs) bs = sidebandAnswer (mbxError s) bs 3 [] := by
  simp only [colethServe, hbad, Bool.not_false, if_true]
  rfl

/-- The part that has noted the version of a HELLO's sender (R460). -/
def helloNoted : State :=
  if leAt bs 2 2 = 1 then { s with fw := { s.fw with hostVer := BitVec.ofNat 8 (leAt bs 0 1 % 16 * 16 + leAt bs 1 1 % 16) } } else s

variable (hgood : colethGood bs = true)
include hgood

theorem colethServe_major1 (hmajor : leAt bs 0 1 = 1) : colethServe s (.sideband bs) bs =
    sidebandAnswer (colethAct (helloNoted s bs) (leAt bs 2 2) ((bs.drop 16).take (leAt bs 4 2))).2 bs
      (colethAct (helloNoted s bs) (leAt bs 2 2) ((bs.drop 16).take (leAt bs 4 2))).1.1
      (colethAct (helloNoted s bs) (leAt bs 2 2) ((bs.drop 16).take (leAt bs 4 2))).1.2 := by
  simp only [colethServe, helloNoted, hgood, hmajor, Bool.not_true, Bool.false_eq_true, bne_self_eq_false, if_false]
  rfl
/-- A message of major 1 other than HELLO, by the effect `t` and the answer of its type. -/
theorem colethServe_act {t : State} {st : Nat} {body : List Byte} (hmajor : leAt bs 0 1 = 1) (hty : leAt bs 2 2 ≠ 1)
    (hact : colethAct s (leAt bs 2 2) ((bs.drop 16).take (leAt bs 4 2)) = ((st, body), t)) :
    colethServe s (.sideband bs) bs = sidebandAnswer t bs st body := by
  have hnoted : helloNoted s bs = s := if_neg hty
  rw [colethServe_major1 s bs hgood hmajor, hnoted, hact]

/-- A HELLO of major 1 opens service to firmware that waits for it. -/
theorem colethServe_hello (hmajor : leAt bs 0 1 = 1) (hty : leAt bs 2 2 = 1) (hrom : s.fw.romMode = false) (hstage : s.boot.stage = 6) :
    (colethServe s (.sideband bs) bs).boot.stage = 7 ∧ (colethServe s (.sideband bs) bs).boot.served = true := by
  rw [colethServe_major1 s bs hgood hmajor]
  simp [sidebandAnswer, helloNoted, colethAct, hty, hrom, hstage]
/-- A HELLO of another major is refused: the part stands by. -/
theorem colethServe_otherMajor (hmajor : leAt bs 0 1 ≠ 1) (hty : leAt bs 2 2 = 1) (hrom : s.fw.romMode = false) :
    (colethServe s (.sideband bs) bs).boot.stage = 8 ∧ (colethServe s (.sideband bs) bs).fw.standby = true := by
  simp [colethServe, colethReply, hgood, hmajor, hty, hrom]

end

/-! ## What each type does (R459) -/

theorem colethAct_versions (body : List Byte) : colethAct s 2 body =
    ((0, [1, 0, 0, 0] ++ leBytes 4 (s.fw.version.getD 0 0).toNat ++ leBytes 4 (s.fw.svn.getD 0 0)
      ++ leBytes 4 (s.fw.version.getD 1 0).toNat ++ leBytes 4 (s.fw.svn.getD 1 0)
      ++ leBytes 1 (s.fw.slotState.getD 0 0) ++ leBytes 1 (s.fw.slotState.getD 1 0)), s) := rfl
/-- Chunks and commits of an image are the boot ROM's alone. -/
theorem colethAct_chunk_noRom (body : List Byte) (hrom : s.fw.romMode = false) : colethAct s 3 body = ((2, []), s) := by
  simp [colethAct, hrom]
theorem colethAct_commit_noRom (body : List Byte) (hrom : s.fw.romMode = false) : colethAct s 4 body = ((2, []), s) := by
  simp [colethAct, hrom]
theorem colethAct_chunk (body : List Byte) (hrom : s.fw.romMode = true) (hmin : 4 ≤ body.length) (hmax : body.length ≤ 4080)
    (hfits : leAt body 0 4 + (body.length - 4) ≤ 2 ^ 24) :
    colethAct s 3 body = ((0, []), { s with fw := { s.fw with staging := memPutL s.fw.staging (leAt body 0 4) (body.drop 4) } }) := by
  have hroom : ¬ mib16 < leAt body 0 4 + (body.length - 4) := Nat.not_lt.mpr hfits
  simp [colethAct, hrom, Nat.not_lt.mpr hmin, Nat.not_lt.mpr hmax, hroom]

/-- The body of a whole message has at most 4,080 bytes. -/
theorem colethBody_le (bs : List Byte) (hgood : colethGood bs = true) : ((bs.drop 16).take (leAt bs 4 2)).length ≤ 4080 := by
  simp only [colethGood, Bool.and_eq_true, decide_eq_true_eq] at hgood
  rw [List.length_take]
  omega

/-! ## The mailbox (R461) -/

theorem mbxClear_valid (v : Nat) (hv : bitOf v 31 = true) (hvalid : s.fw.f2hValid = true) :
    mbxClear s v = mbxNext { s with fw := { s.fw with f2hValid := false } } := by simp [mbxClear, hv, hvalid]
theorem mbxClear_other (v : Nat) (hv : bitOf v 31 = false) : mbxClear s v = s := by simp [mbxClear, hv]

end

/-- Settles O55: a step of an update by the check or the flash, a message by its form, its major and its type, and the mailbox by VALID. -/
theorem firmwareUpdatesAndMessages : Obligations.FirmwareUpdatesAndMessages := by
  intro s ok v bs f img slot
  refine ⟨fun hruns h1 hsize hlen => ?verified, fun hruns h2 => ⟨exec_fwProgramComplete_programmed s hruns h2, exec_fwProgramComplete_flashError s hruns h2⟩,
    exec_fwProgramComplete_idle s ok, fun hserved hbad => ?broken, fun hserved hgood hmajor => ?served,
    fun hserved hgood hmajor hty hrom => colethServe_otherMajor s bs hgood hmajor hty hrom, fun hopen hv hvalid => ?cleared, fun hv => ?kept⟩
  case verified =>
    have hrow := exec_fwProgramComplete_verified s ok hruns h1 hsize hlen
    exact ⟨fun h0 => hrow.trans (by rw [if_pos h0]), fun he => hrow.trans (by rw [if_neg he]; rfl)⟩
  case broken =>
    rintro y rfl
    have hrow (ty : Nat) : done (colethRow s ty (.sideband bs)) = .next (intEval (sidebandAnswer (mbxError s) bs 3 [])) := by
      rw [colethRow_serves s bs ty hserved (.inl hbad), colethServe_broken s bs hbad, done]
    exact ⟨hrow 1, hrow 2, hrow 3, hrow 4⟩
  case served =>
    have hrow {ty : Nat} (hty : leAt bs 2 2 = ty) : done (colethRow s ty (.sideband bs)) = .next (intEval (colethServe s (.sideband bs) bs)) := by
      rw [colethRow_serves s bs ty hserved (.inr hty), done]
    have hanswer {ty st : Nat} {t : State} {body : List Byte} (hty : leAt bs 2 2 = ty) (h1 : ty ≠ 1)
        (hact : colethAct s ty ((bs.drop 16).take (leAt bs 4 2)) = ((st, body), t)) :
        done (colethRow s ty (.sideband bs)) = .next (intEval (sidebandAnswer t bs st body)) := by
      subst hty
      rw [hrow rfl, colethServe_act s bs hgood hmajor h1 hact]
    refine ⟨fun hty => ⟨hrow hty, colethServe_hello s bs hgood hmajor hty⟩, fun hty => ?versions, fun hty hrom => ?chunkNoRom,
      fun hty hrom => ?commitNoRom, ?chunk, fun hty => hrow hty⟩
    case versions => exact (hanswer hty (by decide) (colethAct_versions s _)).trans (by rw [sidebandAnswer, hty]; rfl)
    case chunkNoRom => exact (hanswer hty (by decide) (colethAct_chunk_noRom s _ hrom)).trans (by rw [sidebandAnswer, hty]; rfl)
    case commitNoRom => exact (hanswer hty (by decide) (colethAct_commit_noRom s _ hrom)).trans (by rw [sidebandAnswer, hty]; rfl)
    case chunk =>
      rintro body rfl hrom hty hmin hfits
      exact (hanswer hty (by decide) (colethAct_chunk s _ hrom hmin (colethBody_le bs hgood) hfits)).trans (by rw [sidebandAnswer, hty]; rfl)
  case cleared =>
    change done (onBar s 4 (mbxClear s v.toNat)) = _
    rw [onBar_open s _ _ hopen, mbxClear_valid s _ hv hvalid, done]
  case kept =>
    change done (onBar s 4 (mbxClear s v.toNat)) = _
    rw [mbxClear_other s _ hv, onBar, ite_self, done]

end Sys2Proof.Machine
end

section
/-! Energy, budgets and temperature (R464, R466, R467, R473-R476). -/
namespace Sys2Proof.Machine

section
variable (s : State)

/-- The buckets that the window is the sum of: the last 100. -/
theorem energyBucket_eq : energyBucket s = { s with pwr := { s.pwr with
    buckets := (s.pwr.buckets ++ [s.pwr.bucketMj]).drop (s.pwr.buckets.length + 1 - 100), bucketMj := 0
    window := ((s.pwr.buckets ++ [s.pwr.bucketMj]).drop (s.pwr.buckets.length + 1 - 100)).foldl (· + ·) 0 } } := by
  simp only [energyBucket, List.length_append, List.length_singleton]
theorem exec_siteCapSet (w : Nat) : exec (.siteCapSet w) s =
    .next (intEval (if 400 ≤ w ∧ w ≤ 950 then { s with pwr := { s.pwr with nextCap := some w } } else s)) := by
  change execSiteCapSet w s = _
  simp [execSiteCapSet, done]
/-- While PMC restarts the epoch's energy is counted, and nothing is planned (R464). -/
theorem plannerEpoch_down (unres : Nat) (h : pmcDown s = true) :
    plannerEpoch s unres = { s with pwr := { s.pwr with draw := s.pwr.epochMj, epochMj := 0 } } := if_pos h
theorem thermalSample_down (temps : List (BitVec 16)) (h : pmcDown s = true) : thermalSample s temps = s := by
  simp [thermalSample, h]
/-- A whole sample crosses every sensor against every threshold, and then moves the dies. -/
theorem thermalSample_eq (temps : List (BitVec 16)) (h : pmcDown s = false) (hlen : temps.length = 13) : thermalSample s temps =
    [0, 1, 2, 3, 4].foldl moveDie (((List.range 13).zip temps).foldl (fun s x => (List.range 3).foldl (fun s i => thermCross s x.1 i x.2.toInt) s)
      { s with pwr := { s.pwr with temps := temps } }) := by
  simp only [thermalSample, h, hlen, bne_self_eq_false, Bool.or_self, Bool.false_eq_true, if_false]

/-- Below 110 °C, or once the part has tripped, a sensor stops nothing (R476). -/
theorem thermalTrip_none (sensor : Nat) (temp : BitVec 16) (h : temp.toInt < 1760 ∨ s.saf.tripped = true) : thermalTrip s sensor temp = s := by
  simp [thermalTrip, h]
theorem thermalTrip_first (sensor : Nat) (temp : BitVec 16) (htemp : 1760 ≤ temp.toInt) (hfirst : s.saf.tripped = false) :
    thermalTrip s sensor temp =
      { raiseFault s (unitOf 0x14 0) 0x0D 0 0 1 with
        pins := { (raiseFault s (unitOf 0x14 0) 0x0D 0 0 1).pins with thermtripN := false }
        saf := { (raiseFault s (unitOf 0x14 0) 0x0D 0 0 1).saf with
          tripped := true, tripSensor := sensor, statusByte := (raiseFault s (unitOf 0x14 0) 0x0D 0 0 1).saf.statusByte ||| 4 } } := by
  have hhot : ¬ temp.toInt < 1760 := Int.not_lt.mpr htemp
  simp [thermalTrip, hhot, hfirst]

end

/-- Settles O56: each event by its operation, and a trip by the temperature and whether one is latched. -/
theorem powerAndThermalRun : Obligations.PowerAndThermalRun := by
  intro s mj w unres sensor temps temp p b
  have htrip (hsensor : sensor < 13) : exec (.thermalTrip sensor temp) s = .next (intEval (thermalTrip s sensor temp)) :=
    onInst_next _ _ (decide_eq_true hsensor)
  refine ⟨rfl, congrArg done (energyBucket_eq s), fun hlo hhi => ?cap, fun hout => ?noCap, rfl, fun hdown => congrArg done (plannerEpoch_down s unres hdown),
    fun hup hlen => congrArg done (thermalSample_eq s temps hup hlen), fun hdown => congrArg done (thermalSample_down s temps hdown),
    fun hsensor hcool => ?cool, fun hsensor htripped => ?tripped, ?trips⟩
  case cap => rw [exec_siteCapSet, if_pos ⟨hlo, hhi⟩]
  case noCap => rw [exec_siteCapSet, if_neg (by omega)]
  case cool => rw [htrip hsensor, thermalTrip_none s sensor temp (.inl hcool)]
  case tripped => rw [htrip hsensor, thermalTrip_none s sensor temp (.inr htripped)]
  case trips =>
    rintro hsensor htemp hfirst t rfl
    rw [htrip hsensor, thermalTrip_first s sensor temp htemp hfirst]

end Sys2Proof.Machine
end

section
/-! The training of a port (R346-R348, R353, R354). -/
namespace Sys2Proof.Machine

section
variable (s : State) (p n : Nat)

/-! ## Signals and the window of DETECT (R353) -/

/-- Once a port is past DETECT a signal is noted on its lane alone. -/
theorem signalDetect_trained (h : 1 < (s.lanePort p).tstate) :
    signalDetect s p n = s.setLane p n { s.lane p n with signal := true } := by
  have h0 : (s.lanePort p).tstate ≠ 0 := by omega
  have h1 : (s.lanePort p).tstate ≠ 1 := by omega
  simp [signalDetect, h0, h1]
theorem exec_detectWindowEnd {t : Nat} (hp : p < 14) (h1 : (s.lanePort p).tstate = 1) (hfirst : (s.lanePort p).firstAt = some t) :
    exec (.detectWindowEnd p) s = .next (intEval
      (if t + 1000000 ≤ s.now ∧ 2 ≤ (lanesWhere (s.lanePort p) (·.signal)).length then enterLock s p else s)) := by
  refine (onInst_next _ _ (decide_eq_true hp)).trans ?_
  simp only [hfirst, h1, decide_true, Bool.true_and, Bool.and_eq_true, decide_eq_true_eq]
  rfl

/-! ## Frame lock (R353) -/

theorem frameLock_other (h2 : (s.lanePort p).tstate ≠ 2) (h6 : (s.lanePort p).tstate ≠ 6) : frameLock s p n = s := by
  simp [frameLock, h2, h6]
/-- In LOCK the last lane that must lock ends the state. -/
theorem frameLock_last (u : State) (h2 : (s.lanePort p).tstate = 2) (hu : u = s.setLane p n { s.lane p n with locked := true })
    (hall : ((mustLock (u.lanePort p)).all fun n => (u.lane p n).locked) = true) : frameLock s p n = lockNext u p := by
  have hu2 : (u.lanePort p).tstate = 2 := by rw [hu, lanePort_setLane, h2]
  simp only [frameLock, h2, bne_self_eq_false, Bool.false_and, Bool.false_eq_true, if_false, ← hu, hall, hu2, if_true]

/-! ## Messages (R347, R348) -/

section
variable (ty : Nat) (m : BitVec 128) (f : State → Nat → State) (hp : p < 14) (hn : n < 9)
include hp hn

theorem trainRow_good (hok : trainOk n ty m = true) : trainRow p n ty m s f = .next (intEval (f s m.toNat)) := by
  rw [trainRow, if_pos hok, onInst_next _ _ (by simp [hp, hn])]
theorem trainRow_bad (hbad : trainOk n ty m = false) : trainRow p n ty m s f = .next (intEval s) := by
  rw [trainRow, hbad, if_neg Bool.false_ne_true, onInst_next _ _ (by simp [hp, hn])]
/-- In CHECK the partner's result is noted, and in ALIGN its READY. -/
theorem exec_check_result (hok : trainOk n 4 m = true) (h5 : (s.lanePort p).tstate = 5) (hbit : bitOf m.toNat 8 = true) :
    exec (.check p n m) s = .next (intEval (checkBoth (s.setLanePort p { s.lanePort p with peerRes := some (bitOf m.toNat 9) }) p)) := by
  change execCheck p n m s = _
  rw [execCheck, trainRow_good s p n 4 m _ hp hn hok, if_pos (by simp [h5, hbit])]
  rfl
theorem exec_align_ready (hok : trainOk n 5 m = true) (h7 : (s.lanePort p).tstate = 7) (hbit : bitOf m.toNat 8 = true) :
    exec (.align p n m) s = .next (intEval (alignDone (s.setLanePort p { s.lanePort p with peerReady := true }) p)) := by
  change execAlign p n m s = _
  rw [execAlign, trainRow_good s p n 5 m _ hp hn hok, if_pos (by simp [h7, hbit])]
  rfl

end

/-! ## Periods and time-outs (R353) -/

theorem checkPeriodEnd_early (e : List Nat) (h : s.now < (s.lanePort p).since + 1000000) : checkPeriodEnd s p e = s := by
  have hms : s.now < (s.lanePort p).since + ms 1 := h
  simp [checkPeriodEnd, hms]
/-- CAPS lasts 2 ms; a bring-up that is still in it then fails with cause 3. -/
theorem trainTimeout_caps (hretrain : (s.lanePort p).retrain = false) (h3 : (s.lanePort p).tstate = 3) :
    trainTimeout s p = if (s.lanePort p).since + 2000000 ≤ s.now then linkDown s p 3 else s := by
  simp only [trainTimeout, hretrain, h3, Bool.false_eq_true, if_false, decide_eq_true_eq]
  rfl

end

/-- Settles O45: a signal, a lock, a message and a timer each by the state of the port. -/
theorem trainingEventsRun : Obligations.TrainingEventsRun := by
  intro s p n m hp hn
  dsimp only
  have hport : decide (p < 14) = true := decide_eq_true hp
  have hlane : (decide (p < 14) && decide (n < 9)) = true := by simp [hp, hn]
  refine ⟨fun h8 => ?signal, fun h1 t hfirst hdue htwo => ?window, fun h1 t hfirst hearly => ?windowEarly, fun hdone => ?locked,
    fun h2 u hu hall => ?locks, trainRow_good s p n 1 m (takeCap · p ·) hp hn,
    trainRow_good s p n 2 m (takeEq · p n ·) hp hn, trainRow_good s p n 3 m (takeStep · p ·) hp hn,
    exec_check_result s p n m hp hn, exec_align_ready s p n m hp hn, trainRow_bad s p n 1 m (takeCap · p ·) hp hn, fun e _ _ _ => onInst_next _ _ hport,
    fun e _ hearly => ?periodEarly, fun hretrain h3 hdue => ?timeout, fun hretrain h3 hearly => ?timeoutEarly⟩
  case signal => exact (onInst_next _ _ hlane).trans (by rw [signalDetect_trained s p n (by omega)])
  case window => rw [exec_detectWindowEnd s p hp h1 hfirst, if_pos ⟨hdue, htwo⟩]
  case windowEarly => rw [exec_detectWindowEnd s p hp h1 hfirst, if_neg fun h => Nat.not_le.mpr hearly h.1]
  case locked => exact (onInst_next _ _ hlane).trans (by rw [frameLock_other s p n (by omega) (by omega)])
  case locks => exact (onInst_next _ _ hlane).trans (by rw [frameLock_last s p n u h2 hu hall])
  case periodEarly => exact (onInst_next _ _ hport).trans (by rw [checkPeriodEnd_early s p e hearly])
  case timeout => exact (onInst_next _ _ hport).trans (by rw [trainTimeout_caps s p hretrain h3, if_pos hdue])
  case timeoutEarly => exact (onInst_next _ _ hport).trans (by rw [trainTimeout_caps s p hretrain h3, if_neg (Nat.not_le.mpr hearly)])

end Sys2Proof.Machine
end

section
/-! The memory channels, refresh, scrubbing and remapping (R374-R383). -/
namespace Sys2Proof.Machine

section
variable (s : State) (u : MemUnit)

/-! ## Channels (R380, R381) -/

theorem channelIssue_stopped (h : muRuns s u = false) : channelIssue s u = s := by simp [channelIssue, h]
/-- With no request waiting the postponed refreshes are made up. -/
theorem channelIssue_makesUp (hruns : muRuns s u = true) (hnone : (s.chq (muQ u)).reqs = []) (hfree : noMakeUp s u (s.chq (muQ u)) = false) :
    channelIssue s u = s.setChq (muQ u) { s.chq (muQ u) with postponed := [] } := by
  simp only [channelIssue, hruns, hnone, hfree, Bool.not_true, Bool.not_false, Bool.false_eq_true, if_false, if_true]
/-- The request that the order picks is served out of the queue. -/
theorem channelIssue_serves (i : Nat) (r : ChReq) (hruns : muRuns s u = true) (hpick : pickReq s (s.chq (muQ u)) = some i)
    (hreq : (s.chq (muQ u)).reqs[i]? = some r) :
    channelIssue s u = serveChReq (s.setChq (muQ u)
      (openRow s u { s.chq (muQ u) with reqs := (s.chq (muQ u)).reqs.eraseIdx i, batch := batchNow s (s.chq (muQ u)) } r)) r
      (aheadOf (s.chq (muQ u)).reqs i r) := by
  have hsome : (s.chq (muQ u)).reqs ≠ [] := fun h => by simp [h] at hreq
  simp only [channelIssue, hruns, hsome, hpick, hreq, Bool.not_true, Bool.false_eq_true, if_false]

section
variable (hu : muOk u = true)
include hu

theorem exec_rowIdleClose (rank bank row t : Nat) (hbank : bank < 32)
    (hrow : tabFind (s.chq (muQ u)).rows (32 * rank + bank) = some (row, t)) :
    exec (.rowIdleClose u rank bank) s = .next (intEval
      (if idleOver s u t then s.setChq (muQ u) { s.chq (muQ u) with rows := tabDel (s.chq (muQ u)).rows (32 * rank + bank) } else s)) := by
  refine (onInst_next _ _ (by simp [hu, hbank])).trans ?_
  simp only [hrow]

/-! ## Refresh (R383) -/

/-- Does a request wait for the rank? -/
def rankWaits (s : State) (u : MemUnit) (rank : Nat) : Bool :=
  (s.chq (muQ u)).reqs.any fun r => muStack u || (coordOf s r.ppa).rank == rank

theorem exec_refreshDue_postpones (rank : Nat) (hruns : muRuns s u = true) (hrank : rank < (muBlk s u).ranks) (hwaits : rankWaits s u rank = true)
    (hfew : tabGet 0 (s.chq (muQ u)).postponed rank < 8) :
    exec (.refreshDue u rank) s = .next (intEval (s.setChq (muQ u) { s.chq (muQ u) with
      postponed := tabSet 0 (s.chq (muQ u)).postponed rank (tabGet 0 (s.chq (muQ u)).postponed rank + 1) })) := by
  refine (onInst_next _ _ hu).trans (congrArg done (if_neg ?_))
  rw [rankWaits] at hwaits
  simp [hruns, hrank, hwaits, Nat.not_le.mpr hfew]
theorem exec_refreshDue_issues (rank : Nat) (h : rankWaits s u rank = false ∨ 8 ≤ tabGet 0 (s.chq (muQ u)).postponed rank) :
    exec (.refreshDue u rank) s = .next (intEval s) := by
  refine (onInst_next _ _ hu).trans (congrArg done (if_pos ?_))
  rw [rankWaits] at h
  obtain hidle | hmany := h
  · simp [hidle]
  · simp [hmany]

end

/-! ## Patrol scrub (R377-R379) -/

theorem scrubLine_off (h : (muBlk s u).scrubEn = false) : scrubLine s u = s := by simp [scrubLine, h]
/-- A scrubber whose period has come, before the last line of its pass, reads its line and moves on. -/
theorem scrubLine_reads (hen : (muBlk s u).scrubEn = true) (hruns : muRuns s u = true) (hstart : (s.chq (scrubQ u)).scrubAt ≠ 0)
    (hdue : (s.chq (scrubQ u)).scrubL * scrubT (muBlk s u) ≤ (s.now - (s.chq (scrubQ u)).scrubAt) * scrubCount s u) (t : State) (y : ChanQ)
    (ht : t = (readLine s (ppaOf (muStack u) (muPart u) (64 * scrubLineAt u (s.chq (scrubQ u)).scrubL)) true).2)
    (hy : y = t.chq (scrubQ u)) (hmore : y.scrubL + 1 < scrubCount s u) :
    scrubLine s u = (t.setChq (scrubQ u) { y with scrubL := y.scrubL + 1, scrubAt := (s.chq (scrubQ u)).scrubAt }).setCnt (muCnt u)
      { (t.setChq (scrubQ u) { y with scrubL := y.scrubL + 1, scrubAt := (s.chq (scrubQ u)).scrubAt }).cnt (muCnt u) with
        scrubPos := scrubStripe u (y.scrubL + 1) } := by
  have hlines : scrubCount s u ≠ 0 := by omega
  simp only [scrubLine, hen, hruns, hstart, hlines, Nat.not_lt.mpr hdue, Bool.not_true, Bool.or_self, Bool.false_eq_true, decide_false,
    if_false, ← ht, ← hy, hmore, if_true]

/-! ## Remapping (R374-R376) -/

section
variable (e : Nat)

theorem exec_remapRow {i : Instr} (t : State) (hu : muOk u = true) (he : e < 16) (hrow : exec i s = onInst (muOk u && decide (e < 16)) t) :
    exec i s = .next (intEval t) := by
  rw [hrow, onInst_next _ _ (by simp [hu, he])]

theorem remapInstall_busy (v : W32) (h : (s.remap u e).busy = true) : remapInstall s u e v = s := by simp [remapInstall, h]
theorem remapRemove_busy (v : W32) (h : (s.remap u e).busy = true) : remapRemove s u e v = s := by simp [remapRemove, h]
theorem remapInstall_begins (v : W32) (hidle : (s.remap u e).busy = false) (hfree : (s.remap u e).valid = false) (hv : bitOf v.toNat 31 = true) :
    remapInstall s u e v = s.setRemap u e { s.remap u e with rank := v.toNat % 8, busy := true, remove := false } := by
  simp [remapInstall, hidle, hfree, hv]
theorem remapRemove_begins (v : W32) (hidle : (s.remap u e).busy = false) (hvalid : (s.remap u e).valid = true) (hv : bitOf v.toNat 31 = false) :
    remapRemove s u e v = s.setRemap u e { s.remap u e with busy := true, remove := true } := by
  simp [remapRemove, hidle, hvalid, hv]

/-- The entry once its copy is over: active where it was being installed, and not where it was being removed. -/
def remapOver (r : Remap) : Remap := { r with busy := false, valid := !r.remove, remove := false }

theorem remapCopied_idle (h : (s.remap u e).busy = false) : remapCopied s u e = s := by simp [remapCopied, h]

section
variable (hbusy : (s.remap u e).busy = true)
include hbusy

theorem remapCopied_clean (a : Nat) (bs : List Byte) (t : State) (ha : remapPpa s u (s.remap u e) = some a) (hread : readLine s a true = (some bs, t)) :
    remapCopied s u e = keepRemaps (setErr (putBytes (t.setRemap u e (remapOver (s.remap u e))) a bs) a 0) (muCnt u) := by
  simp [remapCopied, hbusy, ha, hread, remapOver]
theorem remapCopied_poisoned (a : Nat) (t : State) (ha : remapPpa s u (s.remap u e) = some a) (hread : readLine s a true = (none, t)) :
    remapCopied s u e = keepRemaps (poisonLine (t.setRemap u e (remapOver (s.remap u e))) a) (muCnt u) := by
  simp [remapCopied, hbusy, ha, hread, remapOver]
theorem remapCopied_unbacked (ha : remapPpa s u (s.remap u e) = none) :
    remapCopied s u e = keepRemaps (s.setRemap u e (remapOver (s.remap u e))) (muCnt u) := by
  simp [remapCopied, hbusy, ha, remapOver]

end
end
end

/-- Settles O47: a channel by what waits and what is open, a scrubber by its period, and an entry by whether it copies. -/
theorem channelsRefreshAndScrub : Obligations.ChannelsRefreshAndScrub := by
  refine ⟨fun s u rank bank hu => ⟨fun hnone hruns hfree => ?makesUp, fun i r hruns hpick hreq => ?serves, fun hstopped => ?stopped,
      fun row t hbank hrow => ?rows, exec_refreshDue_postpones s u hu rank, exec_refreshDue_issues s u hu rank⟩,
    fun s u e v hu he => ⟨fun hen hruns hstart hdue t y ht hy hmore => ?scrubs, fun hoff => ?scrubOff, fun hbusy => ?copying,
      fun hidle hfree hv => ?installs, fun hidle hvalid hv => ?removes, fun hbusy => ?copied, fun hidle => ?idle⟩⟩
  case makesUp => exact (onInst_next _ _ hu).trans (by rw [channelIssue_makesUp s u hruns hnone hfree])
  case serves => exact (onInst_next _ _ hu).trans (by rw [channelIssue_serves s u i r hruns hpick hreq])
  case stopped => exact (onInst_next _ _ hu).trans (by rw [channelIssue_stopped s u hstopped])
  case rows =>
    have hclose := exec_rowIdleClose s u hu rank bank row t hbank hrow
    exact ⟨fun hover => by rw [hclose, if_pos hover], fun hrecent => by rw [hclose, hrecent, if_neg Bool.false_ne_true]⟩
  case scrubs => exact (onInst_next _ _ hu).trans (by rw [scrubLine_reads s u hen hruns hstart hdue t y ht hy hmore])
  case scrubOff => exact (onInst_next _ _ hu).trans (by rw [scrubLine_off s u hoff])
  case copying =>
    exact ⟨(exec_remapRow s u e _ hu he rfl).trans (by rw [remapInstall_busy s u e v hbusy]),
      (exec_remapRow s u e _ hu he rfl).trans (by rw [remapRemove_busy s u e v hbusy])⟩
  case installs => exact (exec_remapRow s u e _ hu he rfl).trans (by rw [remapInstall_begins s u e v hidle hfree hv])
  case removes => exact (exec_remapRow s u e _ hu he rfl).trans (by rw [remapRemove_begins s u e v hidle hvalid hv])
  case copied =>
    have hrow : exec (.remapCopyComplete u e) s = .next (intEval (remapCopied s u e)) := exec_remapRow s u e _ hu he rfl
    refine ⟨fun a bs t ha hread => hrow.trans ?_, fun a t ha hread => hrow.trans ?_, fun ha => hrow.trans ?_⟩
    · rw [remapCopied_clean s u e hbusy a bs t ha hread]
      rfl
    · rw [remapCopied_poisoned s u e hbusy a t ha hread]
      rfl
    · rw [remapCopied_unbacked s u e hbusy ha]
      rfl
  case idle => exact (exec_remapRow s u e _ hu he rfl).trans (by rw [remapCopied_idle s u e hidle])

end Sys2Proof.Machine
end

section
/-! Parking, training and injection of memory (R385-R390, R436). -/
namespace Sys2Proof.Machine

section
variable (s : State) (p : Nat)

/-! ## Parking (R385, R386) -/

/-- Is nothing left in the queues of the partition's channels? -/
def chansIdle (s : State) (p : Nat) : Bool := (List.range 8).all fun i => (s.chq (8 * p + i)).reqs == []

section
variable (v : W32)

theorem exec_parkRow {i : Instr} (t : State) (hp : p < 8) (hopen : barWrite s (16 + p) = true)
    (hrow : exec i s = onInst (decide (p < 8)) (onBar s (16 + p) t)) : exec i s = .next (intEval t) := by
  rw [hrow, onInst_next _ _ (decide_eq_true hp), onBar_open s t _ hopen]

/-- A park of a partition that is online, does not train and keeps all that is mapped begins. -/
theorem parkReqOf_begins (hpark : (s.part p).park = false) (hv : bitOf v.toNat 0 = true) (honline : s.online p = true)
    (hsteady : ((s.part p).chans.any (·.state == 1)) = false) (hkept : mapsUnkept s p = false) :
    parkReqOf s p v = s.setPart p { s.part p with refused := (s.part p).refused && !bitOf v.toNat 1, park := true, parkReq := true } := by
  simp only [parkReqOf, hpark, hv, honline, hsteady, hkept, Bool.not_true, Bool.or_self, Bool.false_eq_true, if_false]
theorem parkReqOf_refused (hpark : (s.part p).park = false) (hv : bitOf v.toNat 0 = true) (hmaps : mapsUnkept s p = true) :
    parkReqOf s p v = s.setPart p { s.part p with refused := true } := by
  simp only [parkReqOf, hpark, hv, hmaps, Bool.not_true, Bool.or_self, Bool.or_true, Bool.false_eq_true, if_false, if_true]
theorem unparkReqOf_leaves (hv : bitOf v.toNat 0 = false) :
    unparkReqOf s p v = unparkPart (s.setPart p { s.part p with refused := (s.part p).refused && !bitOf v.toNat 1 }) p := by
  simp only [unparkReqOf, hv, Bool.false_eq_true, if_false]

end

section
variable (hp : p < 8)
include hp

theorem exec_parkComplete_idle (hreq : (s.part p).parkReq = true) (hidle : chansIdle s p = true) :
    exec (.parkComplete p) s = .next (intEval (s.setPart p { s.part p with
      parkReq := false, parked := true, parkAt := s.now, chans := (s.part p).chans.map fun b => if b.state = 2 then { b with state := 3 } else b })) := by
  rw [chansIdle] at hidle
  exact (onInst_next _ _ (decide_eq_true hp)).trans (congrArg done (if_pos (by rw [hreq, hidle]; rfl)))
theorem exec_parkComplete_busy (hbusy : chansIdle s p = false) : exec (.parkComplete p) s = .next (intEval s) := by
  rw [chansIdle] at hbusy
  exact (onInst_next _ _ (decide_eq_true hp)).trans (congrArg done (if_neg (by rw [hbusy, Bool.and_false]; exact Bool.false_ne_true)))

/-! ## The zero pass (R386, R436) -/

theorem exec_zeroFillComplete_offline (cream : Bool) (hoff : s.online p = false) : exec (.zeroFillComplete p cream) s = .next (intEval s) := by
  refine (onInst_next _ _ (decide_eq_true hp)).trans (congrArg done (if_pos ?_))
  rw [hoff]; rfl
theorem exec_zeroFillComplete_cream (honline : s.online p = true) :
    exec (.zeroFillComplete p true) s = .next (intEval (s.setPart p { s.part p with fillCream := false })) := by
  refine (onInst_next _ _ (decide_eq_true hp)).trans (congrArg done ((if_neg ?_).trans (if_pos rfl)))
  rw [honline]; exact Bool.false_ne_true
theorem exec_zeroFillComplete_skim (honline : s.online p = true) (hparked : (s.part p).parked = false) (hfill : (s.part p).fillSkim = true) :
    exec (.zeroFillComplete p false) s = .next (intEval
      (((s.part p).zeroed.foldl (fun s i => zeroSpan s (ppaOf false p (i * segBytes s p)) (segBytes s p)) s).setPart p
        { s.part p with fillSkim := false, zeroed := [] })) := by
  change execZeroFillComplete p false s = _
  simp only [execZeroFillComplete, onInst, done, hp, honline, hparked, hfill, decide_true, Bool.not_true, Bool.or_self, Bool.false_eq_true, if_true, if_false]

end

/-! ## Training and injection (R387-R390) -/

section
variable (st : Bool) (i : Nat) (v : W32)

theorem trnCtrlWrite_shut (h : (s.blk st i).state ≠ 1) : trnCtrlWrite s st i v = s := by simp [trnCtrlWrite, h]
theorem trnCtrlWrite_starts (h1 : (s.blk st i).state = 1) (hstart : bitOf v.toNat 31 = true) (hfree : (s.blk st i).trnBusy = false)
    (hcount : v.toNat % 65536 ≠ 0) : trnCtrlWrite s st i v = s.setBlk st i { s.blk st i with
      trnCtrl := v &&& 0x3FFFFFFF, trnBusy := true, trnDone := false, trnLo := 0, trnHi := 0 } := by
  simp [trnCtrlWrite, h1, hstart, hfree, hcount]
theorem trnCtrlWrite_sets (h1 : (s.blk st i).state = 1) (hstart : bitOf v.toNat 31 = false) :
    trnCtrlWrite s st i v = s.setBlk st i { s.blk st i with trnCtrl := v &&& 0x3FFFFFFF } := by
  simp [trnCtrlWrite, h1, hstart]
theorem exec_trainingRunDone (lo hi : W32) (hok : blkOk st i = true) : exec (.trainingRunDone st i lo hi) s = .next (intEval
    (if (s.blk st i).trnBusy then s.setBlk st i { s.blk st i with trnBusy := false, trnDone := true, trnLo := lo, trnHi := hi &&& 0xFF } else s)) :=
  onInst_next _ _ hok

end

section
variable (r : TrainResult)

theorem exec_partitionTrainingComplete (hp : p < 8) : exec (.partitionTrainingComplete p r) s =
    .next (intEval (if s.boot.stage = 4 ∨ 6 ≤ s.boot.stage then trainComplete s p r else s)) := by
  refine (onInst_next _ _ (decide_eq_true hp)).trans ?_
  simp only [Bool.or_eq_true, decide_eq_true_eq]
theorem trainComplete_other (h : (s.part p).state ≠ 4) : trainComplete s p r = s := by simp [trainComplete, h]

variable (h4 : (s.part p).state = 4)
include h4

/-- A partition that trained is ONLINE at start-up, and goes on to its restore in a reset. -/
theorem trainComplete_passed (hskim : skimCause r = 0) (hcream : creamCause (trainResult s p r) r = 0) :
    trainComplete s p r = shareRate (setPartState (trainResult s p r) p (if s.boot.stage = 4 ∧ s.flt.recovery = false then 0 else 5)) := by
  simp only [trainComplete, h4, hskim, hcream, bne_self_eq_false, decide_true, Bool.and_self, Bool.false_eq_true, if_false, if_true, Bool.and_eq_true,
    beq_iff_eq, Bool.not_eq_true']
  split <;> rfl
theorem trainComplete_failed (h : skimCause r ≠ 0 ∨ creamCause (trainResult s p r) r ≠ 0) :
    trainComplete s p r = partFault (trainResult s p r) p (unitOf 2 p) 0x10 0 0 0 true := by
  have hbad : (decide (skimCause r = 0) && decide (creamCause (trainResult s p r) r = 0)) = false := by
    rw [Bool.and_eq_false_iff]
    exact h.imp decide_eq_false decide_eq_false
  simp only [trainComplete, h4, hbad, bne_self_eq_false, Bool.false_eq_true, if_false]

end
end

/-- Settles O48: a park by what stands in its way, a zero pass by its tier, a training register by the state of its controller, and a training by
what it found. -/
theorem parkingAndTraining : Obligations.ParkingAndTraining := by
  refine ⟨fun s p v hp => ⟨fun hopen => ⟨fun hpark hv honline hsteady hkept => ?parks, fun hpark hv hmaps => ?refuses, fun hv => ?leaves⟩,
      exec_parkComplete_idle s p hp, exec_parkComplete_busy s p hp,
      fun honline => ⟨exec_zeroFillComplete_cream s p hp honline, fun hparked hfill t ht => ?zeroed⟩, fun hoff c => exec_zeroFillComplete_offline s p hp c hoff⟩,
    fun s st i p v lo hi r hok hp => ⟨fun hshut => ?shut, fun h1 hstart hfree hcount => ?starts, fun h1 hstart => ?sets, fun hbusy => ?ended,
      fun hidle => ?idle, fun hopen => ?injects, fun h4 hstage => ⟨fun hskim hcream => ?passed, fun hbad => ?failed⟩, fun hother => ?other⟩⟩
  case parks => exact (exec_parkRow s p _ hp hopen rfl).trans (by rw [parkReqOf_begins s p v hpark hv honline hsteady hkept])
  case refuses => exact (exec_parkRow s p _ hp hopen rfl).trans (by rw [parkReqOf_refused s p v hpark hv hmaps])
  case leaves => exact (exec_parkRow s p _ hp hopen rfl).trans (by rw [unparkReqOf_leaves s p v hv])
  case zeroed =>
    subst ht
    exact exec_zeroFillComplete_skim s p hp honline hparked hfill
  case shut => exact (onInst_next _ _ hok).trans (by rw [trnCtrlWrite_shut s st i v hshut])
  case starts => exact (onInst_next _ _ hok).trans (by rw [trnCtrlWrite_starts s st i v h1 hstart hfree hcount])
  case sets => exact (onInst_next _ _ hok).trans (by rw [trnCtrlWrite_sets s st i v h1 hstart])
  case ended => rw [exec_trainingRunDone s st i lo hi hok, if_pos hbusy]
  case idle => rw [exec_trainingRunDone s st i lo hi hok, hidle, if_neg Bool.false_ne_true]
  case injects => exact (onInst_next _ _ hok).trans (congrArg done (onBar_open s _ _ hopen))
  case passed =>
    have hrow := (exec_partitionTrainingComplete s p r hp).trans (by rw [if_pos hstage, trainComplete_passed s p r h4 hskim hcream])
    exact ⟨fun hboot hrec => hrow.trans (by rw [if_pos ⟨hboot, hrec⟩]), fun hlate => hrow.trans (by rw [if_neg (by omega)])⟩
  case failed => rw [exec_partitionTrainingComplete s p r hp, if_pos hstage, trainComplete_failed s p r h4 hbad]
  case other => rw [exec_partitionTrainingComplete s p r hp, trainComplete_other s p r hother, ite_self]

end Sys2Proof.Machine
end

section
/-! Straps, the choice of a slot, and the boot stages (R451-R453, R504, R505). -/
namespace Sys2Proof.Machine

section
variable (s : State) (valid : List Bool)

/-! ## Stages (R451-R453) -/

/-- In which a stage may complete: the boot goes on. -/
def boots (s : State) : Prop := (s.boot.inReset || s.saf.tripped || s.flt.failed) = false

section
variable (hboots : boots s)
include hboots

theorem bootStage_reset (h : s.boot.stage = 0) :
    bootStage s valid = { s with boot := { s.boot with samples := [], stage := 1, stageAt := s.now } } := by
  rw [bootStage, hboots]
  simp only [h]
  rfl
theorem bootStage_straps (h : s.boot.stage = 1) (hvalid : s.boot.strapsValid = true) :
    bootStage s valid = { s with boot := { s.boot with stage := 2, stageAt := s.now } } := by
  rw [bootStage, hboots]
  simp only [h]
  exact if_pos hvalid
/-- A slot that is chosen runs, and SEC starts. -/
theorem bootStage_slot (h : s.boot.stage = 2) (x : Nat) (f : Fw) (hslot : slotChoose s (fun i => valid.getD i false) = (some x, f)) :
    bootStage s valid = { s with
      fw := { f with running := x }, boot := { s.boot with slot := x, stage := 3, stageAt := s.now }
      flt := { s.flt with heartbeats := tabSet 0 s.flt.heartbeats (unitOf 5 0).toNat s.now } } := by
  rw [bootStage, hboots]
  simp only [h, hslot]
  rfl
theorem bootStage_noSlot (h : s.boot.stage = 2) (hsel : s.boot.bootSel = 0) (f : Fw)
    (hslot : slotChoose s (fun i => valid.getD i false) = (none, f)) :
    bootStage s valid = { s with fw := { f with romMode := true }, boot := { s.boot with stage := 10, stageAt := s.now, detail := 1 } } := by
  have hdetail : (if s.boot.bootSel = 3 then 0 else 1) = 1 := by rw [hsel]; rfl
  rw [bootStage, hboots]
  simp only [h, hslot, hdetail]
  rfl
theorem bootStage_bist (h : s.boot.stage = 5) :
    bootStage s valid = { bootTo (startScrub s) 6 with fw := { (startScrub s).fw with fwReady := true } } := by
  rw [bootStage, hboots]
  simp only [h]
  rfl

end

/-- Beyond its bound of 500 ms the choice of a slot fails the boot with DETAIL 2 (R453). -/
theorem bootTimeout_slot (hreset : s.boot.inReset = false) (h : s.boot.stage = 2) :
    bootTimeout s = if s.boot.stageAt + 500000000 < s.now then bootFail s 2 else s := by
  simp only [bootTimeout, h, stageBound, hreset, Bool.not_false, Bool.true_and, decide_eq_true_eq]
  rfl

/-! ## Straps (R504, R505) -/

/-- The third sample of the stage is judged with the two before. -/
theorem strapSample_third (hreset : s.boot.inReset = false) (h : s.boot.stage = 1) (hdue : s.boot.stageAt + 1000000 ≤ s.now)
    (a b c : BitVec 5) (hab : s.boot.samples = [a, b]) :
    strapSample s c = strapsJudge { s with boot := { s.boot with samples := [a, b, c] } } := by
  have hmoment : ¬ s.now < s.boot.stageAt + us (500 * 2) := Nat.not_lt.mpr hdue
  simp [strapSample, hreset, h, hab, hmoment]

variable {s} {a b c : BitVec 5} (hsamples : s.boot.samples = [a, b, c])
include hsamples

theorem strapsJudge_agree (h : a = b ∧ b = c) : strapsJudge s = { s with
    boot := { s.boot with strapsValid := true, skimDpc := bitOf c.toNat 4, pairRole := c.toNat / 4 % 4, bootSel := c.toNat % 4 }
    saf := { s.saf with unstable := false }, mir := { s.mir with strapErr := c.toNat / 4 % 4 == 3 } } := by
  simp only [strapsJudge, hsamples, h.1, h.2, decide_true, Bool.and_self, if_true]
  rfl
theorem strapsJudge_differ (h : ¬ (a = b ∧ b = c)) : strapsJudge s = { s with
    boot := { s.boot with stage := 9, stageAt := s.now }
    saf := { s.saf with unstable := true, sample0 := a, sample1 := b, sample2 := c, statusByte := s.saf.statusByte ||| 2 } } := by
  have hdiffer : (decide (a = b) && decide (b = c)) = false := by
    rw [← Bool.decide_and]
    exact decide_eq_false h
  simp only [strapsJudge, hsamples, hdiffer, Bool.false_eq_true, if_false]

end

/-- Settles O40: a stage's end by the stage, its time-out by its bound, and the third strap sample by whether the three agree. -/
theorem bootStagesRun : Obligations.BootStagesRun := by
  intro s v hreset htrip hfail
  have hboots : boots s := by rw [boots, hreset, htrip, hfail]; rfl
  refine ⟨fun h => congrArg done (bootStage_reset s v hboots h), fun h hvalid => congrArg done (bootStage_straps s v hboots h hvalid),
    fun h x f hslot => congrArg done (bootStage_slot s v hboots h x f hslot), fun h hsel f hslot => congrArg done (bootStage_noSlot s v hboots h hsel f hslot),
    fun h => congrArg done (bootStage_bist s v hboots h), fun h hlate => congrArg done ?late, fun h hearly => congrArg done ?early,
    fun h hdue a b c hab => ⟨fun hagree => congrArg done ?agree, fun hdiffer => congrArg done ?differ⟩⟩
  case late => rw [bootTimeout_slot s hreset h, if_pos hlate]
  case early => rw [bootTimeout_slot s hreset h, if_neg (Nat.not_lt.mpr hearly)]
  case agree => rw [strapSample_third s hreset h hdue a b c hab, strapsJudge_agree rfl hagree]
  case differ => rw [strapSample_third s hreset h hdue a b c hab, strapsJudge_differ rfl hdiffer]

end Sys2Proof.Machine
end

section
/-! The phases of a partition reset and of device recovery (R435-R437, R441). -/
namespace Sys2Proof.Machine

section
variable (s : State) (p c : Nat)

/-! ## The reset of a partition (R435) -/

section
variable (hp : p < 8)
include hp

theorem exec_dumpComplete : exec (.dumpComplete p) s = .next (intEval
    (if (s.part p).state = 2 ∧ s.flt.recovery = false
      then setPartState ((dumpWrite s p).setPart p { (dumpWrite s p).part p with quiesceAt := (dumpWrite s p).now, dump := [] }) p 3 else s)) := by
  refine (onInst_next _ _ (decide_eq_true hp)).trans ?_
  simp only [Bool.and_eq_true, decide_eq_true_eq, Bool.not_eq_true']
theorem exec_selfRefreshConfirm_new (hc : c < 5) (h3 : (s.part p).state = 3) (hhold : (s.part p).holdAt = 0)
    (hnew : (s.part p).confirmed.contains c = false) : exec (.selfRefreshConfirm p c) s = .next (intEval
      (if (s.part p).confirmed.length = 4 ∧ s.flt.recovery = false
        then beginHold (s.setPart p { s.part p with confirmed := c :: (s.part p).confirmed }) p
        else s.setPart p { s.part p with confirmed := c :: (s.part p).confirmed })) := by
  refine (onInst_next _ _ (by simp [hp, hc])).trans (congrArg done ((if_neg (by simp only [h3, hhold, hnew]; decide)).trans ?_))
  simp only [Bool.and_eq_true, decide_eq_true_eq, Bool.not_eq_true', State.setPart_flt]
theorem exec_quiesceDeadline : exec (.quiesceDeadline p) s = .next (intEval
    (if (s.part p).state = 3 ∧ (s.part p).holdAt = 0 ∧ s.flt.recovery = false ∧ (s.part p).quiesceAt + 1000000 ≤ s.now then beginHold s p else s)) := by
  refine (onInst_next _ _ (decide_eq_true hp)).trans ?_
  simp only [Bool.and_eq_true, decide_eq_true_eq, Bool.not_eq_true', and_assoc]
  rfl
theorem exec_resetHoldEnd_part : exec (.resetHoldEnd (some p)) s = .next (intEval
    (if (s.part p).state = 3 ∧ (s.part p).holdAt ≠ 0 ∧ (s.part p).holdAt + 1000000 ≤ s.now + 1 then resetPart s p else s)) := by
  refine (onInst_next _ _ (decide_eq_true hp)).trans ?_
  simp only [Bool.and_eq_true, decide_eq_true_eq, bne_iff_ne, and_assoc]
  rfl
theorem exec_partitionReturn_other (h : (s.part p).state ≠ 5) : exec (.partitionReturn p) s = .next (intEval s) := by
  refine (onInst_next _ _ (decide_eq_true hp)).trans (congrArg done (if_neg ?_))
  simp [h]
/-- A partition comes back; no command of `FLT_CMD` waits for it. -/
theorem exec_partitionReturn (h5 : (s.part p).state = 5) (hrec : s.flt.recovery = false) (hfree : (partReturn s p).flt.busy = false) :
    exec (.partitionReturn p) s = .next (intEval (partReturn s p)) := by
  refine (onInst_next _ _ (decide_eq_true hp)).trans (congrArg done ((if_pos ?_).trans (if_neg ?_)))
  · simp [h5, hrec]
  · simp [hfree]

end

/-! ## Device recovery (R441) -/

/-- The part whose hold of all is over. -/
def holdOver : State := { s with flt := { s.flt with recHoldAt := 0 } }

/-- The end of the hold: the partitions that are held are reset, and every port is brought up again. -/
def bringUpAll : State :=
  (List.range 14).foldl detectStart ((allParts.filter fun p => (s.part p).state == 3).foldl (fun s p => resetPart (settleLossy s p) p) s)
theorem exec_resetHoldEnd_none : exec (.resetHoldEnd none) s = .next (intEval
    (if s.flt.recovery && s.flt.recHoldAt != 0 && decide (s.flt.recHoldAt + ms 10 ≤ s.now) then bringUpAll (holdOver s) else s)) := rfl
theorem bringUpAll_noneHeld (hnone : ∀ q, q < 8 → (s.part q).state ≠ 3) : bringUpAll s = (List.range 14).foldl detectStart s := by
  have hleft : (allParts.filter fun q => (s.part q).state == 3) = [] := by
    refine List.filter_eq_nil_iff.mpr fun q hq => ?_
    have hq8 : q < 8 := List.mem_range.mp (show q ∈ List.range 8 from hq)
    simpa using hnone q hq8
  rw [bringUpAll, hleft, List.foldl_nil]

theorem exec_resetHoldEnd_idle (hrec : s.flt.recovery = false) : exec (.resetHoldEnd none) s = .next (intEval s) := by
  rw [exec_resetHoldEnd_none, hrec, Bool.false_and, Bool.false_and, if_neg Bool.false_ne_true]
/-- The hold of all ends with no partition left to reset. -/
theorem exec_resetHoldEnd_all (hrec : s.flt.recovery = true) (hhold : s.flt.recHoldAt ≠ 0) (hdue : s.flt.recHoldAt + 10000000 ≤ s.now)
    (hnone : ∀ q, q < 8 → (s.part q).state ≠ 3) :
    exec (.resetHoldEnd none) s = .next (intEval ((List.range 14).foldl detectStart (holdOver s))) := by
  have hms : s.flt.recHoldAt + ms 10 ≤ s.now := hdue
  rw [exec_resetHoldEnd_none, if_pos (by simp [hrec, hhold, hms]), bringUpAll_noneHeld (holdOver s) hnone]
theorem recoveryEnd_idle (hrec : s.flt.recovery = false) : recoveryEnd s = s := by simp [recoveryEnd, hrec]

end

/-- Settles O50: each event by the state of the partition or of the recovery, and by its moment. -/
theorem resetPhasesRun : Obligations.ResetPhasesRun := by
  intro s p c hp hc
  have hdump := exec_dumpComplete s p hp
  have hquiesce := exec_quiesceDeadline s p hp
  have hhold := exec_resetHoldEnd_part s p hp
  dsimp only
  refine ⟨fun h2 hrec t ht => ?dumped, fun hother => ?noDump, fun h3 h0 hnew hfew => ?confirms, fun h3 h0 hnew hfour hrec => ?lastConfirms,
    fun h3 h0 hrec hdue => ?deadline, fun hearly => ?deadlineEarly, fun h3 h0 hdue => ?held, fun hearly => ?heldEarly,
    exec_resetHoldEnd_all s, exec_resetHoldEnd_idle s, fun h5 hrec _ hfree => exec_partitionReturn s p hp h5 hrec hfree,
    exec_partitionReturn_other s p hp, rfl, fun hrec => congrArg done (recoveryEnd_idle s hrec)⟩
  case dumped =>
    subst ht
    rw [hdump, if_pos ⟨h2, hrec⟩]
  case noDump => rw [hdump, if_neg fun h => hother h.1]
  case confirms => rw [exec_selfRefreshConfirm_new s p c hp hc h3 h0 hnew, if_neg fun h => hfew h.1]
  case lastConfirms => rw [exec_selfRefreshConfirm_new s p c hp hc h3 h0 hnew, if_pos ⟨hfour, hrec⟩]
  case deadline => rw [hquiesce, if_pos ⟨h3, h0, hrec, hdue⟩]
  case deadlineEarly => rw [hquiesce, if_neg (by omega)]
  case held => rw [hhold, if_pos ⟨h3, h0, hdue⟩]
  case heldEarly => rw [hhold, if_neg (by omega)]

end Sys2Proof.Machine
end

section
/-! Units in QUIET, escalation and restarts (R427-R430, R463), and the commands of `FLT_CMD` (R444-R446). -/
namespace Sys2Proof.Machine

section
variable (s : State) (u : W32)

/-! ## QUIET (R427, R428) -/

theorem quietEnd_waits (h : (s.unit u).state ≠ 3 ∨ s.now < (s.unit u).since + 1000000 * s.flt.quietMs) : quietEnd s u = s := by
  have hms : (s.unit u).state ≠ 3 ∨ s.now < (s.unit u).since + ms s.flt.quietMs := h
  simp [quietEnd, hms]
/-- A unit that leaves QUIET counts itself, but for a line and a partition; beyond the limit it latches. -/
theorem quietEnd_over (h3 : (s.unit u).state = 3) (hdue : (s.unit u).since + 1000000 * s.flt.quietMs ≤ s.now) (h8 : unitClass u ≠ 8)
    (h2 : unitClass u ≠ 2) : quietEnd s u =
      if s.flt.recovLimit < (s.unit u).count + 1 then latchUnit s u
      else setUnitState (s.setUnit u { s.unit u with
        count := (s.unit u).count + 1, winOpen := true, winAt := if (s.unit u).winOpen then (s.unit u).winAt else s.now }) u 0 := by
  have hms : ¬ s.now < (s.unit u).since + ms s.flt.quietMs := Nat.not_lt.mpr hdue
  have hself : countedUnit u = u := by simp [countedUnit, h8]
  simp only [quietEnd, h3, hms, hself, h2, bne_self_eq_false, decide_false, Bool.or_self, Bool.false_eq_true, if_false, gt_iff_lt]
theorem exec_recoveryWindowEnd (hu : unitOk u = true) : exec (.recoveryWindowEnd u) s = .next (intEval
    (if (s.unit u).winOpen = true ∧ (s.unit u).winAt + 60000000000 * s.flt.recovWinMin ≤ s.now
      then s.setUnit u { s.unit u with winOpen := false, count := 0 } else s)) := by
  have hms : ms (60000 * s.flt.recovWinMin) = 60000000000 * s.flt.recovWinMin := by rw [ms]; omega
  refine (onInst_next _ _ hu).trans ?_
  simp only [hms, Bool.and_eq_true, decide_eq_true_eq]

/-! ## Escalation (R429) -/

theorem escalate_up (h1 : (s.unit u).state ≠ 1) (h2 : (s.unit u).state ≠ 2) : escalate s u = s := by simp [escalate, h1, h2]
/-- A cluster's core that overruns its bound ends what is held on it, and faults its partition. -/
theorem escalate_core (hdown : (s.unit u).state = 1 ∨ (s.unit u).state = 2) (h4 : unitClass u = 4)
    (hover : (s.unit u).since + min (unitBound u) (1000000 * s.flt.escalateMs) < s.now) (v : W32) (hv : parentOf u = some v) :
    escalate s u = faultAt (endHeld s u) v 0x11 0 0 1 := by
  have hms : (s.unit u).since + min (unitBound u) (ms s.flt.escalateMs) < s.now := hover
  have hclocked : clocked u = u := by simp [clocked, h4]
  have hpart : unitPart u = none := by simp [unitPart, hclocked, h4]
  have hlive : ((s.unit u).state != 1 && (s.unit u).state != 2) = false := by
    obtain h | h := hdown <;> rw [h] <;> rfl
  simp [escalate, hlive, h4, hpart, hms, hclocked, hv]

/-! ## Restarts (R463) -/

theorem coreRestart_none (h : unitDown s u = false ∨ (s.unit u).stuck = true) : coreRestart s u = s := by simp [coreRestart, h]

end

/-- Settles O51: the end of QUIET by the unit's counter, a window and an escalation by their moments, and a restart by the core's state. -/
theorem quietAndEscalation : Obligations.QuietAndEscalation := by
  intro s u hu
  have hquiet : exec (.quietEnd u) s = .next (intEval (quietEnd s u)) := onInst_next _ _ hu
  have hwindow := exec_recoveryWindowEnd s u hu
  have hescalate : exec (.escalation u) s = .next (intEval (escalate s u)) := onInst_next _ _ hu
  dsimp only
  refine ⟨fun h3 hdue h8 h2 => ⟨fun hmany => ?latches, fun hfew => ?leaves⟩, fun hwaits => ?waits, fun hopen hdue => ?window, fun hearly => ?windowEarly,
    hescalate, fun h1 h2 => ?up, fun hdown h4 hover v hv => ?core, fun hcore => ?restart⟩
  case latches => rw [hquiet, quietEnd_over s u h3 hdue h8 h2, if_pos hmany]
  case leaves => rw [hquiet, quietEnd_over s u h3 hdue h8 h2, if_neg (Nat.not_lt.mpr hfew)]
  case waits => rw [hquiet, quietEnd_waits s u hwaits]
  case window => rw [hwindow, if_pos ⟨hopen, hdue⟩]
  case windowEarly => rw [hwindow, if_neg fun h => Nat.not_le.mpr hearly h.2]
  case up => rw [hescalate, escalate_up s u h1 h2]
  case core => rw [hescalate, escalate_core s u hdown h4 hover v hv]
  case restart =>
    have hrow : exec (.coreRestartComplete u) s = .next (intEval (coreRestart s u)) := onInst_next _ _ ((coreWf_iff u).mpr ⟨hu, hcore⟩)
    exact ⟨hrow, fun hnone => by rw [hrow, coreRestart_none s u hnone]⟩

/-! ## `FLT_CMD` (R444) -/

/-- A part in the boot stage BIST (R453), where no command of `FLT_CMD` runs. -/
def inBootBist : State :=
  { State.reset with
    boot := { State.reset.boot with inReset := false, stage := 5 }
    pins := { State.reset.pins with vddSaf := true, perstN := true } }
/-- A failure that its self-tests found: of no unit and no line. -/
def bistFailure : BistRec := { unit := 0, test := 0, kind := 0, bit := 0, column := 0, addr := 0 }

theorem barWrite_inBootBist : barWrite inBootBist 3 = true := by decide
theorem inBootBist_idle : inBootBist.flt.busy = false := rfl
/-- The end of the self-tests of the boot is noted, though no command runs (log 36). -/
theorem bistComplete_inBootBist : (bistComplete inBootBist [bistFailure]).flt.bistFails = 1 := by decide
theorem bistFails_inBootBist : inBootBist.flt.bistFails = 0 := rfl

/-- Refutes O52: BIST_COMPLETE does not leave every part alone while no command of `FLT_CMD` runs, for it also ends the self-tests of the boot
stage BIST, whose failures `FLT_BIST_STATUS` shows. -/
theorem not_faultCommandsRun : ¬ Obligations.FaultCommandsRun := by
  intro h
  obtain ⟨-, -, -, -, hidle, -⟩ := h inBootBist 0 [bistFailure] barWrite_inBootBist
  have hsame : done (bistComplete inBootBist [bistFailure]) = .next (intEval inBootBist) := hidle inBootBist_idle
  have hfails : (bistComplete inBootBist [bistFailure]).flt.bistFails = inBootBist.flt.bistFails := by
    rw [done, Host.Outcome.next.injEq] at hsame
    have hflt := congrArg State.flt hsame
    rw [intEval_flt, intEval_flt] at hflt
    rw [hflt]
  rw [bistComplete_inBootBist, bistFails_inBootBist] at hfails
  exact absurd hfails (by decide)

end Sys2Proof.Machine
end

section
/-! Resynchronisation data (R415) and an armed injection (R390). -/
namespace Sys2Proof.Machine

/-! ## A line written where nothing is armed or remapped (R368, R375) -/

section
variable {s t : State} (a : Nat) (bs : List Byte)

theorem blkOf_congr (hparts : t.mem.parts = s.mem.parts) (hfuses : t.fuses = s.fuses) : blkOf t a = blkOf s a := by
  simp only [blkOf, State.part, coordOf, chan0, creamRows, hparts, hfuses]
theorem lineAt_unmapped (hcnts : s.mem.cnts = []) : lineAt s a = a / 64 * 64 := by
  simp [lineAt, State.cnt, hcnts, tabGet]
@[simp] theorem digestWrite_mem : (digestWrite s a bs).mem = s.mem := by
  unfold digestWrite
  dsimp only
  (repeat' split) <;> rfl
@[simp] theorem digestWrite_fuses : (digestWrite s a bs).fuses = s.fuses := by
  unfold digestWrite
  dsimp only
  (repeat' split) <;> rfl
theorem lineErr_intEval : lineErr (intEval s) a = lineErr s a := rfl
theorem injectOn_unarmed (hmask : (blkOf s a).injMask = 0) : injectOn s a = s := by simp [injectOn, hmask]

/-- Without counters there are no remap entries: a line is held at its own place, and a clean write clears its error there. -/
theorem cleanLine_mem (hcnts : s.mem.cnts = []) : (setErr (putBytes s (a / 64 * 64) bs) a 0).mem =
    { s.mem with bytes := memPutL s.mem.bytes (a / 64 * 64) bs, err := tabSet 0 s.mem.err (a / 64) 0 } := by
  have hput : (putBytes s (a / 64 * 64) bs).mem = { s.mem with bytes := memPutL s.mem.bytes (a / 64 * 64) bs } := by
    rw [putBytes, lineAt_unmapped _ hcnts]
    simp
  rw [setErr, lineAt_unmapped _ (by rw [hput, hcnts]), hput]
  simp
theorem injectOn_cleanLine (hmask : (blkOf s a).injMask = 0) :
    injectOn (setErr (putBytes s (a / 64 * 64) bs) a 0) a = setErr (putBytes s (a / 64 * 64) bs) a 0 :=
  injectOn_unarmed a ((congrArg MemBlk.injMask (blkOf_congr (s := s) a rfl rfl)).trans hmask)
theorem writeLine_unarmed (hcnts : s.mem.cnts = []) (hmask : (blkOf s a).injMask = 0) :
    (writeLine s a bs).mem = { s.mem with
      bytes := memPutL s.mem.bytes (a / 64 * 64) (padTo 64 bs), err := tabSet 0 s.mem.err (a / 64) 0 } := by
  have hmem : (unbuffer (digestWrite s a bs) a).mem = s.mem := digestWrite_mem a bs
  have hfuses : (unbuffer (digestWrite s a bs) a).fuses = s.fuses := digestWrite_fuses a bs
  rw [writeLine]
  generalize unbuffer (digestWrite s a bs) a = u at hmem hfuses ⊢
  have hblk : blkOf u a = blkOf s a := blkOf_congr a (by rw [hmem]) hfuses
  rw [injectOn_cleanLine a _ (by rw [hblk, hmask]), cleanLine_mem a _ (by rw [hmem, hcnts]), hmem]

end

/-! ## The lines of resynchronisation data (R415) -/

/-- Two folds that agree on the elements of their list agree. -/
theorem foldl_eq_of_mem {σ α : Type} (f g : σ → α → σ) (l : List α) (h : ∀ s, ∀ x ∈ l, f s x = g s x) (s : σ) : l.foldl f s = l.foldl g s := by
  induction l generalizing s with
  | nil => rfl
  | cons x l ih =>
    rw [List.foldl_cons, List.foldl_cons, h s x List.mem_cons_self]
    exact ih (fun s y hy => h s y (List.mem_cons_of_mem x hy)) _
/-- Whole lines, from an address at which one begins. -/
theorem secWrite_wholeLines (s : State) (a n : Nat) (bs : List Byte) (ha : a % 64 = 0) (hn : bs.length = 64 * n) :
    secWrite s a bs = ((List.range n).map (64 * ·)).foldl (fun s o => writeLine s (a + o) ((bs.drop o).take 64)) s := by
  have hcuts : lineCuts a bs.length = (List.range n).map (64 * ·) := by
    have hcount : (64 * n + 63) / 64 = n := by omega
    simp [lineCuts, ha, hn, hcount]
  rw [secWrite, hcuts]
  refine foldl_eq_of_mem _ _ _ (fun t o ho => ?_) s
  obtain ⟨i, hi, rfl⟩ := List.mem_map.mp ho
  have hwithin : i < n := List.mem_range.mp hi
  have hwhole : 64 - (a + 64 * i) % 64 = 64 := by omega
  have hlen : ((bs.drop (64 * i)).take 64).length = 64 := by
    rw [List.length_take, List.length_drop]
    omega
  simp only [hwhole, hlen, if_true]

/-! ## A member whose cream has an injection armed (R390) -/

/-- A SYNCING member; an injection is armed on column 0 of the first pseudo-channel of partition 0. -/
def injArmed : State :=
  { State.reset with
    mir := { State.reset.mir with state := 2 }
    mem := { State.reset.mem with parts := [(0, { ({} : Part) with stack := { ({} : MemBlk) with injMask := 1 } })] } }

/-- The injection of cream partition 0 is spent, on the first line of its memory. -/
def injSpent (s : State) : Prop := s.mem.cnts = [] ∧ (s.part 0).stack.injMask = 0 ∧ (tabGet 0 s.mem.err (2 ^ 38)).toNat ≠ 0

theorem injSpent_firstLine : injSpent (writeLine (sawRecord injArmed) (2 ^ 44) (List.replicate 64 0)) := by
  unfold injSpent
  decide +kernel
/-- What is written to the other lines of its first 4 KiB leaves that error alone. -/
theorem injSpent_writeLine {s : State} (hspent : injSpent s) (o : Nat) (bs : List Byte) (hlo : 64 ≤ o) (hhi : o < 4096) :
    injSpent (writeLine s (2 ^ 44 + o) bs) := by
  obtain ⟨hcnts, hmask, herr⟩ := hspent
  have hcream : ppaCream (2 ^ 44 + o) = true := by simp [ppaCream]
  have hpart : ppaPart (2 ^ 44 + o) = 0 := by
    rw [ppaPart, hcream, if_pos rfl, field]
    omega
  have hblk : (blkOf s (2 ^ 44 + o)).injMask = 0 := by rw [blkOf, hcream, if_pos rfl, hpart, hmask]
  have hmem := writeLine_unarmed (2 ^ 44 + o) bs hcnts hblk
  refine ⟨by rw [hmem, hcnts], ?_, ?_⟩
  · rw [State.part, hmem]
    exact hmask
  · rw [hmem, tabGet_tabSet_other _ _ _ _ _ (by omega)]
    exact herr
theorem injSpent_lines (l : List Nat) (f : Nat → List Byte) (hl : ∀ o ∈ l, 64 ≤ o ∧ o < 4096) {s : State} (hspent : injSpent s) :
    injSpent (l.foldl (fun s o => writeLine s (2 ^ 44 + o) (f o)) s) := by
  induction l generalizing s with
  | nil => exact hspent
  | cons o l ih =>
    obtain ⟨⟨hlo, hhi⟩, hrest⟩ := List.forall_mem_cons.mp hl
    exact ih hrest (injSpent_writeLine hspent o (f o) hlo hhi)
theorem lineErr_of_injSpent {s : State} (hspent : injSpent s) : lineErr s (2 ^ 44) ≠ 0 := by
  obtain ⟨hcnts, -, herr⟩ := hspent
  have hline : 2 ^ 44 / 64 * 64 / 64 = 2 ^ 38 := by decide
  rw [lineErr, lineAt_unmapped _ hcnts, hline]
  exact herr

/-- 4 KiB of zeros. -/
def zeroPage : List Byte := List.replicate 4096 0
theorem length_zeroPage : zeroPage.length = 4096 := List.length_replicate
theorem take_zeroPage : zeroPage.take 64 = List.replicate 64 0 := by rw [zeroPage, List.take_replicate]; rfl

theorem injSpent_resyncData : injSpent (resyncData injArmed (2 ^ 44) zeroPage) := by
  have hlines : resyncData injArmed (2 ^ 44) zeroPage = secWrite (sawRecord injArmed) (2 ^ 44) zeroPage := by
    rw [resyncData, if_pos (by decide), List.take_of_length_le (Nat.le_of_eq length_zeroPage)]
  have hcuts : (List.range 64).map (64 * ·) = 0 :: (List.range 63).map fun i => 64 * (i + 1) := by decide
  rw [hlines, secWrite_wholeLines _ _ 64 _ (by decide) length_zeroPage, hcuts, List.foldl_cons, List.drop_zero, take_zeroPage]
  refine injSpent_lines _ _ (fun o ho => ?_) injSpent_firstLine
  obtain ⟨i, hi, rfl⟩ := List.mem_map.mp ho
  have hbelow : i < 63 := List.mem_range.mp hi
  omega
/-- Refutes O60: where an injection is armed (R390) the data do not all stand without errors. -/
theorem not_resynchronisationDataStored : ¬ Obligations.ResynchronisationDataStored := by
  intro h
  obtain ⟨t, hrow, -, hclean, -⟩ := h injArmed (BitVec.ofNat 64 (2 ^ 44)) zeroPage (by decide) length_zeroPage (by decide) (by decide) (by decide)
  have hfirst : lineErr t (2 ^ 44) = 0 := hclean 0 (by decide)
  have hppa : (BitVec.ofNat 64 (2 ^ 44)).toNat = 2 ^ 44 := by decide
  rw [exec_resync_next hrow, lineErr_intEval, hppa] at hfirst
  exact lineErr_of_injSpent injSpent_resyncData hfirst

end Sys2Proof.Machine
end

section
/-! The timers of a mirrored pair (R398, R401, R403-R406, R410, R411, R415, R499). -/
namespace Sys2Proof.Machine

section
variable (s : State)

/-! ## Heartbeats (R403) -/

/-- The heartbeat that a member sends. -/
def heartbeatBytes : List Byte :=
  mirHead 4 3 ++ [BitVec.ofNat 8 s.mir.state, BitVec.ofNat 8 (recovering s)] ++ leBytes 6 0 ++ leBytes 8 s.mir.seq
/-- The part as it sends one. -/
def heartbeatSent : State := sendMir (s.onMir fun m => { m with sentHb := s.now }) (heartbeatBytes s)

theorem exec_mirrorHeartbeatTimer : exec .mirrorHeartbeatTimer s = .next (intEval
    (if s.mir.partner ≠ 0 ∧ s.flt.failed = false ∧ s.flt.recovery = false ∧ s.boot.inReset = false ∧ s.mir.sentHb + 10000 ≤ s.now
      then advance (heartbeatSent s) else s)) := by
  have hus : us 10 = 10000 := rfl
  change execMirrorHeartbeatTimer s = _
  simp only [execMirrorHeartbeatTimer, done, hus, Bool.and_eq_true, bne_iff_ne, Bool.not_eq_true', decide_eq_true_eq, and_assoc]
  rfl
theorem advance_heartbeatSent (h3 : s.mir.state ≠ 3) (h : s.mir.state ≠ 1 ∨ s.mir.due = []) : advance (heartbeatSent s) = heartbeatSent s := by
  have hmir : (heartbeatSent s).mir = { s.mir with sentHb := s.now } := sendMir_mir ..
  refine advance_idle _ (by rwa [hmir]) fun h1 => ?_
  rw [hmir] at h1 ⊢
  exact h.resolve_left fun hne => hne h1

/-! ## Intervals and digests (R401, R404-R406) -/

section
variable {s} {i : Interval} {n : Nat}

theorem intervalCut_eq (hi : s.interval s.mir.curInt = some i) : intervalCut s =
    if s.mir.state = 1 ∧ i.cut = false ∧ (4096 ≤ i.count ∨ i.opened + 100000 ≤ s.now)
      then (s.setInterval { i with cut := true }).onMir fun m => { m with curInt := m.curInt + 1 } else s := by
  have hus : us 100 = 100000 := rfl
  simp only [intervalCut, hi, hus, Bool.and_eq_true, beq_iff_eq, Bool.not_eq_true', Bool.or_eq_true, decide_eq_true_eq, and_assoc]
theorem intervalClose_open (hi : s.interval n = some i) (hopen : intervalOver s i = false) : intervalClose s n = s := by
  simp [intervalClose, hi, hopen]
/-- The standby sends the digest of an interval that is over, and compares it with the partner's. -/
theorem intervalClose_standby (hi : s.interval n = some i) (hover : intervalOver s i = true) (h3 : s.mir.state = 3) (y : Interval)
    (hy : y = { i with cut := true, sentAt := some s.now }) :
    intervalClose s n = compareInterval (fun s => failover s 3) (sendMir (s.setInterval y) (digestBytes y)) y := by
  have hstate : (s.setInterval y).mir.state = 3 := h3
  simp only [intervalClose, hi, h3, hover, Bool.or_true, Bool.and_self, BEq.rfl, if_true, ← hy, hstate, Bool.true_or]
theorem exec_digestLate {t : Nat} (hi : s.interval n = some i) (hsent : i.sentAt = some t) (hpeer : i.peer = none) :
    exec (.digestLate n) s = .next (intEval
      (if s.now < t + 10000000 then s else if s.mir.state = 3 then leaveStep s 11 else lostStandby s 11)) := by
  change execDigestLate n s = _
  simp only [execDigestLate, hi, hsent, hpeer]
  rfl

end

/-! ## Tokens and copies (R398) -/

section
variable {s}

theorem exec_tokenMissingTimeout {n t : Nat} {r : BitVec 256} (hr : s.mir.tokens.find? (fun x => (tokOf x.1).seq == n) = some (r, t)) :
    exec (.tokenMissingTimeout n) s = .next (intEval
      (if s.mir.state = 3 ∧ copyFor s (tokOf r) = none ∧ t + 500000 ≤ s.now then leaveStep s 8 else s)) := by
  have hus : us 500 = 500000 := rfl
  change execTokenMissingTimeout n s = _
  simp only [execTokenMissingTimeout, done, hr, hus, Bool.and_eq_true, beq_iff_eq, Option.isNone_iff_eq_none, decide_eq_true_eq, and_assoc]
/-- Has a token come that a copy matches? -/
def tokenCame (s : State) (c : CmdIn) : Bool := s.mir.tokens.any fun x => (tokOf x.1).src == srcOf c.raw && (tokOf x.1).tag == tagOf c.raw
theorem exec_orphanTimeout {k t : Nat} {c : CmdIn} (hc : s.mir.copies.find? (fun x => x.1 == k) = some (k, c, t)) :
    exec (.orphanTimeout k) s = .next (intEval
      (if tokenCame s c = false ∧ t + 2000000 ≤ s.now
        then s.onMir fun m => bumpOrphans { m with copies := m.copies.filter fun x => x.1 != k } else s)) := by
  have hms : ms 2 = 2000000 := rfl
  change execOrphanTimeout k s = _
  simp only [execOrphanTimeout, done, hc, hms, tokenCame, Bool.and_eq_true, Bool.not_eq_true', decide_eq_true_eq]
  rfl

end

theorem exec_lagTimeout_other (h3 : s.mir.state ≠ 3) : exec .lagTimeout s = .next (intEval s) := by
  refine congrArg done (if_neg ?_)
  simp [h3]
theorem exec_lagTimeout_many (h3 : s.mir.state = 3) (hmany : 65536 < (unstarted s).length) :
    exec .lagTimeout s = .next (intEval (leaveStep s 10)) := by
  refine congrArg done (if_pos ?_)
  simp [h3, hmany]

/-! ## Silence (R410, R411, R417) -/

theorem exec_peerSilentTimeout : exec .peerSilentTimeout s = .next (intEval
    (if s.mir.state = 3 ∧ peerAliveOk s = false ∧ s.mir.lastRec + 1000 * s.mir.mirSilentUs ≤ s.now then failover s 2 else s)) := by
  have hus : us s.mir.mirSilentUs = 1000 * s.mir.mirSilentUs := rfl
  change execPeerSilentTimeout s = _
  simp only [execPeerSilentTimeout, done, hus, Bool.and_eq_true, beq_iff_eq, Bool.not_eq_true', decide_eq_true_eq, and_assoc]
theorem mirSilent_early (h : s.now < s.mir.lastRec + 1000 * s.mir.mirSilentUs) : mirSilent s = s := if_pos h
theorem mirSilent_standby (hdue : s.mir.lastRec + 1000 * s.mir.mirSilentUs ≤ s.now) (h3 : s.mir.state = 3) (halive : peerAliveOk s = true) :
    mirSilent s = leaveStep s 14 := by
  simp [mirSilent, us, Nat.not_lt.mpr hdue, h3, halive]
theorem mirSilent_active (hdue : s.mir.lastRec + 1000 * s.mir.mirSilentUs ≤ s.now) (h1 : s.mir.state = 1) (hstep : s.mir.inStep = true)
    (halive : aliveHeld s = false) : mirSilent s = lostStandby s 14 := by
  simp [mirSilent, us, Nat.not_lt.mpr hdue, h1, hstep, halive]

/-! ## The cut of a resynchronisation (R415) -/

theorem resyncCut_other (h1 : s.mir.state ≠ 1) : resyncCut s = s := by simp [resyncCut, h1]
/-- After the last block the cut comes at once, or holds new work while commands that write still run. -/
theorem resyncCut_due (h1 : s.mir.state = 1) (hdone : s.mir.watermark = some (2 ^ 45)) (hfree : s.mir.cutHold = none) (hretry : s.mir.cutRetry ≤ s.now) :
    resyncCut s = if s.store.cmds.any mutRuns then s.onMir fun m => { m with cutHold := some s.now } else cutDone s := by
  simp only [resyncCut, h1, hdone, hfree, Nat.not_lt.mpr hretry, bne_self_eq_false, Bool.or_self, Bool.false_eq_true, if_false]

end

/-- Settles O54: each timer by the member's state and its moment. -/
theorem pairTimersRun : Obligations.PairTimersRun := by
  intro s n k
  have hbeat := exec_mirrorHeartbeatTimer s
  have hpeer := exec_peerSilentTimeout s
  dsimp only
  refine ⟨fun hpartner hfailed hrec hreset hdue h3 h1 => ?beats, fun hquiet => ?noBeat, fun i hi => ?cut, fun i hi hover h3 y hy => ?closes,
    fun i hi hopen => ?unfinished, fun i t hi hsent hnone => ?late, fun r t hr => ?missing, fun c t hc => ?orphan, exec_lagTimeout_many s,
    exec_lagTimeout_other s, fun h3 hsilent hdue => ?peerSilent, fun halive => ?peerAlive, fun hdue => ⟨fun h3 halive => ?leaves, fun h1 hstep halive => ?alone⟩,
    fun hearly => congrArg done (mirSilent_early s hearly), rfl, fun h1 hdone hnone hfree hretry => ?cutDone, fun h1 hdone hruns hfree hretry => ?cutHeld,
    fun h1 => congrArg done (resyncCut_other s h1)⟩
  case beats =>
    rw [hbeat, if_pos ⟨hpartner, hfailed, hrec, hreset, hdue⟩, advance_heartbeatSent s h3 h1]
    rfl
  case noBeat =>
    rw [hbeat, if_neg]
    rintro ⟨hpartner, -, -, -, hdue⟩
    exact hquiet.elim hpartner (Nat.not_lt.mpr hdue)
  case cut =>
    exact ⟨fun h1 hopen hdue => congrArg done (by rw [intervalCut_eq hi, if_pos ⟨h1, hopen, hdue⟩]),
      fun hfew hearly => congrArg done (by rw [intervalCut_eq hi, if_neg (by omega)])⟩
  case closes => exact congrArg done (intervalClose_standby hi hover h3 y hy)
  case unfinished => exact congrArg done (intervalClose_open hi hopen)
  case late =>
    have hrow := exec_digestLate hi hsent hnone
    exact ⟨fun hdue h3 => by rw [hrow, if_neg (Nat.not_lt.mpr hdue), if_pos h3], fun hdue h3 => by rw [hrow, if_neg (Nat.not_lt.mpr hdue), if_neg h3],
      fun hearly => by rw [hrow, if_pos hearly]⟩
  case missing =>
    have hrow := exec_tokenMissingTimeout hr
    exact ⟨fun h3 hcopy hdue => by rw [hrow, if_pos ⟨h3, hcopy, hdue⟩], fun hearly => by rw [hrow, if_neg (by omega)]⟩
  case orphan =>
    have hrow := exec_orphanTimeout hc
    exact ⟨fun hcame hdue => by rw [hrow, if_pos ⟨hcame, hdue⟩], fun hearly => by rw [hrow, if_neg (by omega)]⟩
  case peerSilent => rw [hpeer, if_pos ⟨h3, hsilent, hdue⟩]
  case peerAlive => rw [hpeer, if_neg fun h => Bool.false_ne_true (h.2.1.symm.trans halive)]
  case leaves => exact congrArg done (mirSilent_standby s hdue h3 halive)
  case alone => exact congrArg done (mirSilent_active s hdue h1 hstep halive)
  case cutDone => exact congrArg done (by rw [resyncCut_due s h1 hdone hfree hretry, hnone, if_neg Bool.false_ne_true])
  case cutHeld => exact congrArg done (by rw [resyncCut_due s h1 hdone hfree hretry, if_pos hruns])

end Sys2Proof.Machine
end
